-- ==== Sys2Proof/Word.lean ====
section
/-! DEFINITION. The word types of the T7 and the sparse map that holds every array of its state. -/

namespace Sys2Proof

/-- A control-space register word, a pool pointer, a scalar register, the beat counter: 64 bits. -/
abbrev Word := BitVec 64

/-- One byte of device memory, scratchpad or a packet. -/
abbrev Byte := BitVec 8

/-- One 128-byte line, the coherence granule (R66), byte 0 in the low bits. -/
abbrev Line := BitVec 1024

/-- One 64-byte mesh flit or half-block (R192). -/
abbrev Flit := BitVec 512

/-- A sparse array: index and value pairs, indices strictly rising, no value equal to the default of its index.
Equal arrays are equal lists. -/
abbrev SMap (α : Type) := List (Nat × α)

namespace SMap

/-- The value at index `k`, `d` where the array lists none. -/
def get {α : Type} (d : α) (m : SMap α) (k : Nat) : α :=
  match m with
  | [] => d
  | (j, v) :: t => if j = k then v else get d t k

/-- Remove index `k`. -/
def erase {α : Type} (m : SMap α) (k : Nat) : SMap α :=
  match m with
  | [] => []
  | (j, v) :: t => if j = k then erase t k else (j, v) :: erase t k

/-- Put `(k, v)` before the first larger index. -/
def insert {α : Type} (m : SMap α) (k : Nat) (v : α) : SMap α :=
  match m with
  | [] => [(k, v)]
  | (j, w) :: t => if k < j then (k, v) :: (j, w) :: t else (j, w) :: insert t k v

/-- Write index `k`, whose default is `d`; writing the default removes the entry. -/
def set {α : Type} [DecidableEq α] (d : α) (m : SMap α) (k : Nat) (v : α) : SMap α :=
  if v = d then erase m k else insert (erase m k) k v

/-- The canonical form: indices strictly rising and no value listed that is the default of its index. -/
def wf {α : Type} [DecidableEq α] (d : Nat → α) (m : SMap α) : Bool :=
  match m with
  | [] => true
  | (j, v) :: t => decide (v ≠ d j) && t.all (fun e => decide (j < e.1)) && wf d t

end SMap

end Sys2Proof
end

