-- ==== Sys2Proof/Syntax.lean ====
section
/-! DEFINITION. The commands the T7 takes: one constructor per row of the table of operations and events, with the
operands of the row, and the types of those operands. -/

namespace Sys2Proof

/-- What every control-space write carries: the writer's claim number and sequence number (R505), and which output
stage sent it (WRITER of Table CSP-4: 0 PAIR, 1 CP0 alone, 2 CP1 alone, 3 CP2). -/
structure Cmd where
  claim : BitVec 32
  seq : BitVec 48
  writer : BitVec 2
  deriving DecidableEq, Repr

/-- A fabric packet: arrival (or departure) port, the header of Table TRN-1 and the body of Table TRN-2, byte 0 of the
body in bits [7:0]. -/
structure Pkt where
  port : Fin 64
  opc : BitVec 6
  len : BitVec 5
  host : BitVec 12
  tag : BitVec 15
  ccx : BitVec 4
  lf : BitVec 4
  poison : Bool
  status : BitVec 8
  seq : BitVec 32
  addr : BitVec 64
  snpid : BitVec 16
  way : BitVec 3
  binv : Bool
  data : Bool
  loc : Bool
  vsel : Bool
  aop : BitVec 8
  size : BitVec 3
  fwdhost : BitVec 12
  fwdtag : BitVec 15
  set : BitVec 12
  body : BitVec 2048
  deriving DecidableEq, Repr

/-- A dynamic mesh packet: the header of Table TIL-3, the inline data of its header flit and its data flits. -/
structure MPkt where
  dx : BitVec 6
  dy : BitVec 5
  sx : BitVec 6
  sy : BitVec 5
  vn : Bool
  cls : Bool
  mc : BitVec 2
  mlo : BitVec 6
  mhi : BitVec 6
  len : BitVec 5
  ce : Bool
  cee : Bool
  cc : BitVec 4
  seq : BitVec 16
  op : BitVec 8
  size : BitVec 3
  addr : BitVec 64
  job : BitVec 16
  status : BitVec 8
  raddr : BitVec 20
  inl : BitVec 256
  inlPoison : Bool
  flits : List (Flit × BitVec 2)
  deriving DecidableEq, Repr

/-- Who sends an atomic: a host by AtomicReq, or a tile by a dynamic packet (Table TIL-13, OP 0x01 to 0x0C). -/
inductive AtomSrc where
  | host (p : Pkt)
  | tile (m : MPkt)
  deriving DecidableEq, Repr

/-- Where and when a core issues an operation: tile, core, and tile cycle counted since the bar counters last
restarted (R188, R222). -/
structure CoreAt where
  tile : Fin 672
  core : Fin 128
  cyc : BitVec 64
  deriving DecidableEq, Repr

/-- The oldest waiting access of a class of open users of a channel (Table DRM-8): 0 HOME, 1 PERC, 2 BRUSH, 3 REBUILD;
line index on the subchannel, and write or read. -/
structure OpenHead where
  cls : Fin 4
  line : BitVec 31
  write : Bool
  deriving DecidableEq, Repr

/-- The link of a drive as trained (Table FLS-4): PCIe generation, lanes, and whether it is in flit mode. -/
structure DriveLink where
  gen : BitVec 4
  lanes : BitVec 5
  flitMode : Bool
  deriving DecidableEq, Repr

/-- A drive as its identification shows it (Table FLS-4): NVMe version (major in [15:8]), I/O command set, SGLS, MDTS in KiB; NSID 1
active, a 4,096-byte LBA format without metadata; extents of 1,088 KiB; the admin queue depth, I/O queue pairs and their depth that
it allows; and whether it has Dataset Management. -/
structure DriveInfo where
  version : BitVec 16
  ioSet : Bool
  sgls : BitVec 32
  mdts : BitVec 32
  nsid1 : Bool
  lba4k : Bool
  extents : BitVec 32
  adminDepth : BitVec 16
  ioPairs : BitVec 16
  ioDepth : BitVec 16
  dsm : Bool
  deriving DecidableEq, Repr

/-- A DRAM module as its SPD hub and sensors show it (Table DRM-1), beside its serial number: capacity in GiB, whether it is a DDR5 MRDIMM with
×4 devices and 40-bit subchannels, host-side rate in MT/s, whether it refreshes same-bank in fine granularity, tRFCsb and tRC in
ns, and whether hub and sensor answer on the sideband bus. -/
structure Spd where
  gib : BitVec 16
  mrdimm : Bool
  rate : BitVec 16
  refsb : Bool
  trfcsb : BitVec 16
  trc : BitVec 16
  sideband : Bool
  deriving DecidableEq, Repr


/-- A flit slot of one receive lane: the physical lane, and the RS(544,514) codewords, as they arrive, that its 2,048 message
bits lie in; at the first slot of a marker period the lane marker comes before them (R315). -/
structure LaneFlit where
  lane : Fin 4
  words : List (BitVec 5440)
  deriving DecidableEq, Repr

/-- What ends a tagged request (R495): its host and tag, and the nanoseconds into their beats at which stages 1 to 8 were stamped, five
bits each. -/
structure SampleEnd where
  host : BitVec 12
  tag : BitVec 15
  ns : BitVec 40
  deriving DecidableEq, Repr

/-- Roles of Table SEC-6. -/
inductive Role where
  | owner | operator | auditor | tenantAdmin
  deriving DecidableEq, Repr

/-- A credential of the configuration record (R484). -/
structure Cred where
  key : BitVec 512
  role : Role
  tenant : BitVec 8
  deriving DecidableEq, Repr

/-- A configuration record (R484); the settings are the firmware's. -/
structure CfgRecord where
  gen : BitVec 32
  owner : BitVec 512
  creds : List Cred
  settings : List Byte
  sig : List Byte
  deriving DecidableEq, Repr

/-- A minimum-version record (R480). -/
structure MinRecord where
  gen : BitVec 32
  minsvn : BitVec 32
  revoke : BitVec 4
  bind : BitVec 512
  sig : List Byte
  deriving DecidableEq, Repr

/-- A protected frame as it arrives on a session's connection: its type byte and its sealed body with the tag (R482,
R483). -/
structure Frame where
  ty : BitVec 8
  body : List Byte
  deriving DecidableEq, Repr

/-- What a command of a management session asks for (Table SEC-6): a read or write of a control-space word, a boot image
written to a slot, error logs and telemetry, the policer entry of a host, the counter page of a tenant, the configuration and
minimum-version records as they stand. -/
inductive SessOp where
  | read (csa : BitVec 32)
  | write (csa : BitVec 32) (value : BitVec 64)
  | bootImage (slotB : Bool) (image : List Byte)
  | logs
  | policer (host : BitVec 12)
  | counterPage (tenant : BitVec 8)
  | records
  deriving DecidableEq, Repr

/-- The commands of the T7, one per row of the table. -/
inductive Instr where
  | eventResolution
  | beatReplicaReload (island : Fin 100) (count : Word)
  | beatTreeFailure (island : Fin 100) (tree : Fin 2)
  | configWrite (csa : BitVec 32) (value : BitVec 64) (c : Cmd)
  | controlSpaceAccessError (csa : BitVec 32)
  | fstepTarget (target : BitVec 2) (c : Cmd)
  | fstepBegin
  | fstepResume
  | thermalStepDown
  | thermalCeilingLift
  | rgnActivate (region : BitVec 16) (c : Cmd)
  | rgnDeactivate (region : BitVec 16) (c : Cmd)
  | xltInv (space : BitVec 10) (all : Bool) (base : BitVec 32) (count : BitVec 16) (c : Cmd)
  | xltInvDone
  | ingress (p : Pkt)
  | frzRelease (host : BitVec 12) (c : Cmd)
  | frzEvict (host : BitVec 12) (c : Cmd)
  | frzFreeze (host : BitVec 12) (c : Cmd)
  | admWrite (index : BitVec 13) (c : Cmd)
  | admRead (index : BitVec 13) (c : Cmd)
  | faultRecordOpen (home : Fin 64)
  | faultPendingRetry (home : Fin 64)
  | faultTimeout (home : Fin 64) (index : BitVec 8)
  | fltDone (home : BitVec 6) (index : BitVec 8) (c : Cmd)
  | faultQueueEntry
  | streamPrefetch (i : BitVec 12) (tile : Fin 672) (stream : Fin 12) (page : BitVec 32)
  | rdShared (p : Pkt)
  | rdOwn (p : Pkt)
  | upgrade (p : Pkt)
  | rdCur (p : Pkt)
  | wrCur (p : Pkt)
  | wbM (p : Pkt)
  | evictClean (p : Pkt)
  | grantAck (p : Pkt)
  | rspI (p : Pkt)
  | rspIWb (p : Pkt)
  | rspS (p : Pkt)
  | rspSWb (p : Pkt)
  | rspFwd (p : Pkt)
  | rspAbsentEvict (p : Pkt)
  | fwdData (p : Pkt)
  | pendingQueueOffer (home : Fin 64)
  | requestAgePriority (home : Fin 64)
  | starveMark (home : Fin 64)
  | snoopTimeout (home : Fin 64) (entry : BitVec 10)
  | leaseExpiry (host : BitVec 12)
  | cohBinv (space : BitVec 10) (base : BitVec 32) (count : BitVec 16) (c : Cmd)
  | cohBinvDone
  | slotRevoke (slot : BitVec 8) (c : Cmd)
  | filterEccError (home : Fin 64) (slot : BitVec 8) (set : BitVec 6) (way : BitVec 3)
  | faddI (a : AtomSrc)
  | faddF32 (a : AtomSrc)
  | faddBf16 (a : AtomSrc)
  | cas (a : AtomSrc)
  | minS (a : AtomSrc)
  | maxS (a : AtomSrc)
  | minU (a : AtomSrc)
  | maxU (a : AtomSrc)
  | minF32 (a : AtomSrc)
  | maxF32 (a : AtomSrc)
  | vfaddF32 (a : AtomSrc)
  | vfaddI32 (a : AtomSrc)
  | publish (p : Pkt)
  | publishCommit (region : BitVec 16)
  | stageDiscard (p : Pkt)
  | snapPin (p : Pkt)
  | snapUnpin (p : Pkt)
  | pinTimeout (region : BitVec 16) (host : BitVec 12)
  | subscribe (p : Pkt)
  | unsubscribe (p : Pkt)
  | stagingCopyComplete (region : BitVec 16) (host : BitVec 12) (page : BitVec 32)
  | stamp (p : Pkt)
  | stampAck (p : Pkt)
  | mirrorOutOfStep
  | mirrorAlone
  | mirSyncGo (c : Cmd)
  | mirSyncComplete
  | mirSyncHandoff (c : Cmd)
  | planArm (k : Fin 32) (c : Cmd)
  | planTakeover (k : Fin 32)
  | refreshDue (k : Fin 32) (sub : Fin 2)
  | doubleModeChange (k : Fin 32) (temp : BitVec 8)
  | zqCalibration (k : Fin 32)
  | oscillatorUpdate (k : Fin 32) (margin : BitVec 8)
  | dramTrain (c : Cmd)
  | trainingDone (k : Fin 32) (pass : Bool) (serial : BitVec 32) (spd : Spd) (margin : BitVec 8)
  | dramServiceStart
  | retrain (k : Fin 32) (c : Cmd)
  | retrainDone (k : Fin 32) (pass : Bool) (margin : BitVec 8)
  | fenceSet (k : Fin 32) (c : Cmd)
  | fenceClear (k : Fin 32) (c : Cmd)
  | selfFence (k : Fin 32) (alert : Bool)
  | drainComplete (k : Fin 32)
  | modulePowerOff (k : Fin 32) (c : Cmd)
  | modulePowerOn (k : Fin 32) (c : Cmd)
  | rebuildComplete (k : Fin 32)
  | fillRequest (home : Fin 64) (index : BitVec 8)
  | promoteReadDone (space : BitVec 10) (page : BitVec 32) (bad : Bool)
  | promotionEnd (space : BitVec 10) (page : BitVec 32)
  | demotionStart (d : Fin 2) (zone : Fin 4)
  | demoteReadDone (space : BitVec 10) (page : BitVec 32)
  | demotionEnd (space : BitVec 10) (page : BitVec 32)
  | touch (home : Fin 64) (space : BitVec 10) (page : BitVec 32)
  | heatEpoch (d : Fin 2)
  | freePush (d : Fin 2) (frame : BitVec 32) (c : Cmd)
  | driveLinkUp (n : Fin 16) (link : DriveLink) (drive : DriveInfo)
  | driveCommandTimeout (n : Fin 16)
  | driveFatal (n : Fin 16) (warning : Bool)
  | rootPortLinkDown (n : Fin 16)
  | driveRetire (n : Fin 16) (c : Cmd)
  | driveRetired (n : Fin 16)
  | driveInboundRequest (n : Fin 16) (own : Bool)
  | nop (a : CoreAt)
  | add (a : CoreAt) (rd ra rb : BitVec 5)
  | sub (a : CoreAt) (rd ra rb : BitVec 5)
  | and (a : CoreAt) (rd ra rb : BitVec 5)
  | or (a : CoreAt) (rd ra rb : BitVec 5)
  | xor (a : CoreAt) (rd ra rb : BitVec 5)
  | shl (a : CoreAt) (rd ra rb : BitVec 5)
  | shr (a : CoreAt) (rd ra rb : BitVec 5)
  | sra (a : CoreAt) (rd ra rb : BitVec 5)
  | mul (a : CoreAt) (rd ra rb : BitVec 5)
  | slt (a : CoreAt) (rd ra rb : BitVec 5)
  | sltu (a : CoreAt) (rd ra rb : BitVec 5)
  | min (a : CoreAt) (rd ra rb : BitVec 5)
  | max (a : CoreAt) (rd ra rb : BitVec 5)
  | addi (a : CoreAt) (rd ra : BitVec 5) (imm : BitVec 8)
  | andi (a : CoreAt) (rd ra : BitVec 5) (imm : BitVec 8)
  | ori (a : CoreAt) (rd ra : BitVec 5) (imm : BitVec 8)
  | xori (a : CoreAt) (rd ra : BitVec 5) (imm : BitVec 8)
  | shli (a : CoreAt) (rd ra : BitVec 5) (imm : BitVec 8)
  | shri (a : CoreAt) (rd ra : BitVec 5) (imm : BitVec 8)
  | srai (a : CoreAt) (rd ra : BitVec 5) (imm : BitVec 8)
  | li (a : CoreAt) (rd : BitVec 5) (imm : BitVec 13)
  | lih (a : CoreAt) (rd : BitVec 5) (imm : BitVec 13)
  | beq (a : CoreAt) (ra rb : BitVec 5) (target : BitVec 8)
  | bne (a : CoreAt) (ra rb : BitVec 5) (target : BitVec 8)
  | blt (a : CoreAt) (ra rb : BitVec 5) (target : BitVec 8)
  | bge (a : CoreAt) (ra rb : BitVec 5) (target : BitVec 8)
  | jmp (a : CoreAt) (target : BitVec 8)
  | coreEnd (a : CoreAt)
  | rdsp (a : CoreAt) (rd sel : BitVec 5)
  | vld (a : CoreAt) (vr : BitVec 6) (ra : BitVec 5) (off : BitVec 12)
  | vst (a : CoreAt) (vr : BitVec 6) (ra : BitVec 5) (off : BitVec 12)
  | sld (a : CoreAt) (rd ra : BitVec 5) (off : BitVec 12)
  | sst (a : CoreAt) (rs ra : BitVec 5) (off : BitVec 12)
  | send (a : CoreAt) (ra : BitVec 5) (off : BitVec 12)
  | sende (a : CoreAt) (ra : BitVec 5) (off : BitVec 12)
  | dreq (a : CoreAt) (ra : BitVec 5) (off : BitVec 12)
  | dld (a : CoreAt) (vr : BitVec 6) (ra : BitVec 5) (cc : BitVec 4)
  | waitc (a : CoreAt) (cc : BitVec 4) (ra : BitVec 5)
  | rdc (a : CoreAt) (cc : BitVec 4) (ra : BitVec 5)
  | clrc (a : CoreAt) (cc : BitVec 4) (ra : BitVec 5)
  | vfma (a : CoreAt) (vd va vb : BitVec 6) (rm : BitVec 3)
  | vfmaH (a : CoreAt) (vd va vb : BitVec 6) (fa fb : BitVec 4) (h : Bool) (rm : BitVec 3)
  | vdot8 (a : CoreAt) (vd va vb : BitVec 6) (fa fb : BitVec 4) (h : Bool) (rm : BitVec 3) (acc : BitVec 2) (toa : Bool) (rsp : BitVec 4)
  | vdot4 (a : CoreAt) (vd va vb : BitVec 6) (fa fb : BitVec 4) (h : Bool) (rm : BitVec 3) (acc : BitVec 2) (toa : Bool) (rsp : BitVec 4)
  | vadd (a : CoreAt) (vd va vb : BitVec 6) (rm : BitVec 3)
  | vsub (a : CoreAt) (vd va vb : BitVec 6) (rm : BitVec 3)
  | vmul (a : CoreAt) (vd va vb : BitVec 6) (rm : BitVec 3)
  | vmax (a : CoreAt) (vd va vb : BitVec 6)
  | vmin (a : CoreAt) (vd va vb : BitVec 6)
  | vcmp (a : CoreAt) (vd va vb : BitVec 6) (cond : BitVec 4)
  | vred (a : CoreAt) (vd va : BitVec 6)
  | accz (a : CoreAt) (acc : BitVec 2) (ra : BitVec 5)
  | acci (a : CoreAt) (acc : BitVec 2) (va : BitVec 6) (lane : BitVec 3)
  | vmov (a : CoreAt) (vd va : BitVec 6)
  | vbc (a : CoreAt) (vd : BitVec 6) (ra : BitVec 5)
  | exp (a : CoreAt) (vd va : BitVec 6)
  | exp2 (a : CoreAt) (vd va : BitVec 6)
  | log (a : CoreAt) (vd va : BitVec 6)
  | log2 (a : CoreAt) (vd va : BitVec 6)
  | rcp (a : CoreAt) (vd va : BitVec 6)
  | rsqrt (a : CoreAt) (vd va : BitVec 6)
  | lsem (a : CoreAt) (vd va : BitVec 6)
  | cvt (a : CoreAt) (vd va : BitVec 6) (fmt : BitVec 4) (rm : BitVec 3) (satf adv : Bool) (part : BitVec 3) (srp : BitVec 2)
  | cvtw (a : CoreAt) (vd va : BitVec 6) (fmt : BitVec 4) (part : BitVec 3)
  | xst (a : CoreAt) (ra : BitVec 5) (va : BitVec 6) (fmt : BitVec 4) (rm : BitVec 3) (satf adv : Bool) (srp : BitVec 2)
  | unpk6 (a : CoreAt) (vd va : BitVec 6) (fmt : BitVec 4)
  | pack6 (a : CoreAt) (vd va : BitVec 6) (fmt : BitVec 4)
  | mxenc (a : CoreAt) (vd va : BitVec 6) (fmt : BitVec 4) (rm : BitVec 3) (adv : Bool) (srp : BitVec 2)
  | accx (a : CoreAt) (vd : BitVec 6) (acc : BitVec 2) (lane : BitVec 3)
  | acc2f (a : CoreAt) (vd : BitVec 6) (acc : BitVec 2) (rm : BitVec 3) (satf : Bool)
  | acc2i (a : CoreAt) (vd : BitVec 6) (acc : BitVec 2) (rm : BitVec 3) (satf : Bool)
  | rd (m : MPkt)
  | rdv (m : MPkt)
  | wr (m : MPkt)
  | walk (m : MPkt)
  | msg (m : MPkt)
  | desc (m : MPkt)
  | load (m : MPkt)
  | result (m : MPkt)
  | done (m : MPkt)
  | dynamicResponse (m : MPkt)
  | meshPlanTakeover
  | tileFault (tile : Fin 672) (cause : Fin 6)
  | tileRetire (tile : Fin 672) (c : Cmd)
  | spareLoadComplete (tile : Fin 672)
  | spareTakeover (tile : Fin 672)
  | tileReturn (tile : Fin 672) (c : Cmd)
  | tileSelfTestDone (tile : Fin 672) (pass : Bool)
  | spareSelfTest (tile : Fin 672)
  | gateBar (i : BitVec 12)
  | phaseEnd (i : BitVec 12)
  | patternLoad (strip : BitVec 3) (c : Cmd)
  | patternUnload (place : BitVec 8) (c : Cmd)
  | unloadComplete (place : BitVec 8)
  | invoke (p : Pkt)
  | cancel (p : Pkt)
  | jobKill (tenant : BitVec 8) (job : BitVec 16) (c : Cmd)
  | gatherReduce
  | scatterAccumulate
  | prefixAttend
  | kvAppend
  | copy
  | fill
  | checksum
  | imageOperator (opid : BitVec 16)
  | instanceComplete (i : BitVec 12)
  | opdoneSend (i : BitVec 12)
  | laneLoss (port : Fin 64) (lanes : BitVec 4) (skew : Bool)
  | laneRejoin (port : Fin 64) (lane : Fin 4)
  | allLanesLost (port : Fin 64)
  | flitReceive (port : Fin 64) (fs : List LaneFlit)
  | rollTimeout (port : Fin 64)
  | noGoodFlit (port : Fin 64)
  | laserFault (g : Fin 8) (present aok bok : Bool)
  | laserSwap (g : Fin 8) (c : Cmd)
  | widthChangeStart (port : Fin 64) (mask : BitVec 4) (c : Cmd)
  | autoWiden (port : Fin 64)
  | wreqTimeout (port : Fin 64)
  | wreq (port : Fin 64) (token : BitVec 8) (mask : BitVec 4) (locked : Bool)
  | wack (port : Fin 64) (token : BitVec 8) (locked : Bool)
  | wgo (port : Fin 64) (token : BitVec 8) (mask : BitVec 4)
  | rtreq (port : Fin 64) (token : BitVec 8) (cause : BitVec 4)
  | rtack (port : Fin 64) (token : BitVec 8)
  | withdraw (port : Fin 64) (token : BitVec 8)
  | ldown (port : Fin 64) (lost : BitVec 4)
  | resume (port : Fin 64) (ackseq : BitVec 14)
  | creditInit (port : Fin 64) (credits : BitVec 96)
  | disable (port : Fin 64)
  | linkRetrain (port : Fin 64) (c : Cmd)
  | csymRetrain (port : Fin 64) (lane : Fin 4) (count : BitVec 32)
  | linkDisable (port : Fin 64) (c : Cmd)
  | linkEnable (port : Fin 64) (c : Cmd)
  | trainingStart (port : Fin 64)
  | trainingComplete (port : Fin 64) (id : BitVec 64) (resumable : Bool) (lanes : BitVec 4) (rtt : BitVec 32) (full half : Bool)
  | trainingTimeout (port : Fin 64) (failed skew : Bool)
  | retrainTimeout (port : Fin 64)
  | graceExpiry (port : Fin 64)
  | leaseOpen (p : Pkt)
  | heartbeat (p : Pkt)
  | leaseClose (p : Pkt)
  | knell (p : Pkt)
  | peerResponse (p : Pkt)
  | hostPin (host : BitVec 12) (port : Fin 64) (c : Cmd)
  | hostUnpin (host : BitVec 12) (c : Cmd)
  | refillTick
  | congestionMark (host : BitVec 12)
  | slowdownDecay (host : BitVec 12)
  | polWrite (host : BitVec 12) (c : Cmd)
  | polRead (host : BitVec 12) (c : Cmd)
  | polWriteFill (host : BitVec 12) (c : Cmd)
  | shapeWrite (port : Fin 64) (en : Bool) (rate : BitVec 20) (burst : BitVec 24) (c : Cmd)
  | gateArm (port : Fin 64) (c : Cmd)
  | gateTakeover (port : Fin 64)
  | dchReadReturn (dpa : BitVec 48) (src : Fin 6) (home : Fin 64) (nd : Line) (nc : BitVec 256) (again : Bool)
  | reconstruction (dpa : BitVec 48) (home : Fin 64)
  | parityDelta (half : BitVec 37) (j : Fin 4) (delta : Line) (home : Fin 64)
  | recompute (die : Fin 2) (home : Fin 64)
  | brushWalkRead (k : Fin 32) (sub : Fin 2)
  | brushCorrection (dpa : BitVec 48) (home : Fin 64)
  | zeroFrame (d : Fin 2) (frame : BitVec 32) (c : Cmd)
  | zeroComplete
  | homeSliceFault (home : Fin 64)
  | havlFail (home : Fin 64) (c : Cmd)
  | havlReturn (home : Fin 64) (c : Cmd)
  | homeSelfTestDone (home : Fin 64) (pass : Bool)
  | homeHandback (home : Fin 64)
  | fatalError (blk : Fin 863)
  | pairMismatch (a b : List Byte)
  | claimGrant (cp : Fin 3) (agree : Bool)
  | takeover (ok : BitVec 2)
  | checkpoint
  | cuppingCycle (cp : Fin 3) (fails : BitVec 4)
  | rotate (c : Cmd)
  | stbyReload (c : Cmd)
  | pairReload (c : Cmd)
  | reloadSelfTestDone (cp : Fin 3) (pass : Bool)
  | wdogKick (c : Cmd)
  | wdogExpiry
  | powerOnReset (v : BitVec 256)
  | coldResetPin (v : BitVec 256)
  | warm (c : Cmd)
  | restart (c : Cmd)
  | autoRestart
  | resetEnd
  | stageAdvance (islands : List (Fin 100)) (tiles : List (Fin 672))
  | bootOk (c : Cmd)
  | bootConfirmExpiry
  | readState (conn : BitVec 16) (f : Frame)
  | writeImage (conn : BitVec 16) (f : Frame) (slotB : Bool) (img : List Byte)
  | writeRecord (conn : BitVec 16) (f : Frame) (r : Sum CfgRecord MinRecord)
  | attest (conn : BitVec 16) (f : Frame) (nonce : BitVec 256)
  | reboot (conn : BitVec 16) (f : Frame) (slotB : Bool)
  | blockReset (target : BitVec 10) (c : Cmd)
  | blockResetEnter
  | blockResetEnd
  | phaseHang (i : BitVec 12)
  | gateHang (i : BitVec 12)
  | waitHang (i : BitVec 12)
  | homeTransactionHang (home : Fin 64) (entry : BitVec 10)
  | linkHang (port : Fin 64)
  | hungLinkReenable (port : Fin 64)
  | dumpCaptureComplete (tenant : BitVec 8) (job : BitVec 16)
  | dumpFree (c : Cmd)
  | tenActivate (t : BitVec 8) (c : Cmd)
  | tenTeardown (t : BitVec 8) (c : Cmd)
  | teardownComplete (t : BitVec 8)
  | tileScrub (tile : Fin 672)
  | partitionEnable (c : Cmd)
  | hello (conn : BitVec 16) (src : BitVec 128) (body : List Byte)
  | auth (conn : BitVec 16) (f : Frame) (cred : Cred) (sig : List Byte)
  | sessionCommand (conn : BitVec 16) (f : Frame) (op : SessOp)
  | sessionIdleTimeout (conn : BitVec 16)
  | installRecord (conn : BitVec 16) (f : Frame) (r : CfgRecord)
  | installMinver (conn : BitVec 16) (f : Frame) (r : MinRecord)
  | endorsementSigned
  | attestationRequest (conn : BitVec 16) (f : Frame) (nonce : BitVec 256) (scope : Option (BitVec 8))
  | measureMark (region : BitVec 16) (c : Cmd)
  | measureUnmark (region : BitVec 16) (c : Cmd)
  | measureAgain (region : BitVec 16) (c : Cmd)
  | measurementDone
  | counterOverflow (blk : Fin 863) (m : Fin 16) (n : BitVec 48)
  | counterFreeze
  | tpageUpdate (tenant : BitVec 8)
  | sampleRecord (d : Fin 2) (r : SampleEnd)
  | railFault (rail : Fin 6)
  | rideThroughExpiry (rail : Fin 6)
  | avsbusFrame (valid : Bool) (alert : Bool) (mv : BitVec 16) (amps : BitVec 16)
  | vcoreAdjust (up : Bool) (mv : BitVec 3)
  | voltageConfirm (mv : BitVec 16)
  | raiseAbandon
  | currentCeiling (mean1ms : BitVec 12) (mean10us : BitVec 12) (mean10ms : BitVec 12)
  | referenceClockLost (ref : Fin 2)
  | thermalThreshold (temps : BitVec 360)
  | thermalTrip (temps : BitVec 360)
  | i3cPrivateRead (offset : BitVec 8) (n : BitVec 8)
  | dramPosition (k : Fin 32) (sub : Fin 2) (heads : List OpenHead)
  | meshBarBoundary
  | railReturn (rail : Fin 6)
  | coldResetRail (v : BitVec 256)
  | vaonLoss
  | thermtripRelease (temps : BitVec 360)
  deriving DecidableEq, Repr

end Sys2Proof
end

