-- ==== Sys2Proof/Decode.lean ====
section
/-! DEFINITION. The command that a word spells by the bits of the table. The table gives none of its rows bits: commands reach
the T7 as packets, control-space writes and events, never as words. -/

namespace Sys2Proof

/-- No word spells a command, since no row of the table has bits. -/
def decodeTableWord (_nbits _w : Nat) : Option Instr := none

end Sys2Proof
end

