-- ==== Sys2Proof/Config.lean ====
section
/-! DEFINITION. What the spec leaves to an implementation: opaque constants without a body, so that no proof can
rest on a value of them.  Each is named in an assumption log entry. -/

namespace Sys2Proof.Config

/-- Where the result of EXP, EXP2, LOG, LOG2, RCP or RSQRT (function code 1 to 6) lies outside the exact and special cases of Table
ARI-6: at the exact result rounded to FP32, one unit above it, or one below.  R265 fixes that error bound and that the bits are a
function of the input, not the bits. -/
opaque specialUlp : Nat → BitVec 32 → Fin 3

/-- The same for LSEM (R265, R266), by `m` and `d`. -/
opaque lsemUlp : BitVec 32 → BitVec 32 → Fin 3

/-- Cycles of a block's clock in a beat, where the clock comes from the spread reference or its rate is not stated (R15, R490). -/
opaque clockCycles : Nat → Nat → Nat

/-- Value bits of a poisoned result lane, which R257 leaves undefined; the counter makes each a fresh value. -/
opaque poisonedLane : Nat → BitVec 32

/-- E8M0 byte that a conversion to FMT 0xB gives an FP32 word (no rule of R253 to R255 covers that destination), by the
free-value counter. -/
opaque toE8M0 : Nat → BitVec 32 → BitVec 8

/-- Value bits that a load of an uncorrectable or a dropped scratchpad word delivers (R185, R186), by the same counter. -/
opaque droppedLoad : Nat → BitVec 256

/-- Data bits of a line that is delivered poisoned because no channel holds it (R149, R219, R401), by the same counter. -/
opaque poisonedLine : Nat → BitVec 1024

/-- The order in which PREFIX-ATTEND accumulates a dot product in FP32 lanes (R297 step 2), fixed by the image. -/
opaque attendDot : List (BitVec 32) → List (BitVec 32) → BitVec 32

/-- The order in which PREFIX-ATTEND sums FP32 terms of a chunk (R297 steps 3 and 4), fixed by the image. -/
opaque attendSum : List (BitVec 32) → BitVec 32

/-- The FP32 score that PREFIX-ATTEND makes of SCALE, KSC and a dot product (R297 step 2), whose rounding steps the spec
does not give. -/
opaque attendScore : BitVec 32 → BitVec 32 → BitVec 32 → BitVec 32

/-- The FP32 element that PREFIX-ATTEND makes of VSC, the weighted sum and the sum of weights (R297 step 4), whose division
and rounding steps the spec does not give. -/
opaque attendOut : BitVec 32 → BitVec 32 → BitVec 32 → BitVec 32

/-- R256 flags that the arithmetic of R297 steps 1 to 4 raises for one query and its scores; the image fixes its steps. -/
opaque attendFlags : List (BitVec 32) → List (BitVec 32) → BitVec 6

/-- Tokens in one chunk of PREFIX-ATTEND (R297 step 3), fixed by the image with this digest; at least 1 is used. -/
opaque attendChunk : BitVec 512 → Nat

/-- The number of rounds into which the image with this digest divides a descriptor's work (R281). -/
opaque imageRounds : BitVec 512 → BitVec 2048 → Nat

/-- One entry of an image's MESHPLAN section: strip-local row, column, output port, cycle, entry word of Table TIL-2
with the local group.  Table PAT-6 names the parts of an entry and gives no byte layout. -/
opaque meshPlanOf : List Byte → List (Nat × Nat × Nat × Nat × Nat)

/-- The entries of an image's LANDING section: strip-local site, entry number, release bar offset, release cycle. -/
opaque landingOf : List Byte → List (Nat × Nat × Nat × Nat)

/-- The landing entry that the landing schedule of the image with this digest gives a flit which crosses into a tile:
tile, input port, cycle of the bar (R189 gives the entry to the schedule, no layout says how). -/
opaque landingSlot : BitVec 512 → Nat → Nat → Nat → Nat

/-- CODE, MESHPLAN and LANDING entries of a SPAREFORMS section for a spare (0 to 3) and a site: code bytes, plan
entries as `meshPlanOf`, landing entries as `landingOf`. -/
opaque spareForm : List Byte → Nat → Nat → List Byte × List (Nat × Nat × Nat × Nat × Nat) × List (Nat × Nat × Nat × Nat)

/-- The bank ports of an image's PORTMAP section: strip-local site, port (bank × 2 + write), cycle of the bar. -/
opaque portMapOf : List Byte → List (Nat × Nat × Nat)

/-- The DRAM demand of an image's DEMAND section: bank set, direction (1 write) and positions. -/
opaque dramDemandOf : List Byte → List (Nat × Nat × Nat)

/-- The home-port demand of an image's DEMAND section: reads and writes per home bar. -/
opaque homeDemandOf : List Byte → Nat × Nat

/-- Whether a slot-written stream of the DEMAND section requires COHERENT mode (check 12 of Table PAT-8). -/
opaque demandCoherent : List Byte → Bool

/-- Whether the DEMAND section of an image permits a written stream in a region of a mode (Table OPS-7). -/
opaque demandAllows : List Byte → Nat → Nat → Bool

/-- Whether the DEMAND section of an image permits its operator to reach peer pages (R308). -/
opaque demandPeer : List Byte → Bool

/-- The scratchpad bytes of an image's PRELOAD section: strip-local site, address and byte. -/
opaque preloadOf : List Byte → List (Nat × Nat × Byte)

/-- Whether the SPAREFORMS section meets check 13, the gate trees check 14 and the schedule check 15 of Table PAT-8,
in that order: whole-image properties of sections whose byte layout the spec does not give. -/
opaque spareFormsOk : List Byte → Bool
opaque gateTreesOk : List Byte → Bool
opaque timingOk : List Byte → Bool

/-- The scratchpad address at which a router's local output writes a pattern flit (R223 gives the cycle only):
tile, cycle of the bar. -/
opaque localOutputAddr : Nat → Nat → BitVec 20

/-- The device secret reconstructed from the PUF (R477). -/
opaque pufSecret : BitVec 256

/-- SLH-DSA key generation (FIPS 205) from the 96-byte seed string: the 64-byte public key; the first argument tells
SHAKE-256f from SHAKE-256s. -/
opaque slhPublic : Bool → BitVec 768 → BitVec 512

/-- SLH-DSA deterministic signing: parameter set, seed string, context string, message. -/
opaque slhSign : Bool → BitVec 768 → List Byte → List Byte → List Byte

/-- SLH-DSA verification: parameter set, public key, context string, message, signature. -/
opaque slhVerify : Bool → BitVec 512 → List Byte → List Byte → List Byte → Bool

/-- ML-KEM-1024 encapsulation (FIPS 203): encapsulation key and the T7's randomness to ciphertext and shared secret. -/
opaque mlkemEncaps : List Byte → Nat → List Byte × BitVec 256

/-- Fresh random bytes of SEC (the nonce ND of Table SEC-5), by the free-value counter. -/
opaque secRandom : Nat → BitVec 256

/-- AES-256-GCM opening of a protected frame (R483): key, nonce, associated data, sealed bytes. -/
opaque gcmOpen : BitVec 256 → BitVec 96 → List Byte → List Byte → Option (List Byte)

/-- AES-256-GCM sealing (R483): key, nonce, associated data, plain bytes. -/
opaque gcmSeal : BitVec 256 → BitVec 96 → List Byte → List Byte → List Byte

/-- The tile-state page of a dump record, whose layout the spec does not give (Table RST-7): completion counters, poisoned
scratchpad words, ARI_FLAGS. -/
opaque dumpTilePage : List Nat → List Nat → Nat → List Byte

/-- Bytes of a frame whose layout the spec does not give (R482): READY and the answers; a code and its operands. -/
opaque mgtPlain : Nat → List Nat → List Byte

/-- Bytes of a configuration record that its signature covers (R484): GEN, owner key, credentials (key, role code, tenant),
settings. -/
opaque cfgBytes : Nat → BitVec 512 → List (BitVec 512 × Nat × Nat) → List Byte → List Byte

/-- Bytes of a minimum-version record that its signature covers (R480): GEN, MINSVN, REVOKE, BIND. -/
opaque minverBytes : Nat → Nat → Nat → BitVec 512 → List Byte

/-- Public keys of Aedinsil in the boot ROM (R479), by KEYIDX. -/
opaque romKey : Nat → BitVec 512

/-- Digest of the boot ROM (Table SEC-8, ROM_DIG). -/
opaque romDigest : BitVec 512

/-- The IDK certificate kept in the identity area (Table SEC-4). -/
opaque idkCertificate : List Byte

/-- Package power in W as the I3C target reports it (Table PKG-7), a reading, by the free-value counter. -/
opaque packagePower : Nat → BitVec 16

/-- The firmware state a checkpoint records (R436), by the free-value counter. -/
opaque checkpointDigest : Nat → BitVec 512

/-- VERSION of an RspPub that Table MOD-4 states none for: RETAINED_FULL, PIN_FULL, SUB_FULL (log entry 113). -/
opaque refusedVersion : Nat → BitVec 64

end Sys2Proof.Config
end

