-- ==== Sys2Proof/Machine/Bits.lean ====
section
/-! DEFINITION. Bit-field, byte-order and small list helpers. -/

namespace Sys2Proof.Machine

/-- Bits `[hi:lo]` of a number. -/
def bits (w hi lo : Nat) : Nat := (w >>> lo) % 2 ^ (hi - lo + 1)

/-- One bit of a number, as 0 or 1. -/
def bit (w i : Nat) : Nat := bits w i i

/-- Is bit `i` of `w` one? -/
def tst (w i : Nat) : Bool := bit w i == 1

/-- `w` with bits `[hi:lo]` replaced by the low bits of `v`. -/
def setBits (w hi lo v : Nat) : Nat :=
  let m := 2 ^ (hi - lo + 1)
  w - bits w hi lo * 2 ^ lo + v % m * 2 ^ lo

/-- The number of bits set among the low `n` of `w`. -/
def popcount (w : Nat) : Nat → Nat
  | 0 => 0
  | n + 1 => bit w n + popcount w n

/-- Numbers `0 .. n - 1` that satisfy `p`, rising. -/
def findAll (n : Nat) (p : Nat → Bool) : List Nat := (List.range n).filter p

/-- The lowest number below `n` that satisfies `p`. -/
def findLow (n : Nat) (p : Nat → Bool) : Option Nat := (List.range n).find? p

/-- Saturating increment of a field of `w` bits. -/
def satInc (v w : Nat) : Nat := min (v + 1) (2 ^ w - 1)

/-- Saturating addition into a field of `w` bits. -/
def satAdd (v n w : Nat) : Nat := min (v + n) (2 ^ w - 1)

/-- `v` clamped into `[lo, hi]` (R8). -/
def clamp (lo hi v : Nat) : Nat := if v < lo then lo else if hi < v then hi else v

/-- Sign extension of the low `w` bits of `v`, as an integer. -/
def sext (w v : Nat) : Int :=
  let x := v % 2 ^ w
  if x < 2 ^ (w - 1) then (x : Int) else (x : Int) - (2 ^ w : Nat)

/-- The residue of an integer modulo `2 ^ w`, as a natural number: two's complement. -/
def wrapInt (w : Nat) (v : Int) : Nat := (v % ((2 ^ w : Nat) : Int)).toNat

/-- Ceiling division. -/
def ceilDiv (a b : Nat) : Nat := (a + b - 1) / b

/-- Little-endian number of a list of bytes. -/
def leNat : List Byte → Nat
  | [] => 0
  | b :: t => b.toNat + 256 * leNat t

/-- `n` little-endian bytes of a number. -/
def natLe : Nat → Nat → List Byte
  | 0, _ => []
  | n + 1, v => BitVec.ofNat 8 v :: natLe n (v / 256)

/-- Bytes `lo ..` of a list, `n` of them, zero beyond its end. -/
def sliceZ (l : List Byte) (lo n : Nat) : List Byte :=
  (List.range n).map fun i => (l.drop (lo + i)).headD 0#8

/-- A byte list cut or zero-filled to `n` bytes. -/
def padTo (n : Nat) (l : List Byte) : List Byte := sliceZ l 0 n

/-- Remove duplicates, keeping the first of each. -/
def dedup {α : Type} [DecidableEq α] : List α → List α
  | [] => []
  | a :: t => a :: (dedup t).filter (fun b => decide (b ≠ a))

/-- Insert into a list kept rising by a key; equal keys keep their order. -/
def insertBy {α : Type} (key : α → Nat) (a : α) : List α → List α
  | [] => [a]
  | b :: t => if key a < key b then a :: b :: t else b :: insertBy key a t

/-- Stable sort by a key. -/
def sortBy {α : Type} (key : α → Nat) (l : List α) : List α := l.foldl (fun acc a => insertBy key a acc) []

/-- The element with the least key, the first among equals. -/
def minBy? {α : Type} (key : α → Nat) : List α → Option α
  | [] => none
  | a :: t => match minBy? key t with
    | none => some a
    | some b => if key b < key a then some b else some a

/-- Replace the `i`-th element. -/
def setAt {α : Type} (l : List α) (i : Nat) (a : α) : List α := l.set i a

end Sys2Proof.Machine
end

