-- ==== Sys2Proof/Machine/Exact.lean ====
section
/-! DEFINITION. The values of the special functions of Table ARI-6 in fixed point, far finer than FP32: the exact results against
which R265 states its errors. -/

namespace Sys2Proof.Machine

/-- Fraction bits of the fixed point, and the number one. -/
def fxBits : Nat := 320
def fxOne : Int := 2 ^ fxBits

/-- Terms of z + z³/3 + z⁵/5 + …, from the `k`-th with power `p` = z^(2k+1) on. -/
def atanhTerms (z2 p : Int) (k : Nat) : Nat → Int
  | 0 => 0
  | n + 1 => p / (2 * k + 1) + atanhTerms z2 (p * z2 / fxOne) (k + 1) n

/-- Inverse hyperbolic tangent of a number of magnitude at most one third. -/
def fxAtanh (z : Int) : Int := atanhTerms (z * z / fxOne) z 0 110

/-- The natural logarithm of two. -/
def fxLn2 : Int := 2 * fxAtanh (fxOne / 3)

/-- The natural logarithm of 1 + x, x from 0 to 1. -/
def fxLog1p (x : Int) : Int := 2 * fxAtanh (x * fxOne / (2 * fxOne + x))

/-- The natural logarithm of m · 2^e, m not zero. -/
def fxLog (m : Nat) (e : Int) : Int :=
  let l := Nat.log2 m
  ((l : Int) + e) * fxLn2 + fxLog1p ((m : Int) * 2 ^ (fxBits - l) - fxOne)

/-- Terms of the exponential series from term `t`, the `k`-th, on. -/
def expTerms (x t : Int) (k : Nat) : Nat → Int
  | 0 => 0
  | n + 1 => t + expTerms x (t * x / fxOne / (k + 1)) (k + 1) n

/-- e^x as a number from 1 to 2 and the power of two by which it is multiplied. -/
def fxExp (x : Int) : Int × Int :=
  let k := x / fxLn2
  (expTerms (x - k * fxLn2) fxOne 0 70, k)

/-- Integer square root, by bits from `2^n` down. -/
def isqrtFrom (v r : Nat) : Nat → Nat
  | 0 => if (r + 1) * (r + 1) ≤ v then r + 1 else r
  | n + 1 =>
    let c := r + 2 ^ (n + 1)
    isqrtFrom v (if c * c ≤ v then c else r) n
def isqrt (v : Nat) : Nat := isqrtFrom v 0 (Nat.log2 v / 2 + 1)

/-- m · 2^e in fixed point. -/
def fxOf (neg : Bool) (m : Nat) (e : Int) : Int :=
  let s := e + fxBits
  let v : Int := if 0 ≤ s then (m : Int) * 2 ^ s.toNat else (m : Int) / 2 ^ (-s).toNat
  if neg then -v else v

end Sys2Proof.Machine
end

