-- ==== Sys2Proof/Machine/Flags.lean ====
section
/-! DEFINITION. The sticky flags of a core (R256): their bits, in the order of TILE.ARI_FLAGS (R268). -/

namespace Sys2Proof.Machine

/-- Sticky flags of R256 as bits of a number. -/
def fIV : Nat := 1
def fDZ : Nat := 2
def fOF : Nat := 4
def fUF : Nat := 8
def fNX : Nat := 16
def fSAT : Nat := 32

end Sys2Proof.Machine
end

