-- ==== Sys2Proof/Machine/Float.lean ====
section
/-! DEFINITION. Number formats and exact arithmetic on them: decoding, rounding, saturation, flags, stochastic
rounding, MX blocks, the exact accumulator and the special functions (R247 to R266). -/

namespace Sys2Proof.Machine

/-- A number as a format holds it: NaN (signalling or not), an infinity, or sign, magnitude `m · 2^e`. -/
inductive FV where
  | nan (sig : Bool)
  | inf (neg : Bool)
  | fin (neg : Bool) (m : Nat) (e : Int)
  deriving DecidableEq, Repr

/-- Rounding modes of Table ARI-3; `sr r` carries the random number of R258. -/
inductive RMode where
  | rne | rz | rd | ru
  | sr (r : Nat)
  deriving DecidableEq, Repr

/-- A float format of Table ARI-1: exponent and mantissa bits, bias, and whether it has infinities. -/
structure FFmt where
  eb : Nat
  mb : Nat
  bias : Nat
  infs : Bool
  deriving DecidableEq, Repr

/-- Float formats by FMT code 0x0 to 0x7. -/
def ffmt : Nat → FFmt
  | 0 => ⟨8, 23, 127, true⟩ | 1 => ⟨5, 10, 15, true⟩ | 2 => ⟨8, 7, 127, true⟩ | 3 => ⟨4, 3, 7, false⟩
  | 4 => ⟨5, 2, 15, true⟩ | 5 => ⟨3, 2, 3, false⟩ | 6 => ⟨2, 3, 1, false⟩ | _ => ⟨2, 1, 1, false⟩

/-- Bits of an element of a format (R247). -/
def fmtBits : Nat → Nat
  | 0 => 32 | 1 => 16 | 2 => 16 | 3 => 8 | 4 => 8 | 5 => 6 | 6 => 6 | 7 => 4 | 8 => 8 | 9 => 4 | _ => 8

/-- Bits of the register container of an element (R248). -/
def boxBits (f : Nat) : Nat := if fmtBits f = 6 then 8 else fmtBits f

/-- Decode an element of a format. -/
def decodeF (f w : Nat) : FV :=
  if f < 8 then
    let x := ffmt f
    let neg := tst w (x.eb + x.mb)
    let ex := bits w (x.eb + x.mb - 1) x.mb
    let mant := w % 2 ^ x.mb
    if x.infs && ex = 2 ^ x.eb - 1 then
      if mant = 0 then .inf neg else .nan (mant < 2 ^ (x.mb - 1))
    else if f = 3 && ex = 15 && mant = 7 then .nan false
    else if ex = 0 then .fin neg mant (1 - (x.bias : Int) - x.mb)
    else .fin neg (mant + 2 ^ x.mb) ((ex : Int) - x.bias - x.mb)
  else if f = 0xB then (if w % 256 = 255 then .nan false else .fin false 1 ((w % 256 : Nat) - 127))
  else
    let v := sext (fmtBits f) w
    .fin (v < 0) v.natAbs (if f = 0xA then -6 else 0)

/-- Canonical NaN of a format (R254). -/
def nanOf : Nat → Nat
  | 0 => 0x7FC00000 | 1 => 0x7E00 | 2 => 0x7FC0 | 3 => 0x7F | 4 => 0x7E | _ => 0

/-- Largest finite magnitude encoding of a float format, without sign. -/
def maxOf (f : Nat) : Nat :=
  let x := ffmt f
  if x.infs then 2 ^ (x.eb + x.mb) - 1 - 2 ^ x.mb else if f = 3 then 0x7E else 2 ^ (x.eb + x.mb) - 1

/-- Shift a magnitude to the grid `2^q`: integer part, whether bits were discarded, whether the discarded part is at
least and exactly a half, and its first 32 bits. -/
def toGrid (m : Nat) (e q : Int) : Nat × Bool × Bool × Bool × Nat :=
  if q ≤ e then (m * 2 ^ (e - q).toNat, false, false, false, 0)
  else
    let d := (q - e).toNat
    let r := m % 2 ^ d
    (m / 2 ^ d, r ≠ 0, 2 ^ d ≤ 2 * r, 2 * r = 2 ^ d, r * 2 ^ 32 / 2 ^ d)

/-- Round a magnitude to a multiple of `2^q` (R253, R258): the multiple and whether it is inexact. -/
def roundGrid (rm : RMode) (neg : Bool) (m : Nat) (e q : Int) : Nat × Bool :=
  let (t, inexact, ge, tie, f) := toGrid m e q
  let up := match rm with
    | .rne => ge && (!tie || t % 2 = 1)
    | .rz => false
    | .rd => inexact && neg
    | .ru => inexact && !neg
    | .sr r => decide (r < f)
  (if up then t + 1 else t, inexact)

/-- Exponent of the leading bit of a magnitude. -/
def topExp (m : Nat) (e : Int) : Int := (Nat.log2 m : Int) + e

/-- Overflow result without saturation (R255). -/
def overflowBits (f : Nat) (rm : RMode) (neg : Bool) : Nat :=
  let toInf := match rm with
    | .rne => true | .rz => false | .rd => neg | .ru => !neg | .sr _ => true
  let x := ffmt f
  if toInf then (if x.infs then 2 ^ (x.eb + x.mb) - 2 ^ x.mb else nanOf f) else maxOf f

/-- Round an exact number to a format: the element's bits and the flags (R253 to R255). -/
def encodeF (f : Nat) (rm : RMode) (satf : Bool) (v : FV) : Nat × Nat :=
  if f < 8 then
    let x := ffmt f
    let sg (neg : Bool) (b : Nat) : Nat := if neg then b + 2 ^ (x.eb + x.mb) else b
    let noSpecial := 5 ≤ f
    match v with
    | .nan sig => if noSpecial then (0, fIV) else (nanOf f, if sig then fIV else 0)
    | .inf neg =>
      if noSpecial || satf then (sg neg (maxOf f), fSAT)
      else if x.infs then (sg neg (2 ^ (x.eb + x.mb) - 2 ^ x.mb), 0) else (nanOf f, 0)
    | .fin neg m e =>
      if m = 0 then (sg neg 0, 0)
      else
        let emin : Int := 1 - (x.bias : Int)
        let top := topExp m e
        let q := max top emin - x.mb
        let (k, inexact) := roundGrid rm neg m e q
        let (ku, _) := roundGrid rm neg m e (top - x.mb)
        let tiny := topExp ku (top - x.mb) < emin || ku = 0
        let nx := if inexact then fNX else 0
        -- encoding of k · 2^q without sign, as if the exponent had no bound
        let enc : Int := if k < 2 ^ x.mb then (k : Int) else
          let carry := if k = 2 ^ (x.mb + 1) then 1 else 0
          (q + x.mb + carry + x.bias) * 2 ^ x.mb + (if k = 2 ^ (x.mb + 1) then 0 else (k : Int) - 2 ^ x.mb)
        if (maxOf f : Int) < enc then
          if noSpecial || satf then (sg neg (maxOf f), nx ||| fSAT)
          else
            let b := overflowBits f rm neg
            (if !x.infs && b = nanOf f then b else sg neg b, fOF ||| fNX)
        else (sg neg enc.toNat, nx ||| (if inexact && tiny then fUF else 0))
  else
    let w := fmtBits f
    match v with
    | .nan _ => (0, fIV)
    | .inf neg => (if neg then 2 ^ (w - 1) else 2 ^ (w - 1) - 1, fSAT)
    | .fin neg m e =>
      let (k, inexact) := roundGrid rm neg m e (if f = 0xA then -6 else 0)
      let nx := if inexact then fNX else 0
      let lim := if neg then 2 ^ (w - 1) else 2 ^ (w - 1) - 1
      if lim < k then (if neg then 2 ^ (w - 1) else 2 ^ (w - 1) - 1, nx ||| fSAT)
      else (if neg then (2 ^ w - k) % 2 ^ w else k, nx)

/-- Signed integer multiple of `2^e` of a finite number. -/
def signed (neg : Bool) (m : Nat) : Int := if neg then -(m : Int) else m

/-- Exact product: NaN on a NaN or ∞ × 0, the latter invalid. -/
def mulFV (a b : FV) : FV × Nat :=
  match a, b with
  | .nan s, .nan t => (.nan false, if s || t then fIV else 0)
  | .nan s, _ => (.nan false, if s then fIV else 0)
  | _, .nan t => (.nan false, if t then fIV else 0)
  | .inf s, .inf t => (.inf (s != t), 0)
  | .inf s, .fin t m _ => if m = 0 then (.nan false, fIV) else (.inf (s != t), 0)
  | .fin t m _, .inf s => if m = 0 then (.nan false, fIV) else (.inf (s != t), 0)
  | .fin s m e, .fin t n g => (.fin (s != t) (m * n) (e + g), 0)

/-- Scale a number by a power of two. -/
def scaleFV (a : FV) (k : Int) : FV :=
  match a with
  | .fin s m e => .fin s m (e + k)
  | x => x

/-- Exact sum of a list; an exact zero takes the common sign of zero terms, else the sign of the rounding mode. -/
def sumFV (rm : RMode) (l : List FV) : FV × Nat :=
  let sig := l.any fun x => match x with | .nan s => s | _ => false
  if l.any fun x => match x with | .nan _ => true | _ => false then (.nan false, if sig then fIV else 0)
  else
    let pos := l.any fun x => decide (x = .inf false)
    let neg := l.any fun x => decide (x = .inf true)
    if pos && neg then (.nan false, fIV)
    else if pos then (.inf false, 0) else if neg then (.inf true, 0)
    else
      let e := l.foldl (fun a x => match x with | .fin _ _ g => min a g | _ => a) (0 : Int)
      let s := l.foldl (fun a x => match x with
        | .fin t m g => a + signed t (m * 2 ^ (g - e).toNat)
        | _ => a) (0 : Int)
      if s ≠ 0 then (.fin (s < 0) s.natAbs e, 0)
      else
        let nz := l.all fun x => match x with | .fin t m _ => m == 0 && t | _ => false
        let some_ := l.any fun x => match x with | .fin t m _ => m == 0 && !t | _ => false
        let real := l.any fun x => match x with | .fin _ m _ => m ≠ 0 | _ => false
        (.fin (nz || ((real || some_) && decide (rm = .rd) && (real || l.any fun x => match x with
          | .fin t m _ => m == 0 && t | _ => false))) 0 0, 0)

/-- Add, multiply and fused multiply-add in FP32, rounded once (R252). -/
def addF32 (rm : RMode) (a b : Nat) : Nat × Nat :=
  let (v, f) := sumFV rm [decodeF 0 a, decodeF 0 b]
  let (r, g) := encodeF 0 rm false v
  (r, f ||| g)
def negF32 (a : Nat) : Nat := (a % 2 ^ 32) ^^^ 0x80000000
def mulF32 (rm : RMode) (a b : Nat) : Nat × Nat :=
  let (v, f) := mulFV (decodeF 0 a) (decodeF 0 b)
  let (r, g) := encodeF 0 rm false v
  (r, f ||| g)
def fmaFV (rm : RMode) (a b c : FV) : Nat × Nat :=
  let (p, f) := mulFV a b
  let (v, g) := sumFV rm [p, c]
  let (r, h) := encodeF 0 rm false v
  (r, f ||| g ||| h)
def fmaF32 (rm : RMode) (a b c : Nat) : Nat × Nat := fmaFV rm (decodeF 0 a) (decodeF 0 b) (decodeF 0 c)

/-- Is an FP32 word a signalling NaN, or any NaN? -/
def isNan (a : Nat) : Bool := match decodeF 0 a with | .nan _ => true | _ => false
def isSig (a : Nat) : Bool := match decodeF 0 a with | .nan s => s | _ => false

/-- Order of two FP32 numbers that are not NaN: an integer key in which −0 lies below +0. -/
def keyF32 (a : Nat) : Int := if tst a 31 then -(((a % 2 ^ 31 : Nat) : Int)) - 1 else ((a % 2 ^ 31 : Nat) : Int)

/-- VMAX and VMIN (R254). -/
def maxMinF32 (isMax : Bool) (a b : Nat) : Nat × Nat :=
  let f := if isSig a || isSig b then fIV else 0
  if isNan a && isNan b then (nanOf 0, f)
  else if isNan a then (b % 2 ^ 32, f) else if isNan b then (a % 2 ^ 32, f)
  else (if (keyF32 a < keyF32 b) == isMax then b % 2 ^ 32 else a % 2 ^ 32, f)

/-- VCMP: condition 0 equal, 1 less, 2 less or equal, 3 unordered. -/
def cmpF32 (cond a b : Nat) : Bool × Nat :=
  let f := if isSig a || isSig b then fIV else 0
  if isNan a || isNan b then (cond = 3, f)
  else
    let z (x : Nat) : Int := if x % 2 ^ 31 = 0 then 0 else keyF32 x + (if tst x 31 then 1 else 0)
    (match cond with | 0 => z a = z b | 1 => z a < z b | 2 => z a ≤ z b | _ => false, f)

/-- FP32 and BF16 sums of the atomics (R304), RNE. -/
def f32Add (a b : Nat) : Nat := (addF32 .rne a b).1
def bf16Add (a b : Nat) : Nat := (encodeF 2 .rne false (sumFV .rne [decodeF 2 a, decodeF 2 b]).1).1
def f32Min (a b : Nat) : Nat := (maxMinF32 false a b).1
def f32Max (a b : Nat) : Nat := (maxMinF32 true a b).1

/-! ## Stochastic rounding (R258) -/

/-- The generator of R258. -/
def srRandom (seed idx : Nat) : Nat :=
  let m := 2 ^ 64
  let z := (seed ^^^ (idx * 0x9E3779B97F4A7C15) % m) % m
  let z := ((z ^^^ (z >>> 30)) * 0xBF58476D1CE4E5B9) % m
  let z := ((z ^^^ (z >>> 27)) * 0x94D049BB133111EB) % m
  let z := z ^^^ (z >>> 31)
  bits z 63 32

/-! ## MX blocks (R249, R250) -/

/-- emax of an element format. -/
def emaxOf : Nat → Int
  | 3 => 8 | 4 => 15 | 5 => 4 | 6 => 2 | 7 => 2 | _ => 0

/-- Value of an MX element with its scale byte. -/
def mxValue (f w scale : Nat) : FV :=
  if scale % 256 = 255 then .nan false else scaleFV (decodeF f w) ((scale % 256 : Nat) - 127)

/-- Encode 32 FP32 values as one block: scale byte, elements, flags; `rm k` is the rounding of element k. -/
def mxEncode (f : Nat) (rm : Nat → RMode) (vs : List Nat) : Nat × List Nat × Nat :=
  let xs := vs.map (decodeF 0)
  if xs.any fun x => match x with | .nan _ => true | _ => false then (0xFF, vs.map fun _ => 0, fIV)
  else
    let tops := xs.filterMap fun x => match x with
      | .inf _ => some (127 : Int)
      | .fin _ m e => if m = 0 then none else some (topExp m e)
      | .nan _ => none
    match tops with
    | [] => (0, vs.map fun _ => 0, 0)
    | t :: ts =>
      let top := ts.foldl max t
      let e := max (-127) (min 127 (top - emaxOf f))
      let enc := (List.range vs.length).map fun k => encodeF f (rm k) true (scaleFV (xs.getD k (.inf false)) (-e))
      ((e + 127).toNat, enc.map (·.1), enc.foldl (fun a x => a ||| x.2) 0)

/-! ## The exact accumulator (R260 to R262) -/

/-- A lane of an exact accumulator (Table ARI-4). -/
structure AccLane where
  /-- GUARD:VAL as a signed integer. -/
  sum : Int
  q : Int
  nan : Bool
  ovp : Bool
  ovn : Bool
  cnt : Nat
  poison : Bool
  deriving DecidableEq, Repr

/-- A cleared lane. -/
def acc0 : AccLane := ⟨0, 0, false, false, false, 0, false⟩

/-- GUARD:VAL is 152 bits, two's complement. -/
def wrap152 (v : Int) : Int := sext 152 (wrapInt 152 v)

/-- Add one product as a term (R261). -/
def AccLane.term (a : AccLane) (p : FV) (f : Nat) : AccLane × Nat :=
  let a := { a with cnt := min (2 ^ 24 - 1) (a.cnt + 1) }
  match p with
  | .nan _ => ({ a with nan := true }, f ||| fIV)
  | .inf neg => (if neg then { a with ovn := true } else { a with ovp := true }, f)
  | .fin neg m e =>
    let (k, inexact) := roundGrid .rne neg m e a.q
    let g := if inexact then fNX else 0
    if 2 ^ 127 ≤ k then (if neg then { a with ovn := true } else { a with ovp := true }, f ||| g)
    else ({ a with sum := wrap152 (a.sum + signed neg k) }, f ||| g)

/-- The image of a lane. -/
def AccLane.image (a : AccLane) : Nat :=
  wrapInt 152 a.sum + wrapInt 10 a.q * 2 ^ 152 + (if a.nan then 2 ^ 162 else 0) + (if a.ovp then 2 ^ 163 else 0) +
    (if a.ovn then 2 ^ 164 else 0) + a.cnt * 2 ^ 165

/-- ACCI: merge an image (R261). -/
def AccLane.merge (a : AccLane) (w : Nat) (poison : Bool) : AccLane × Nat :=
  let q := sext 10 (bits w 161 152)
  let a := { a with poison := a.poison || poison }
  if q ≠ a.q then ({ a with nan := true }, fIV)
  else ({ a with sum := wrap152 (a.sum + sext 152 (bits w 151 0)), cnt := min (2 ^ 24 - 1) (a.cnt + bits w 188 165),
                 nan := a.nan || tst w 162, ovp := a.ovp || tst w 163, ovn := a.ovn || tst w 164 }, 0)

/-- ACC2F (R262) of a lane that is not poisoned. -/
def AccLane.toF32 (a : AccLane) (rm : RMode) (satf : Bool) : Nat × Nat :=
  if a.nan || (a.ovp && a.ovn) || 2 ^ 23 < a.cnt then (nanOf 0, fIV)
  else if a.ovp then (if satf then (maxOf 0, fSAT) else (0x7F800000, fOF))
  else if a.ovn then (if satf then (maxOf 0 + 2 ^ 31, fSAT) else (0xFF800000, fOF))
  else encodeF 0 rm satf (.fin (a.sum < 0) a.sum.natAbs a.q)

/-- ACC2I (R262). -/
def AccLane.toI32 (a : AccLane) (rm : RMode) (satf : Bool) : Nat × Nat :=
  let hi := 2 ^ 31 - 1
  if a.nan || (a.ovp && a.ovn) || 2 ^ 23 < a.cnt then (0, fIV)
  else if a.ovp then (hi, if satf then fSAT else fOF)
  else if a.ovn then (2 ^ 31, if satf then fSAT else fOF)
  else
    let neg := decide (a.sum < 0)
    let (k, inexact) := roundGrid rm neg a.sum.natAbs a.q 0
    let nx := if inexact then fNX else 0
    let lim := if neg then 2 ^ 31 else hi
    if lim < k then (lim, nx ||| fSAT) else (if neg then (2 ^ 32 - k) % 2 ^ 32 else k, nx)

/-! ## Special functions (R265, R266) -/

/-- Is a magnitude a power of two, and its exponent. -/
def powTwo (m : Nat) (e : Int) : Option Int := if m = 2 ^ Nat.log2 m then some (topExp m e) else none

/-- FP32 bits of a power of two or of an integer. -/
def f32Pow (neg : Bool) (k : Int) : Nat × Nat := encodeF 0 .rne false (.fin neg 1 k)
def f32Int (k : Int) : Nat := (encodeF 0 .rne false (.fin (k < 0) k.natAbs 0)).1

/-- A fixed-point value that an irrational result has been cut to: it lies just above it. -/
def cutFV (v k : Int) : FV := .fin (2 * v + 1 < 0) (2 * v + 1).natAbs (k - fxBits - 1)

/-- Round a special function's value to FP32, and take a result within one unit of it; an overflow stands (R265). -/
def nearF32 (v : FV) (u : Fin 3) : Nat × Nat :=
  let (r, f) := encodeF 0 .rne false v
  let m := r % 2 ^ 31
  let r := if 0x7F800000 ≤ m then r
    else match u.val with
      | 0 => r
      | 1 => if m + 1 < 0x7F800000 then r + 1 else r
      | _ => if m = 0 then r else r - 1
  (r, f)

/-- e^x of a fixed-point number; beyond ±2^10 the result leaves the FP32 range on that side. -/
def expFV (x : Int) : FV :=
  if 2 ^ 10 * fxOne < x then .fin false 1 1024
  else if x < -(2 ^ 10 * fxOne) then .fin false 1 (-1024)
  else cutFV (fxExp x).1 (fxExp x).2

/-- EXP, EXP2, LOG, LOG2, RCP, RSQRT (code 1 to 6) of one FP32 word: the exact and special cases of Table ARI-6, and otherwise a
result within its error. -/
def specialF (fn a : Nat) : Nat × Nat :=
  let near (v : FV) : Nat × Nat := nearF32 v (Config.specialUlp fn (BitVec.ofNat 32 a))
  let inf := 0x7F800000
  match decodeF 0 a with
  | .nan s => (nanOf 0, if s then fIV else 0)
  | .inf neg =>
    match fn with
    | 1 => (if neg then 0 else inf, 0)
    | 2 => (if neg then 0 else inf, 0)
    | 5 => (if neg then 0x80000000 else 0, 0)
    | 6 => if neg then (nanOf 0, fIV) else (0, 0)
    | _ => if neg then (nanOf 0, fIV) else (inf, 0)
  | .fin neg m e =>
    match fn with
    | 1 => if m = 0 then (0x3F800000, 0) else near (expFV (fxOf neg m e))
    | 2 =>
      let (k, frac) := roundGrid .rz neg m e 0
      let kk := signed neg k
      if !frac && -149 ≤ kk && kk ≤ 127 then f32Pow false kk
      else if !frac then near (.fin false 1 kk)
      else near (expFV (fxOf neg m e * fxLn2 / fxOne))
    | 3 => if m = 0 then (0xFF800000, fDZ) else if neg then (nanOf 0, fIV)
      else if powTwo m e = some 0 then (0, 0) else near (cutFV (fxLog m e) 0)
    | 4 => if m = 0 then (0xFF800000, fDZ) else if neg then (nanOf 0, fIV)
      else match powTwo m e with
        | some k => (f32Int k, 0)
        | none => near (cutFV (fxLog m e * fxOne / fxLn2) 0)
    | 5 => if m = 0 then (if neg then 0xFF800000 else inf, fDZ)
      else match powTwo m e with
        | some k => f32Pow neg (-k)
        | none => near (.fin neg (2 * (2 ^ fxBits / m) + 1) (-e - fxBits - 1))
    | _ => if m = 0 then (if neg then 0xFF800000 else inf, fDZ) else if neg then (nanOf 0, fIV)
      else match powTwo m e with
        | some k => if k % 2 = 0 then f32Pow false (-(k / 2))
          else near (.fin false (2 * isqrt (2 ^ (2 * fxBits + 1)) + 1) (-((k + 1) / 2) - fxBits - 1))
        | none =>
          let (n, g) := if e % 2 = 0 then (m, e) else (2 * m, e - 1)
          near (.fin false (2 * isqrt (2 ^ (2 * fxBits) / n) + 1) (-(g / 2) - fxBits - 1))

/-- ln(1 + e^d) of a finite number in fixed point: the larger of d and 0, and ln(1 + e^−|d|). -/
def softplus (d : Int) : Int :=
  let (v, k) := fxExp (-((min d.natAbs (2 ^ (10 + fxBits)) : Nat) : Int))
  max d 0 + fxLog1p (v / 2 ^ (-k).toNat)

/-- LSEM: m + ln(1 + e^d) (R265, R266). -/
def lsemF (m d : Nat) : Nat × Nat :=
  let sig := if isSig m || isSig d then fIV else 0
  match decodeF 0 m, decodeF 0 d with
  | .nan _, _ => (nanOf 0, sig)
  | _, .nan _ => (nanOf 0, sig)
  | _, .inf true => (m % 2 ^ 32, 0)
  | .inf true, .inf false => (nanOf 0, fIV)
  | .inf _, _ => (m % 2 ^ 32, 0)
  | .fin .., .inf false => (0x7F800000, 0)
  | .fin s a e, .fin t b g =>
    nearF32 (cutFV (fxOf s a e + softplus (fxOf t b g)) 0) (Config.lsemUlp (BitVec.ofNat 32 m) (BitVec.ofNat 32 d))

/-- Merge of two attention partials (R266): O and L. -/
def lseMerge (o1 : List Nat) (l1 : Nat) (o2 : List Nat) (l2 : Nat) : List Nat × Nat × Nat :=
  let pinf := 0x7F800000
  let ninf := 0xFF800000
  if isNan l1 || isNan l2 || l1 = pinf || l2 = pinf then (o1.map fun _ => nanOf 0, nanOf 0, fIV)
  else if l1 = ninf && l2 = ninf then (o1.map fun _ => 0, ninf, 0)
  else
    let m := (maxMinF32 true l1 l2).1
    let d := (addF32 .rne (maxMinF32 false l1 l2).1 (negF32 m)).1
    let l := (lsemF m d).1
    let w1 := (specialF 1 (addF32 .rne l1 (negF32 l)).1).1
    let w2 := (specialF 1 (addF32 .rne l2 (negF32 l)).1).1
    (List.zipWith (fun a b => (fmaF32 .rne w2 b (mulF32 .rne w1 a).1).1) o1 o2, l, 0)

end Sys2Proof.Machine
end

