-- ==== Sys2Proof/Machine/Atomic.lean ====
section
/-! DEFINITION. The atomic operations of Table OPS-14 as functions of the old content and the operands (R304 to R306). -/

namespace Sys2Proof.Machine

/-- Sizes that an atomic operation allows, as SIZE codes (Table OPS-14). -/
def atomSizes : Nat → List Nat
  | 0x01 => [2, 3] | 0x02 => [2] | 0x03 => [1] | 0x04 => [2, 3, 4] | 0x05 => [2, 3] | 0x06 => [2, 3] | 0x07 => [2, 3]
  | 0x08 => [2, 3] | 0x09 => [2] | 0x0A => [2] | 0x0B => [5, 6] | 0x0C => [5, 6] | _ => []

/-- Is the request a well-formed atomic: operation, size and alignment (R304)? -/
def atomOk (aop size addr : Nat) : Bool := (atomSizes aop).contains size && addr % 2 ^ size == 0

/-- Lane-wise function on 32-bit lanes. -/
def lanes32 (n : Nat) (f : Nat → Nat → Nat) (a b : Nat) : Nat :=
  (List.range n).foldl (fun acc i => acc + f (bits a (32 * i + 31) (32 * i)) (bits b (32 * i + 31) (32 * i)) * 2 ^ (32 * i)) 0

/-- The new value of an atomic (Table OPS-14): `w` = 8 × size bits; CAS has the compare value low, the swap value above. -/
def atomNew (aop size old ops : Nat) : Nat :=
  let w := 8 * 2 ^ size
  let x := ops % 2 ^ w
  match aop with
  | 0x01 => (old + x) % 2 ^ w
  | 0x02 => f32Add old x
  | 0x03 => bf16Add old x
  | 0x04 => if old = x then bits ops (2 * w - 1) w else old
  | 0x05 => if sext w x < sext w old then x else old
  | 0x06 => if sext w old < sext w x then x else old
  | 0x07 => min old x
  | 0x08 => max old x
  | 0x09 => f32Min old x
  | 0x0A => f32Max old x
  | 0x0B => lanes32 (w / 32) f32Add old x
  | 0x0C => lanes32 (w / 32) (fun a b => (a + b) % 2 ^ 32) old x
  | _ => old

end Sys2Proof.Machine
end

