-- ==== Sys2Proof/Machine/Keccak.lean ====
section
/-! DEFINITION. SHAKE256 (FIPS 202), the digest of pattern images, of CHECKSUM and of the trust chain.  The 25 lanes of the
state are one number, lane x + 5y at bit 64 (x + 5y). -/

namespace Sys2Proof.Machine

/-- One step of the constants' shift register, the feedback of x^8 + x^6 + x^5 + x^4 + 1. -/
def iotaNext (r : Nat) : Nat := if r < 128 then 2 * r else (2 * r) ^^^ 0x171

/-- The register after `n` steps. -/
def iotaAfter : Nat → Nat → Nat
  | 0, r => r
  | n + 1, r => iotaAfter n (iotaNext r)

/-- What a round adds to lane 0: output `j` of its seven stands at bit 2^j - 1. -/
def iotaLane (r : Nat) : Nat :=
  (List.range 7).foldl (fun v j => v + iotaAfter j r % 2 * 2 ^ (2 ^ j - 1)) 0

/-- Lane `i` of a state, and a lane rotated left by `n`. -/
def laneOf (a i : Nat) : Nat := a >>> (64 * i) % 2 ^ 64
def rotLane (v n : Nat) : Nat := (v <<< n ||| v >>> (64 - n)) % 2 ^ 64

/-- The column sums with their two neighbours' fold: what the first step of a round adds to the lanes of column `x`. -/
def thetaColumn (a x : Nat) : Nat :=
  let sum := fun k => (List.range 5).foldl (fun v y => v ^^^ laneOf a (k % 5 + 5 * y)) 0
  sum (x + 4) ^^^ rotLane (sum (x + 1)) 1

/-- The lanes after the first step. -/
def thetaState (a : Nat) : Nat :=
  (List.range 5).foldl (fun v x =>
    let t := thetaColumn a x
    (List.range 5).foldl (fun w y => w ^^^ t <<< (64 * (x + 5 * y))) v) a

/-- The walk of the rotations and of the permutation together: from lane (1, 0), lane (x, y) goes to (y, 2x + 3y) and is
rotated by the triangular number of its place `t` in the walk. -/
def rhoPiWalk (a : Nat) : Nat → Nat → Nat → Nat → Nat → Nat
  | 0, _, _, _, b => b
  | n + 1, t, x, y, b =>
    let y' := (2 * x + 3 * y) % 5
    rhoPiWalk a n (t + 1) y y' (b + rotLane (laneOf a (x + 5 * y)) (t * (t + 1) / 2 % 64) <<< (64 * (y + 5 * y')))

/-- The nonlinear step on one lane of a row. -/
def chiLane (b i : Nat) : Nat :=
  let row := i - i % 5
  laneOf b i ^^^ (laneOf b (row + (i + 2) % 5) - (laneOf b (row + (i + 1) % 5) &&& laneOf b (row + (i + 2) % 5)))

/-- Keccak-f[1600]: `n` rounds, the shift register carried along. -/
def keccakRounds : Nat → Nat → Nat → Nat
  | 0, _, a => a
  | n + 1, r, a =>
    let t := thetaState a
    let b := rhoPiWalk t 24 1 1 0 (laneOf t 0)
    keccakRounds n (iotaAfter 7 r)
      ((List.range 25).foldl (fun v i => v + chiLane b i <<< (64 * i)) 0 ^^^ iotaLane r)

def keccakF (a : Nat) : Nat := keccakRounds 24 1 a

/-- Absorb `n` blocks of 136 bytes. -/
def keccakAbsorb : Nat → List Byte → Nat → Nat
  | 0, _, a => a
  | n + 1, bs, a => keccakAbsorb n (bs.drop 136) (keccakF (a ^^^ leNat (bs.take 136)))

/-- The sponge state after SHAKE256 has absorbed a byte string. -/
def shakeState (bs : List Byte) : Nat :=
  let r := 136 - bs.length % 136
  let pad : List Byte := if r = 1 then [0x9F#8] else (0x1F#8 :: List.replicate (r - 2) 0#8) ++ [0x80#8]
  keccakAbsorb (bs.length / 136 + 1) (bs ++ pad) 0

/-- The first `8 * n` output bytes of SHAKE256, `n` at most 17, as a little-endian number. -/
def shakeWords (n : Nat) (bs : List Byte) : Nat := shakeState bs % 2 ^ (64 * n)

/-- SHAKE256 of a byte string: the first 64 output bytes, as a little-endian number. -/
def shake256 (bs : List Byte) : BitVec 512 := BitVec.ofNat 512 (shakeWords 8 bs)

end Sys2Proof.Machine
end

