-- ==== Sys2Proof/Machine/Identity.lean ====
section
/-! DEFINITION. Device keys and end identifiers (R332, R477). -/

namespace Sys2Proof.Machine

/-- The bytes of an ASCII string. -/
def ascii (t : String) : List Byte := t.toList.map fun c => BitVec.ofNat 8 c.toNat

/-- The three seeds of a device key, from the SHAKE256 input of Table SEC-4. -/
def keySeed (input : List Byte) : BitVec 768 := BitVec.ofNat 768 (shakeWords 12 input)

/-- Seeds of the identity key IDK. -/
def idkSeed : BitVec 768 := keySeed (ascii "T7-IDK" ++ natLe 32 Config.pufSecret.toNat)

/-- The identity public key. -/
def idkPub : BitVec 512 := Config.slhPublic false idkSeed

/-- END_ID of a fabric port (R332). -/
def endId (p : Nat) : Nat := bits (shake256 (natLe 64 idkPub.toNat)).toNat 55 0 * 256 + p

end Sys2Proof.Machine
end

