-- ==== Sys2Proof/Machine/Regs.lean ====
section
/-! DEFINITION. The control-space register table: for each register of the spec its block type, offset, array and
fields with access code, reset value and permitted values (R6 to R8, R501 to R509 and each chapter's register maps),
and the reset value of any control-space word. -/

namespace Sys2Proof.Machine

/-- Block types of Table CSP-1; `any` stands for the registers every block has. -/
inductive BlkType where
  | tile | home | dch | fport | nvp | xbar | brush | perc | cp | sec | mgt | beat | rst | pwr | disp | any
  deriving DecidableEq, Repr

/-- Access codes used in stepping A1 (Table SCP-5, R505). -/
inductive Acc where
  | ro | rwc | rw1c | wo
  deriving DecidableEq, Repr

/-- Permitted values of a field: all, a range (R8), or a list of codes (R509). -/
inductive Perm where
  | any
  | range (lo hi : Nat)
  | codes (l : List Nat)
  deriving DecidableEq, Repr

/-- One register field. -/
structure FieldDesc where
  hi : Nat
  lo : Nat
  acc : Acc
  reset : Nat
  perm : Perm
  deriving DecidableEq, Repr

/-- One register (or array of registers) of a block type.  `only0`: it exists in the window of instance 0 (R507). -/
structure RegDesc where
  blk : BlkType
  only0 : Bool
  off : Nat
  stride : Nat
  count : Nat
  fields : List FieldDesc
  deriving DecidableEq, Repr

/-- A field of a control-space register: the register's address and its bits. -/
structure Fld where
  csa : Nat
  hi : Nat
  lo : Nat
  deriving DecidableEq, Repr

/-- Table ARC-6 / CSP-1: block type and instance of a window number. -/
def blkOfWindow (w : Nat) : BlkType × Nat :=
  if w < 672 then (.tile, w) else if w < 736 then (.home, w - 672) else if w < 768 then (.dch, w - 736)
  else if w < 832 then (.fport, w - 768) else if w < 848 then (.nvp, w - 832) else if w < 850 then (.xbar, w - 848)
  else if w < 852 then (.brush, w - 850) else if w < 854 then (.perc, w - 852) else if w < 857 then (.cp, w - 854)
  else if w = 857 then (.sec, 0) else if w = 858 then (.mgt, 0) else if w = 859 then (.beat, 0)
  else if w = 860 then (.rst, 0) else if w = 861 then (.pwr, 0) else if w = 862 then (.disp, 0) else (.any, 0)

/-- TYPE code of Table CSP-1. -/
def blkTypeCode : BlkType → Nat
  | .tile => 1 | .home => 2 | .dch => 3 | .fport => 4 | .nvp => 5 | .xbar => 6 | .brush => 7 | .perc => 8 | .cp => 9
  | .sec => 10 | .mgt => 11 | .beat => 12 | .rst => 13 | .pwr => 14 | .disp => 15 | .any => 0

/-- Register descriptions, part 1, in the order of the chapters. -/
def regTable1 : List RegDesc := [
  ⟨.beat, false, 0x0, 8, 1, [⟨63, 0, .ro, 0x0, .any⟩]⟩,
  ⟨.pwr, false, 0x100, 8, 1, [⟨1, 0, .ro, 0x3, .any⟩, ⟨3, 2, .rwc, 0x3, .any⟩, ⟨8, 8, .ro, 0x0, .any⟩, ⟨9, 9, .ro, 0x0, .any⟩, ⟨11, 10, .ro, 0x0, .any⟩]⟩,
  ⟨.pwr, false, 0x108, 8, 1, [⟨63, 0, .rwc, 0x0, .any⟩]⟩,
  ⟨.home, true, 0x200, 8, 1, [⟨31, 0, .rwc, 0x0, .any⟩, ⟨63, 32, .rwc, 0x0, .any⟩]⟩,
  ⟨.home, true, 0x208, 8, 1, [⟨31, 0, .rwc, 0x0, .any⟩]⟩,
  ⟨.home, true, 0x210, 8, 1, [⟨15, 0, .rwc, 0x0, .any⟩, ⟨17, 16, .rwc, 0x0, .codes [1, 2]⟩, ⟨18, 18, .wo, 0x0, .any⟩, ⟨19, 19, .ro, 0x0, .any⟩, ⟨23, 20, .ro, 0x0, .any⟩]⟩,
  ⟨.home, true, 0x218, 8, 1, [⟨9, 0, .rwc, 0x0, .any⟩, ⟨10, 10, .rwc, 0x0, .any⟩, ⟨11, 11, .wo, 0x0, .any⟩, ⟨12, 12, .ro, 0x0, .any⟩, ⟨13, 13, .ro, 0x1, .any⟩, ⟨47, 16, .rwc, 0x0, .any⟩, ⟨63, 48, .rwc, 0x1, .range 1 65535⟩]⟩,
  ⟨.xbar, true, 0x300, 8, 1, [⟨11, 0, .rwc, 0x0, .any⟩, ⟨13, 12, .rwc, 0x0, .any⟩, ⟨14, 14, .wo, 0x0, .any⟩, ⟨17, 16, .ro, 0x0, .any⟩, ⟨20, 18, .ro, 0x0, .any⟩, ⟨47, 32, .ro, 0x0, .any⟩, ⟨63, 48, .ro, 0x0, .any⟩]⟩,
  ⟨.home, true, 0x280, 8, 1, [⟨0, 0, .rwc, 0x0, .any⟩, ⟨2, 1, .rwc, 0x0, .codes [0, 1, 2]⟩, ⟨8, 8, .rwc, 0x1, .any⟩, ⟨31, 16, .rwc, 0x2000, .range 1024 65535⟩]⟩,
  ⟨.home, true, 0x288, 8, 1, [⟨9, 0, .rwc, 0x0, .any⟩, ⟨10, 10, .wo, 0x0, .any⟩, ⟨11, 11, .ro, 0x0, .any⟩, ⟨12, 12, .ro, 0x1, .any⟩, ⟨47, 16, .rwc, 0x0, .any⟩, ⟨63, 48, .rwc, 0x1, .range 1 65535⟩]⟩,
  ⟨.home, true, 0x290, 8, 1, [⟨7, 0, .rwc, 0x0, .any⟩, ⟨8, 8, .wo, 0x0, .any⟩, ⟨9, 9, .ro, 0x0, .any⟩, ⟨27, 16, .ro, 0x0, .any⟩, ⟨40, 32, .ro, 0x100, .any⟩]⟩,
  ⟨.home, false, 0x298, 8, 1, [⟨10, 0, .ro, 0x0, .any⟩, ⟨22, 11, .ro, 0x0, .any⟩, ⟨23, 23, .ro, 0x0, .any⟩, ⟨63, 32, .ro, 0x0, .any⟩]⟩,
  ⟨.home, true, 0x2a0, 8, 1, [⟨31, 0, .rwc, 0x0, .any⟩, ⟨47, 32, .rwc, 0x0, .any⟩, ⟨55, 48, .rwc, 0xa, .range 1 255⟩]⟩,
  ⟨.home, true, 0x2a8, 8, 1, [⟨15, 0, .ro, 0x0, .any⟩, ⟨28, 16, .ro, 0x0, .any⟩]⟩,
  ⟨.home, true, 0x2b0, 8, 1, [⟨0, 0, .rwc, 0x0, .any⟩, ⟨2, 1, .ro, 0x0, .any⟩, ⟨3, 3, .ro, 0x0, .any⟩, ⟨9, 4, .rwc, 0x0, .any⟩, ⟨15, 10, .rwc, 0x0, .any⟩, ⟨31, 16, .rwc, 0x40, .range 16 4096⟩]⟩,
  ⟨.dch, true, 0x400, 8, 1, [⟨1, 0, .rwc, 0x0, .any⟩, ⟨16, 2, .rwc, 0x0, .any⟩, ⟨31, 17, .rwc, 0x0, .any⟩, ⟨46, 32, .rwc, 0x0, .any⟩, ⟨61, 47, .rwc, 0x0, .any⟩]⟩,
  ⟨.dch, false, 0x100, 8, 1, [⟨0, 0, .rwc, 0x1, .any⟩, ⟨1, 1, .rwc, 0x0, .any⟩, ⟨2, 2, .rwc, 0x0, .any⟩, ⟨11, 8, .ro, 0x3, .any⟩, ⟨15, 12, .ro, 0x6, .any⟩, ⟨16, 16, .ro, 0x0, .any⟩, ⟨62, 32, .ro, 0x0, .any⟩]⟩,
  ⟨.dch, false, 0x200, 8, 1, [⟨0, 0, .wo, 0x0, .any⟩, ⟨1, 1, .ro, 0x0, .any⟩, ⟨4, 2, .ro, 0x0, .any⟩, ⟨5, 5, .ro, 0x0, .any⟩, ⟨22, 16, .ro, 0x0, .any⟩]⟩,
  ⟨.dch, false, 0x208, 8, 1, [⟨63, 0, .rwc, 0x0, .any⟩]⟩,
  ⟨.dch, false, 0x210, 8, 1, [⟨3, 0, .rwc, 0xc, .range 1 15⟩, ⟨7, 4, .rwc, 0x2, .any⟩, ⟨11, 8, .rwc, 0x1, .any⟩, ⟨15, 12, .rwc, 0x4, .range 1 15⟩]⟩,
  ⟨.dch, false, 0x300, 8, 1, [⟨0, 0, .ro, 0x0, .any⟩, ⟨1, 1, .rwc, 0x0, .any⟩, ⟨15, 8, .ro, 0x0, .any⟩, ⟨63, 16, .ro, 0x0, .any⟩]⟩,
  ⟨.dch, false, 0x310, 8, 1, [⟨0, 0, .wo, 0x0, .any⟩, ⟨1, 1, .ro, 0x0, .any⟩, ⟨15, 8, .ro, 0x0, .any⟩, ⟨23, 16, .rwc, 0x8, .range 2 32⟩]⟩,
  ⟨.perc, false, 0x100, 8, 1, [⟨0, 0, .rwc, 0x0, .any⟩, ⟨1, 1, .rwc, 0x0, .any⟩, ⟨2, 2, .ro, 0x0, .any⟩, ⟨15, 8, .rwc, 0x0, .any⟩, ⟨31, 16, .rwc, 0xa, .range 1 1000⟩, ⟨47, 32, .rwc, 0x64, .range 0 10000⟩, ⟨55, 48, .rwc, 0x20, .range 1 64⟩]⟩,
  ⟨.perc, false, 0x108, 8, 1, [⟨15, 0, .rwc, 0x400, .any⟩, ⟨31, 16, .rwc, 0x800, .any⟩, ⟨47, 32, .rwc, 0x100, .range 1 65535⟩]⟩,
  ⟨.perc, false, 0x110, 8, 1, [⟨31, 0, .wo, 0x0, .any⟩]⟩,
  ⟨.perc, true, 0x118, 8, 1, [⟨31, 0, .rwc, 0x0, .any⟩, ⟨63, 32, .rwc, 0x0, .any⟩]⟩,
  ⟨.perc, false, 0x120, 8, 1, [⟨31, 0, .ro, 0x0, .any⟩, ⟨63, 32, .ro, 0x0, .any⟩]⟩,
  ⟨.perc, true, 0x200, 8, 1, [⟨31, 0, .rwc, 0x0, .any⟩, ⟨42, 32, .rwc, 0x0, .range 0 1024⟩, ⟨53, 43, .rwc, 0x0, .any⟩]⟩]

/-- Register descriptions, part 2, in the order of the chapters. -/
def regTable2 : List RegDesc := [
  ⟨.nvp, false, 0x100, 8, 1, [⟨0, 0, .rwc, 0x1, .any⟩, ⟨1, 1, .rwc, 0x0, .any⟩, ⟨2, 2, .rwc, 0x0, .any⟩, ⟨10, 8, .ro, 0x0, .any⟩, ⟨15, 12, .ro, 0x0, .any⟩, ⟨43, 16, .ro, 0x0, .any⟩]⟩,
  ⟨.tile, false, 0x100, 8, 1, [⟨2, 0, .ro, 0x0, .any⟩, ⟨3, 3, .ro, 0x0, .any⟩, ⟨11, 8, .ro, 0x0, .any⟩, ⟨25, 16, .ro, 0x0, .any⟩, ⟨35, 32, .ro, 0x0, .any⟩]⟩,
  ⟨.tile, false, 0x108, 8, 1, [⟨0, 0, .wo, 0x0, .any⟩, ⟨1, 1, .wo, 0x0, .any⟩]⟩,
  ⟨.tile, false, 0x110, 8, 1, [⟨63, 0, .ro, 0x0, .any⟩]⟩,
  ⟨.tile, false, 0x200, 8, 1, [⟨0, 0, .ro, 0x0, .any⟩, ⟨15, 8, .ro, 0x0, .any⟩]⟩,
  ⟨.tile, false, 0x208, 8, 1, [⟨63, 0, .ro, 0x0, .any⟩]⟩,
  ⟨.tile, false, 0x300, 8, 1, [⟨4, 0, .rwc, 0xc, .range 1 16⟩, ⟨14, 8, .rwc, 0x40, .range 1 64⟩, ⟨22, 16, .ro, 0x40, .any⟩, ⟨63, 32, .ro, 0x0, .any⟩]⟩,
  ⟨.tile, false, 0x310, 8, 1, [⟨7, 0, .ro, 0x0, .any⟩, ⟨47, 16, .ro, 0x0, .any⟩]⟩,
  ⟨.disp, false, 0x800, 8, 1, [⟨63, 0, .rwc, 0x0, .any⟩]⟩,
  ⟨.disp, false, 0x808, 8, 1, [⟨2, 0, .rwc, 0x0, .any⟩, ⟨4, 3, .rwc, 0x0, .codes [1, 2]⟩, ⟨5, 5, .wo, 0x0, .any⟩, ⟨6, 6, .ro, 0x0, .any⟩, ⟨11, 8, .ro, 0x0, .any⟩, ⟨15, 12, .ro, 0x0, .any⟩, ⟨23, 16, .rwc, 0x0, .any⟩, ⟨31, 24, .ro, 0x0, .any⟩]⟩,
  ⟨.disp, false, 0x810, 8, 1, [⟨1, 0, .ro, 0x0, .any⟩, ⟨7, 4, .ro, 0x1, .any⟩, ⟨15, 8, .ro, 0x0, .any⟩]⟩,
  ⟨.disp, false, 0x818, 8, 1, [⟨9, 0, .rwc, 0x100, .range 0 768⟩]⟩,
  ⟨.tile, false, 0x320, 8, 1, [⟨0, 0, .rw1c, 0x0, .any⟩, ⟨1, 1, .rw1c, 0x0, .any⟩, ⟨2, 2, .rw1c, 0x0, .any⟩, ⟨3, 3, .rw1c, 0x0, .any⟩, ⟨4, 4, .rw1c, 0x0, .any⟩, ⟨5, 5, .rw1c, 0x0, .any⟩]⟩,
  ⟨.disp, false, 0x900, 8, 1, [⟨0, 0, .rwc, 0x0, .any⟩, ⟨13, 8, .rwc, 0x20, .range 1 32⟩]⟩,
  ⟨.disp, false, 0x908, 8, 1, [⟨12, 0, .ro, 0x0, .any⟩, ⟨26, 16, .ro, 0x0, .any⟩, ⟨44, 32, .ro, 0x0, .any⟩, ⟨53, 48, .ro, 0x0, .any⟩]⟩,
  ⟨.disp, false, 0x910, 8, 1, [⟨15, 0, .rwc, 0x0, .any⟩, ⟨23, 16, .rwc, 0x0, .any⟩, ⟨24, 24, .wo, 0x0, .any⟩, ⟨25, 25, .ro, 0x0, .any⟩, ⟨44, 32, .ro, 0x0, .any⟩]⟩,
  ⟨.fport, false, 0x100, 8, 1, [⟨3, 0, .rwc, 0xf, .any⟩, ⟨5, 4, .rwc, 0x0, .codes [0, 1, 2]⟩, ⟨6, 6, .wo, 0x0, .any⟩, ⟨7, 7, .rwc, 0x0, .any⟩, ⟨8, 8, .rwc, 0x1, .any⟩, ⟨28, 16, .rwc, 0x14, .range 1 5000⟩, ⟨47, 32, .rwc, 0x8000, .range 256 65535⟩]⟩,
  ⟨.fport, false, 0x108, 8, 1, [⟨2, 0, .ro, 0x1, .any⟩, ⟨7, 4, .ro, 0x0, .any⟩, ⟨11, 8, .ro, 0x0, .any⟩, ⟨12, 12, .ro, 0x0, .any⟩, ⟨13, 13, .ro, 0x0, .any⟩, ⟨15, 14, .ro, 0x0, .any⟩, ⟨19, 16, .ro, 0x0, .any⟩, ⟨63, 32, .ro, 0x0, .any⟩]⟩,
  ⟨.fport, false, 0x110, 8, 1, [⟨63, 0, .ro, 0x0, .any⟩]⟩,
  ⟨.fport, false, 0x118, 8, 1, [⟨63, 0, .ro, 0x0, .any⟩]⟩,
  ⟨.fport, false, 0x180, 8, 1, [⟨0, 0, .ro, 0x0, .any⟩, ⟨1, 1, .ro, 0x0, .any⟩, ⟨2, 2, .ro, 0x0, .any⟩, ⟨3, 3, .ro, 0x0, .any⟩, ⟨4, 4, .wo, 0x0, .any⟩, ⟨31, 16, .ro, 0x0, .any⟩]⟩,
  ⟨.xbar, true, 0x400, 8, 1, [⟨31, 0, .rwc, 0x0, .any⟩, ⟨32, 32, .rwc, 0x0, .any⟩]⟩,
  ⟨.xbar, true, 0x410, 8, 4, [⟨63, 0, .rwc, 0x0, .any⟩]⟩,
  ⟨.xbar, true, 0x430, 8, 1, [⟨0, 0, .rwc, 0x0, .any⟩, ⟨3, 1, .rwc, 0x2, .any⟩, ⟨47, 32, .ro, 0x0, .any⟩, ⟨63, 48, .ro, 0x0, .any⟩]⟩,
  ⟨.xbar, true, 0x438, 8, 1, [⟨63, 0, .rwc, 0x0, .any⟩]⟩,
  ⟨.xbar, true, 0x440, 8, 1, [⟨11, 0, .rwc, 0x0, .any⟩, ⟨13, 12, .rwc, 0x0, .codes [0, 1, 2]⟩, ⟨19, 14, .rwc, 0x0, .any⟩, ⟨20, 20, .wo, 0x0, .any⟩]⟩,
  ⟨.xbar, true, 0x448, 8, 1, [⟨5, 0, .ro, 0x0, .any⟩, ⟨6, 6, .ro, 0x0, .any⟩, ⟨8, 7, .ro, 0x0, .any⟩, ⟨9, 9, .ro, 0x0, .any⟩, ⟨17, 10, .ro, 0x0, .any⟩, ⟨25, 18, .ro, 0x0, .any⟩, ⟨63, 32, .ro, 0x0, .any⟩]⟩,
  ⟨.xbar, true, 0x500, 8, 1, [⟨11, 0, .rwc, 0x0, .any⟩, ⟨13, 12, .rwc, 0x0, .any⟩, ⟨14, 14, .wo, 0x0, .any⟩, ⟨15, 15, .ro, 0x0, .any⟩]⟩]

/-- Register descriptions, part 3, in the order of the chapters. -/
def regTable3 : List RegDesc := [
  ⟨.xbar, true, 0x508, 8, 2, [⟨63, 0, .rwc, 0x0, .any⟩]⟩,
  ⟨.xbar, true, 0x518, 8, 1, [⟨63, 0, .ro, 0x0, .any⟩]⟩,
  ⟨.xbar, true, 0x520, 8, 1, [⟨0, 0, .rwc, 0x1, .any⟩, ⟨4, 1, .rwc, 0xc, .range 4 15⟩, ⟨7, 5, .rwc, 0x6, .any⟩, ⟨15, 8, .rwc, 0x8, .range 1 255⟩]⟩,
  ⟨.xbar, true, 0x600, 8, 32, [⟨3, 0, .rwc, 0x8, .any⟩, ⟨6, 4, .rwc, 0x0, .any⟩, ⟨11, 8, .rwc, 0x8, .any⟩, ⟨14, 12, .rwc, 0x0, .any⟩, ⟨19, 16, .rwc, 0x8, .any⟩, ⟨22, 20, .rwc, 0x0, .any⟩, ⟨27, 24, .rwc, 0x8, .any⟩, ⟨30, 28, .rwc, 0x0, .any⟩, ⟨35, 32, .rwc, 0x8, .any⟩, ⟨38, 36, .rwc, 0x0, .any⟩, ⟨43, 40, .rwc, 0x8, .any⟩, ⟨46, 44, .rwc, 0x0, .any⟩, ⟨51, 48, .rwc, 0x8, .any⟩, ⟨54, 52, .rwc, 0x0, .any⟩, ⟨59, 56, .rwc, 0x8, .any⟩, ⟨62, 60, .rwc, 0x0, .any⟩]⟩,
  ⟨.fport, false, 0x200, 8, 1, [⟨0, 0, .rwc, 0x0, .any⟩, ⟨27, 8, .rwc, 0x0, .any⟩, ⟨55, 32, .rwc, 0x10000, .any⟩]⟩,
  ⟨.fport, false, 0x208, 8, 1, [⟨7, 0, .rwc, 0x10, .any⟩]⟩,
  ⟨.fport, false, 0x210, 8, 1, [⟨0, 0, .wo, 0x0, .any⟩, ⟨1, 1, .ro, 0x0, .any⟩, ⟨2, 2, .ro, 0x0, .any⟩]⟩,
  ⟨.fport, false, 0x218, 8, 1, [⟨63, 0, .rwc, 0x0, .any⟩]⟩,
  ⟨.dch, false, 0x320, 8, 1, [⟨15, 0, .rwc, 0x100, .range 1 65535⟩, ⟨16, 16, .rwc, 0x1, .any⟩, ⟨63, 32, .ro, 0x0, .any⟩]⟩,
  ⟨.dch, false, 0x328, 8, 1, [⟨4, 0, .ro, 0x0, .any⟩, ⟨5, 5, .rw1c, 0x0, .any⟩, ⟨47, 16, .ro, 0x0, .any⟩]⟩,
  ⟨.brush, false, 0x100, 8, 1, [⟨0, 0, .rwc, 0x1, .any⟩, ⟨3, 1, .rwc, 0x2, .any⟩, ⟨23, 8, .rwc, 0x258, .range 10 65535⟩]⟩,
  ⟨.brush, false, 0x108, 8, 1, [⟨31, 0, .ro, 0x0, .any⟩, ⟨47, 32, .ro, 0x0, .any⟩, ⟨63, 48, .ro, 0x0, .any⟩]⟩,
  ⟨.brush, false, 0x110, 8, 1, [⟨31, 0, .wo, 0x0, .any⟩, ⟨47, 32, .ro, 0x0, .any⟩, ⟨63, 48, .ro, 0x0, .any⟩]⟩,
  ⟨.brush, false, 0x118, 8, 1, [⟨16, 0, .ro, 0x0, .any⟩, ⟨17, 17, .ro, 0x0, .any⟩, ⟨63, 32, .ro, 0x0, .any⟩]⟩,
  ⟨.home, false, 0x2c0, 8, 1, [⟨0, 0, .wo, 0x0, .any⟩, ⟨1, 1, .wo, 0x0, .any⟩, ⟨9, 8, .ro, 0x0, .any⟩, ⟨15, 12, .ro, 0x0, .any⟩, ⟨21, 16, .ro, 0x0, .any⟩]⟩,
  ⟨.home, true, 0x2b8, 8, 1, [⟨0, 0, .wo, 0x0, .any⟩, ⟨1, 1, .ro, 0x0, .any⟩, ⟨2, 2, .ro, 0x0, .any⟩, ⟨3, 3, .ro, 0x0, .any⟩, ⟨4, 4, .wo, 0x0, .any⟩, ⟨31, 16, .ro, 0x0, .any⟩]⟩,
  ⟨.cp, true, 0x100, 8, 1, [⟨2, 0, .ro, 0x1, .any⟩, ⟨6, 4, .ro, 0x1, .any⟩, ⟨10, 8, .ro, 0x3, .any⟩, ⟨12, 12, .wo, 0x0, .any⟩, ⟨13, 13, .wo, 0x0, .any⟩, ⟨14, 14, .wo, 0x0, .any⟩, ⟨15, 15, .rwc, 0x0, .any⟩, ⟨63, 32, .ro, 0x1, .any⟩]⟩,
  ⟨.cp, true, 0x108, 8, 1, [⟨31, 0, .rwc, 0x0, .any⟩, ⟨32, 32, .ro, 0x0, .any⟩, ⟨47, 40, .ro, 0x0, .any⟩, ⟨63, 48, .ro, 0x0, .any⟩]⟩,
  ⟨.cp, false, 0x200, 8, 1, [⟨1, 0, .ro, 0x0, .any⟩, ⟨11, 8, .ro, 0x0, .any⟩, ⟨31, 16, .ro, 0x0, .any⟩, ⟨47, 32, .ro, 0x0, .any⟩]⟩,
  ⟨.rst, false, 0x100, 8, 1, [⟨3, 0, .ro, 0x1, .any⟩, ⟨13, 8, .rw1c, 0x0, .any⟩, ⟨25, 16, .ro, 0x0, .any⟩, ⟨63, 32, .ro, 0x0, .any⟩]⟩,
  ⟨.rst, false, 0x108, 8, 1, [⟨3, 0, .ro, 0x0, .any⟩, ⟨4, 4, .ro, 0x0, .any⟩, ⟨5, 5, .ro, 0x0, .any⟩, ⟨12, 8, .ro, 0x0, .any⟩]⟩,
  ⟨.rst, false, 0x110, 8, 1, [⟨1, 0, .rwc, 0x0, .codes [0, 2, 3]⟩, ⟨2, 2, .ro, 0x0, .any⟩, ⟨3, 3, .ro, 0x0, .any⟩, ⟨4, 4, .wo, 0x0, .any⟩, ⟨5, 5, .ro, 0x0, .any⟩, ⟨6, 6, .ro, 0x0, .any⟩, ⟨15, 8, .rwc, 0x3c, .range 10 255⟩, ⟨19, 16, .ro, 0x0, .any⟩]⟩,
  ⟨.rst, false, 0x118, 8, 1, [⟨0, 0, .wo, 0x0, .any⟩, ⟨1, 1, .wo, 0x0, .any⟩, ⟨2, 2, .wo, 0x0, .any⟩, ⟨15, 8, .rwc, 0xa, .any⟩, ⟨19, 16, .ro, 0x0, .any⟩, ⟨20, 20, .ro, 0x0, .any⟩]⟩,
  ⟨.rst, false, 0x120, 8, 1, [⟨0, 0, .wo, 0x0, .any⟩, ⟨25, 16, .rwc, 0x32, .range 1 1000⟩]⟩,
  ⟨.rst, false, 0x128, 8, 1, [⟨9, 0, .rwc, 0x0, .any⟩, ⟨10, 10, .wo, 0x0, .any⟩, ⟨11, 11, .ro, 0x0, .any⟩, ⟨14, 12, .ro, 0x0, .any⟩, ⟨31, 16, .rwc, 0x400, .range 16 65535⟩]⟩,
  ⟨.rst, false, 0x130, 8, 1, [⟨15, 0, .rwc, 0xa, .range 1 60000⟩, ⟨31, 16, .rwc, 0xa, .range 1 60000⟩, ⟨47, 32, .rwc, 0x3e8, .range 1 60000⟩, ⟨55, 48, .rwc, 0x80, .any⟩, ⟨63, 56, .rwc, 0xa, .range 1 255⟩]⟩,
  ⟨.rst, false, 0x138, 8, 1, [⟨31, 0, .rwc, 0x0, .any⟩, ⟨41, 32, .rwc, 0x0, .range 0 672⟩, ⟨42, 42, .rwc, 0x0, .any⟩, ⟨43, 43, .wo, 0x0, .any⟩, ⟨57, 48, .ro, 0x0, .any⟩, ⟨63, 58, .ro, 0x0, .any⟩]⟩,
  ⟨.rst, false, 0x200, 8, 16, [⟨63, 0, .rwc, 0x0, .any⟩]⟩,
  ⟨.sec, false, 0x100, 8, 1, [⟨7, 0, .rwc, 0x0, .any⟩, ⟨9, 8, .rwc, 0x0, .codes [1, 2]⟩, ⟨10, 10, .wo, 0x0, .any⟩, ⟨11, 11, .ro, 0x1, .any⟩, ⟨13, 12, .ro, 0x0, .any⟩]⟩]

/-- Register descriptions, part 4, in the order of the chapters. -/
def regTable4 : List RegDesc := [
  ⟨.sec, false, 0x110, 8, 1, [⟨0, 0, .rwc, 0x0, .any⟩, ⟨3, 1, .ro, 0x0, .any⟩, ⟨11, 8, .ro, 0x0, .any⟩]⟩,
  ⟨.sec, false, 0x400, 16, 8, [⟨63, 0, .rwc, 0x0, .any⟩]⟩,
  ⟨.sec, false, 0x408, 16, 8, [⟨0, 0, .rwc, 0x0, .any⟩, ⟨15, 8, .rwc, 0x0, .any⟩, ⟨63, 16, .ro, 0x0, .any⟩]⟩,
  ⟨.sec, false, 0x200, 8, 1, [⟨15, 0, .rwc, 0x0, .any⟩, ⟨17, 16, .rwc, 0x0, .any⟩, ⟨18, 18, .wo, 0x0, .any⟩, ⟨19, 19, .ro, 0x0, .any⟩, ⟨23, 20, .ro, 0x0, .any⟩, ⟨30, 24, .ro, 0x0, .any⟩]⟩,
  ⟨.any, false, 0xf00, 8, 16, [⟨47, 0, .rwc, 0x0, .any⟩]⟩,
  ⟨.any, false, 0xf80, 8, 16, [⟨7, 0, .rwc, 0x0, .any⟩, ⟨9, 8, .rwc, 0x0, .any⟩, ⟨10, 10, .rwc, 0x0, .any⟩, ⟨11, 11, .rwc, 0x0, .any⟩, ⟨12, 12, .rw1c, 0x0, .any⟩, ⟨31, 16, .rwc, 0x0, .any⟩, ⟨47, 32, .rwc, 0x0, .any⟩]⟩,
  ⟨.beat, false, 0x200, 8, 1, [⟨0, 0, .rwc, 0x0, .any⟩, ⟨1, 1, .ro, 0x0, .any⟩, ⟨12, 8, .rwc, 0x0, .any⟩]⟩,
  ⟨.beat, false, 0x208, 8, 1, [⟨63, 0, .rwc, 0x0, .any⟩]⟩,
  ⟨.beat, false, 0x210, 8, 1, [⟨63, 0, .rwc, 0x0, .any⟩]⟩,
  ⟨.beat, false, 0x300, 8, 2, [⟨31, 0, .rwc, 0x0, .any⟩, ⟨47, 32, .rwc, 0x1, .range 1 65535⟩, ⟨55, 48, .rwc, 0xc0, .any⟩, ⟨56, 56, .rwc, 0x0, .any⟩]⟩,
  ⟨.beat, false, 0x310, 8, 2, [⟨25, 0, .ro, 0x0, .any⟩, ⟨57, 32, .rwc, 0x0, .any⟩]⟩,
  ⟨.home, true, 0x2d0, 8, 1, [⟨9, 0, .rwc, 0xa, .range 1 1000⟩]⟩,
  ⟨.home, true, 0x1000, 8, 256, [⟨15, 0, .rwc, 0x0, .any⟩, ⟨16, 16, .rwc, 0x0, .any⟩]⟩,
  ⟨.any, false, 0xe00, 8, 1, [⟨3, 0, .ro, 0x0, .any⟩, ⟨13, 4, .ro, 0x0, .any⟩, ⟨23, 14, .ro, 0x0, .any⟩, ⟨31, 24, .ro, 0x1, .any⟩]⟩,
  ⟨.any, false, 0xe08, 8, 1, [⟨0, 0, .ro, 0x0, .any⟩, ⟨1, 1, .ro, 0x0, .any⟩, ⟨2, 2, .ro, 0x0, .any⟩, ⟨3, 3, .rw1c, 0x0, .any⟩, ⟨47, 16, .ro, 0x0, .any⟩]⟩,
  ⟨.any, false, 0xe10, 8, 1, [⟨63, 0, .rw1c, 0x0, .any⟩]⟩,
  ⟨.any, false, 0xe18, 8, 1, [⟨63, 0, .rwc, 0xffffffffffffffff, .any⟩]⟩,
  ⟨.any, false, 0xe20, 8, 1, [⟨31, 0, .ro, 0x0, .any⟩]⟩,
  ⟨.any, false, 0xe28, 8, 1, [⟨47, 0, .ro, 0x0, .any⟩]⟩,
  ⟨.rst, false, 0x140, 8, 1, [⟨7, 0, .ro, 0xa1, .any⟩, ⟨15, 8, .ro, 0x7, .any⟩, ⟨31, 16, .ro, 0x5447, .any⟩, ⟨39, 32, .ro, 0x40, .any⟩]⟩,
  ⟨.rst, false, 0x300, 8, 1, [⟨5, 0, .ro, 0x0, .any⟩, ⟨6, 6, .rw1c, 0x0, .any⟩, ⟨7, 7, .rwc, 0x1, .any⟩, ⟨47, 16, .ro, 0x0, .any⟩]⟩,
  ⟨.home, true, 0x220, 8, 1, [⟨8, 0, .rwc, 0x32, .range 1 500⟩]⟩,
  ⟨.home, true, 0x230, 8, 1, [⟨31, 0, .rwc, 0x0, .any⟩, ⟨47, 32, .rwc, 0x1, .range 1 65535⟩]⟩,
  ⟨.home, true, 0x238, 8, 1, [⟨25, 0, .ro, 0x0, .any⟩, ⟨57, 32, .rwc, 0x0, .any⟩]⟩,
  ⟨.home, true, 0x228, 8, 1, [⟨5, 0, .rwc, 0x0, .any⟩, ⟨15, 8, .rwc, 0x0, .any⟩, ⟨16, 16, .wo, 0x0, .any⟩]⟩,
  ⟨.xbar, true, 0x700, 8, 4, [⟨63, 0, .rwc, 0x0, .any⟩]⟩,
  ⟨.xbar, true, 0x720, 8, 1, [⟨12, 0, .rwc, 0x0, .any⟩, ⟨14, 13, .rwc, 0x0, .codes [1, 2]⟩, ⟨15, 15, .wo, 0x0, .any⟩, ⟨16, 16, .ro, 0x0, .any⟩]⟩]

/-- Every register of the chapters' register maps. -/
def regTable : List RegDesc := regTable1 ++ regTable2 ++ regTable3 ++ regTable4

/-- The description of the register at an offset of a block (R502); none where the offset holds no mapped register. -/
def findReg (t : BlkType) (inst off : Nat) : Option RegDesc :=
  regTable.find? fun r =>
    (decide (r.blk = t) || decide (r.blk = .any)) && (!r.only0 || inst == 0) &&
      decide (r.off ≤ off) && decide ((off - r.off) % r.stride = 0) && decide ((off - r.off) / r.stride < r.count) &&
      (!(decide (t = .fport) && r.off == 0x180) || inst % 8 == 0)

/-- Reset value of a word as its fields state it. -/
def descReset (r : RegDesc) : Nat := r.fields.foldl (fun w f => w + f.reset * 2 ^ f.lo) 0

/-- Column and row of a tile (R11). -/
def tileX (i : Nat) : Nat := i % 28
def tileY (i : Nat) : Nat := i / 28

/-- Compute die of a tile (R11). -/
def tileDie (i : Nat) : Nat := (if tileX i < 14 then 0 else 1) + (if tileY i < 12 then 0 else 2)

/-- Spare group of a tile (R206): 4 × die + band. -/
def spareGroup (i : Nat) : Nat := 4 * tileDie i + (tileY i % 12) / 3

/-- Is the position one of the 32 spares (R206)? -/
def isSparePos (i : Nat) : Bool :=
  decide (tileY i % 3 = 1) && (decide (tileX i = 6) || decide (tileX i = 7) || decide (tileX i = 20) || decide (tileX i = 21))

/-- One entry of the default DRAM plan of Table DRM-6, in the encoding of Table DRM-5. -/
def defaultPlanEntry (pos : Nat) : Nat :=
  if pos % 2 = 0 then
    let x := pos / 8
    1 + (x / 4) * 2 ^ 4 + (x % 4) * 2 ^ 5 + 2 ^ 8
  else if pos % 8 = 7 then
    let x := ((pos + 64 - 15) % 64) / 8
    2 + (x / 4) * 2 ^ 4 + (x % 4) * 2 ^ 5
  else if pos = 1 then 3 else 0

/-- Reset value of the word at an offset of a block that lies in no register map: plan arrays (R137, R194, R230, R383),
else zero. -/
def arrayReset (t : BlkType) (off : Nat) : Nat :=
  match t with
  | .dch => if 0x800 ≤ off ∧ off < 0xC00 then
      let e := (off % 0x200) / 4
      defaultPlanEntry (e % 64) + defaultPlanEntry ((e + 1) % 64) * 2 ^ 32
    else 0
  | .fport => if 0x1000 ≤ off ∧ off < 0x1800 then 2 ^ 64 - 1 else 0
  | _ => 0

/-- Reset value of a control-space word (the offset aligned on 8). -/
def resetWord (csa : Nat) : Word :=
  let w := csa / 0x100000
  let off := csa % 0x100000
  let (t, i) := blkOfWindow w
  BitVec.ofNat 64 (
    if off = 0xE00 then blkTypeCode t + w * 2 ^ 4 + i * 2 ^ 14 + 2 ^ 24
    else if t = .tile ∧ off = 0x100 then
      if isSparePos i then 1 + 0x3FF * 2 ^ 16 + spareGroup i * 2 ^ 32 else i * 2 ^ 16 + spareGroup i * 2 ^ 32
    else if t = .home ∧ off = 0x2C0 then i * 2 ^ 16
    else if t = .fport ∧ off = 0x110 then endId i
    else match findReg t i off with
      | some r => descReset r
      | none => arrayReset t off)

/-- Is the word at an offset an entry of an array outside the register maps: plans, the error log, the clamp report,
retained memory?  The second part says whether firmware may write it. -/
def arrayWord (t : BlkType) (off : Nat) : Option Bool :=
  match t with
  | .dch => if 0x800 ≤ off ∧ off < 0xA00 then some true
    else if 0xA00 ≤ off ∧ off < 0xE00 then some false else none
  | .tile => if 0x4000 ≤ off ∧ off < 0x6800 then some false
    else if 0x8000 ≤ off ∧ off < 0xA800 then some false else none
  | .home => if 0x4000 ≤ off ∧ off < 0x4800 then some false
    else if 0x8000 ≤ off ∧ off < 0x8800 then some false else none
  | .fport => if 0x1000 ≤ off ∧ off < 0x1400 then some true
    else if 0x1400 ≤ off ∧ off < 0x1800 then some false else none
  | .rst => if 0x400 ≤ off ∧ off < 0xC00 then some false
    else if 0x40000 ≤ off ∧ off < 0x80000 then some true else none
  | _ => none

/-- Reserved bits of an array word: of its plan entries (Tables DRM-5, TIL-2, PAT-4). -/
def arrayReserved (t : BlkType) (off : Nat) : Nat :=
  match t with
  | .dch => if 0x800 ≤ off ∧ off < 0xC00 then 0xFFFE0000FFFE0000 else 0
  | .tile => 0xE000E000E000E000
  | .home => 0xF800F800F800F800
  | _ => 0

end Sys2Proof.Machine
end

