-- ==== Sys2Proof/Machine/Fields.lean ====
section
/-! DEFINITION. One name per field of the control-space registers: block, register, field. `i` is the instance,
`n` the index of a register array, `b` the global block index of a header or counter register. -/

namespace Sys2Proof.Machine.F

def beatNowCount : Fld := ⟨0x35b00000 + 0x0, 63, 0⟩
def pwrFstepCtlCur : Fld := ⟨0x35d00000 + 0x100, 1, 0⟩
def pwrFstepCtlTarget : Fld := ⟨0x35d00000 + 0x100, 3, 2⟩
def pwrFstepCtlPending : Fld := ⟨0x35d00000 + 0x100, 8, 8⟩
def pwrFstepCtlThermal : Fld := ⟨0x35d00000 + 0x100, 9, 9⟩
def pwrFstepCtlCeil : Fld := ⟨0x35d00000 + 0x100, 11, 10⟩
def pwrFstepAtBeat : Fld := ⟨0x35d00000 + 0x108, 63, 0⟩
def homeXltBaseSpt : Fld := ⟨0x2a000000 + 0x200, 31, 0⟩
def homeXltBaseRgt : Fld := ⟨0x2a000000 + 0x200, 63, 32⟩
def homePwtBasePwt : Fld := ⟨0x2a000000 + 0x208, 31, 0⟩
def homeRgnCmdRegion : Fld := ⟨0x2a000000 + 0x210, 15, 0⟩
def homeRgnCmdOp : Fld := ⟨0x2a000000 + 0x210, 17, 16⟩
def homeRgnCmdGo : Fld := ⟨0x2a000000 + 0x210, 18, 18⟩
def homeRgnCmdBusy : Fld := ⟨0x2a000000 + 0x210, 19, 19⟩
def homeRgnCmdStatus : Fld := ⟨0x2a000000 + 0x210, 23, 20⟩
def homeXltInvSpace : Fld := ⟨0x2a000000 + 0x218, 9, 0⟩
def homeXltInvAll : Fld := ⟨0x2a000000 + 0x218, 10, 10⟩
def homeXltInvGo : Fld := ⟨0x2a000000 + 0x218, 11, 11⟩
def homeXltInvBusy : Fld := ⟨0x2a000000 + 0x218, 12, 12⟩
def homeXltInvDone : Fld := ⟨0x2a000000 + 0x218, 13, 13⟩
def homeXltInvBase : Fld := ⟨0x2a000000 + 0x218, 47, 16⟩
def homeXltInvCount : Fld := ⟨0x2a000000 + 0x218, 63, 48⟩
def xbarFrzCmdHost : Fld := ⟨0x35000000 + 0x300, 11, 0⟩
def xbarFrzCmdAction : Fld := ⟨0x35000000 + 0x300, 13, 12⟩
def xbarFrzCmdGo : Fld := ⟨0x35000000 + 0x300, 14, 14⟩
def xbarFrzCmdState : Fld := ⟨0x35000000 + 0x300, 17, 16⟩
def xbarFrzCmdCause : Fld := ⟨0x35000000 + 0x300, 20, 18⟩
def xbarFrzCmdHeld : Fld := ⟨0x35000000 + 0x300, 47, 32⟩
def xbarFrzCmdDropped : Fld := ⟨0x35000000 + 0x300, 63, 48⟩
def homeCohCtlEonread : Fld := ⟨0x2a000000 + 0x280, 0, 0⟩
def homeCohCtlAtomPol : Fld := ⟨0x2a000000 + 0x280, 2, 1⟩
def homeCohCtlFwdEn : Fld := ⟨0x2a000000 + 0x280, 8, 8⟩
def homeCohCtlSnpTmo : Fld := ⟨0x2a000000 + 0x280, 31, 16⟩
def homeCohBinvSpace : Fld := ⟨0x2a000000 + 0x288, 9, 0⟩
def homeCohBinvGo : Fld := ⟨0x2a000000 + 0x288, 10, 10⟩
def homeCohBinvBusy : Fld := ⟨0x2a000000 + 0x288, 11, 11⟩
def homeCohBinvDone : Fld := ⟨0x2a000000 + 0x288, 12, 12⟩
def homeCohBinvBase : Fld := ⟨0x2a000000 + 0x288, 47, 16⟩
def homeCohBinvCount : Fld := ⟨0x2a000000 + 0x288, 63, 48⟩
def homeCohSlotSlot : Fld := ⟨0x2a000000 + 0x290, 7, 0⟩
def homeCohSlotRevoke : Fld := ⟨0x2a000000 + 0x290, 8, 8⟩
def homeCohSlotValid : Fld := ⟨0x2a000000 + 0x290, 9, 9⟩
def homeCohSlotHost : Fld := ⟨0x2a000000 + 0x290, 27, 16⟩
def homeCohSlotFree : Fld := ⟨0x2a000000 + 0x290, 40, 32⟩
def homeCohStatOpen (i : Nat) : Fld := ⟨(672 + i) * 0x100000 + 0x298, 10, 0⟩
def homeCohStatPend (i : Nat) : Fld := ⟨(672 + i) * 0x100000 + 0x298, 22, 11⟩
def homeCohStatStarve (i : Nat) : Fld := ⟨(672 + i) * 0x100000 + 0x298, 23, 23⟩
def homeCohStatOldest (i : Nat) : Fld := ⟨(672 + i) * 0x100000 + 0x298, 63, 32⟩
def homePubCtlStgBase : Fld := ⟨0x2a000000 + 0x2a0, 31, 0⟩
def homePubCtlStgCount : Fld := ⟨0x2a000000 + 0x2a0, 47, 32⟩
def homePubCtlPinTmo : Fld := ⟨0x2a000000 + 0x2a0, 55, 48⟩
def homePubStatStgFree : Fld := ⟨0x2a000000 + 0x2a8, 15, 0⟩
def homePubStatStagings : Fld := ⟨0x2a000000 + 0x2a8, 28, 16⟩
def homeMirCtlEn : Fld := ⟨0x2a000000 + 0x2b0, 0, 0⟩
def homeMirCtlRole : Fld := ⟨0x2a000000 + 0x2b0, 2, 1⟩
def homeMirCtlAlone : Fld := ⟨0x2a000000 + 0x2b0, 3, 3⟩
def homeMirCtlPportA : Fld := ⟨0x2a000000 + 0x2b0, 9, 4⟩
def homeMirCtlPportB : Fld := ⟨0x2a000000 + 0x2b0, 15, 10⟩
def homeMirCtlAckTmo : Fld := ⟨0x2a000000 + 0x2b0, 31, 16⟩
def dchMapOrder : Fld := ⟨0x2e000000 + 0x400, 1, 0⟩
def dchMapZb1 : Fld := ⟨0x2e000000 + 0x400, 16, 2⟩
def dchMapZb2 : Fld := ⟨0x2e000000 + 0x400, 31, 17⟩
def dchMapZb3 : Fld := ⟨0x2e000000 + 0x400, 46, 32⟩
def dchMapTop : Fld := ⟨0x2e000000 + 0x400, 61, 47⟩
def dchFenceEn (i : Nat) : Fld := ⟨(736 + i) * 0x100000 + 0x100, 0, 0⟩
def dchFencePwrOff (i : Nat) : Fld := ⟨(736 + i) * 0x100000 + 0x100, 1, 1⟩
def dchFenceFull (i : Nat) : Fld := ⟨(736 + i) * 0x100000 + 0x100, 2, 2⟩
def dchFenceState (i : Nat) : Fld := ⟨(736 + i) * 0x100000 + 0x100, 11, 8⟩
def dchFenceCause (i : Nat) : Fld := ⟨(736 + i) * 0x100000 + 0x100, 15, 12⟩
def dchFenceJovf (i : Nat) : Fld := ⟨(736 + i) * 0x100000 + 0x100, 16, 16⟩
def dchFenceFront (i : Nat) : Fld := ⟨(736 + i) * 0x100000 + 0x100, 62, 32⟩
def dchPlanCtlArm (i : Nat) : Fld := ⟨(736 + i) * 0x100000 + 0x200, 0, 0⟩
def dchPlanCtlArmed (i : Nat) : Fld := ⟨(736 + i) * 0x100000 + 0x200, 1, 1⟩
def dchPlanCtlStatus (i : Nat) : Fld := ⟨(736 + i) * 0x100000 + 0x200, 4, 2⟩
def dchPlanCtlBydisp (i : Nat) : Fld := ⟨(736 + i) * 0x100000 + 0x200, 5, 5⟩
def dchPlanCtlFailPos (i : Nat) : Fld := ⟨(736 + i) * 0x100000 + 0x200, 22, 16⟩
def dchPlanAtBeat (i : Nat) : Fld := ⟨(736 + i) * 0x100000 + 0x208, 63, 0⟩
def dchOpenWtHome (i : Nat) : Fld := ⟨(736 + i) * 0x100000 + 0x210, 3, 0⟩
def dchOpenWtPerc (i : Nat) : Fld := ⟨(736 + i) * 0x100000 + 0x210, 7, 4⟩
def dchOpenWtBrush (i : Nat) : Fld := ⟨(736 + i) * 0x100000 + 0x210, 11, 8⟩
def dchOpenWtRebuild (i : Nat) : Fld := ⟨(736 + i) * 0x100000 + 0x210, 15, 12⟩
def dchRefStatDouble (i : Nat) : Fld := ⟨(736 + i) * 0x100000 + 0x300, 0, 0⟩
def dchRefStatForceDouble (i : Nat) : Fld := ⟨(736 + i) * 0x100000 + 0x300, 1, 1⟩
def dchRefStatTemp (i : Nat) : Fld := ⟨(736 + i) * 0x100000 + 0x300, 15, 8⟩
def dchRefStatRefs (i : Nat) : Fld := ⟨(736 + i) * 0x100000 + 0x300, 63, 16⟩
def dchTrainRetrain (i : Nat) : Fld := ⟨(736 + i) * 0x100000 + 0x310, 0, 0⟩
def dchTrainBusy (i : Nat) : Fld := ⟨(736 + i) * 0x100000 + 0x310, 1, 1⟩
def dchTrainMargin (i : Nat) : Fld := ⟨(736 + i) * 0x100000 + 0x310, 15, 8⟩
def dchTrainMarginMin (i : Nat) : Fld := ⟨(736 + i) * 0x100000 + 0x310, 23, 16⟩
def percCtlEn (i : Nat) : Fld := ⟨(852 + i) * 0x100000 + 0x100, 0, 0⟩
def percCtlPause (i : Nat) : Fld := ⟨(852 + i) * 0x100000 + 0x100, 1, 1⟩
def percCtlPaused (i : Nat) : Fld := ⟨(852 + i) * 0x100000 + 0x100, 2, 2⟩
def percCtlCool (i : Nat) : Fld := ⟨(852 + i) * 0x100000 + 0x100, 15, 8⟩
def percCtlEpoch (i : Nat) : Fld := ⟨(852 + i) * 0x100000 + 0x100, 31, 16⟩
def percCtlMinRes (i : Nat) : Fld := ⟨(852 + i) * 0x100000 + 0x100, 47, 32⟩
def percCtlMaxInflight (i : Nat) : Fld := ⟨(852 + i) * 0x100000 + 0x100, 55, 48⟩
def percWmLowWm (i : Nat) : Fld := ⟨(852 + i) * 0x100000 + 0x108, 15, 0⟩
def percWmHighWm (i : Nat) : Fld := ⟨(852 + i) * 0x100000 + 0x108, 31, 16⟩
def percWmDemRate (i : Nat) : Fld := ⟨(852 + i) * 0x100000 + 0x108, 47, 32⟩
def percFreePushFrame (i : Nat) : Fld := ⟨(852 + i) * 0x100000 + 0x110, 31, 0⟩
def percAreaRecBase : Fld := ⟨0x35400000 + 0x118, 31, 0⟩
def percAreaRecLen : Fld := ⟨0x35400000 + 0x118, 63, 32⟩
def percStatCold (i : Nat) : Fld := ⟨(852 + i) * 0x100000 + 0x120, 31, 0⟩
def percStatFree (i : Nat) : Fld := ⟨(852 + i) * 0x100000 + 0x120, 63, 32⟩
def percSramCtlBase : Fld := ⟨0x35400000 + 0x200, 31, 0⟩
def percSramCtlFrames : Fld := ⟨0x35400000 + 0x200, 42, 32⟩
def percSramCtlStgRes : Fld := ⟨0x35400000 + 0x200, 53, 43⟩
def nvpDrvEn (i : Nat) : Fld := ⟨(832 + i) * 0x100000 + 0x100, 0, 0⟩
def nvpDrvRetire (i : Nat) : Fld := ⟨(832 + i) * 0x100000 + 0x100, 1, 1⟩
def nvpDrvSlotOff (i : Nat) : Fld := ⟨(832 + i) * 0x100000 + 0x100, 2, 2⟩
def nvpDrvState (i : Nat) : Fld := ⟨(832 + i) * 0x100000 + 0x100, 10, 8⟩
def nvpDrvCause (i : Nat) : Fld := ⟨(832 + i) * 0x100000 + 0x100, 15, 12⟩
def nvpDrvExtents (i : Nat) : Fld := ⟨(832 + i) * 0x100000 + 0x100, 43, 16⟩
def tileStateState (i : Nat) : Fld := ⟨(0 + i) * 0x100000 + 0x100, 2, 0⟩
def tileStateLost (i : Nat) : Fld := ⟨(0 + i) * 0x100000 + 0x100, 3, 3⟩
def tileStateCause (i : Nat) : Fld := ⟨(0 + i) * 0x100000 + 0x100, 11, 8⟩
def tileStateSite (i : Nat) : Fld := ⟨(0 + i) * 0x100000 + 0x100, 25, 16⟩
def tileStateGroup (i : Nat) : Fld := ⟨(0 + i) * 0x100000 + 0x100, 35, 32⟩
def tileCtlRetire (i : Nat) : Fld := ⟨(0 + i) * 0x100000 + 0x108, 0, 0⟩
def tileCtlReturn (i : Nat) : Fld := ⟨(0 + i) * 0x100000 + 0x108, 1, 1⟩
def tileMbarCount (i : Nat) : Fld := ⟨(0 + i) * 0x100000 + 0x110, 63, 0⟩
def tileMplanArmed (i : Nat) : Fld := ⟨(0 + i) * 0x100000 + 0x200, 0, 0⟩
def tileMplanGroups (i : Nat) : Fld := ⟨(0 + i) * 0x100000 + 0x200, 15, 8⟩
def tileMplanAtBeat (i : Nat) : Fld := ⟨(0 + i) * 0x100000 + 0x208, 63, 0⟩
def tileCongThresh (i : Nat) : Fld := ⟨(0 + i) * 0x100000 + 0x300, 4, 0⟩
def tileCongWmax (i : Nat) : Fld := ⟨(0 + i) * 0x100000 + 0x300, 14, 8⟩
def tileCongW (i : Nat) : Fld := ⟨(0 + i) * 0x100000 + 0x300, 22, 16⟩
def tileCongMarks (i : Nat) : Fld := ⟨(0 + i) * 0x100000 + 0x300, 63, 32⟩
def tileLbPatOwned (i : Nat) : Fld := ⟨(0 + i) * 0x100000 + 0x310, 7, 0⟩
def tileLbLate (i : Nat) : Fld := ⟨(0 + i) * 0x100000 + 0x310, 47, 16⟩
def dispPatImgPtr : Fld := ⟨0x35e00000 + 0x800, 63, 0⟩
def dispPatCmdStrip : Fld := ⟨0x35e00000 + 0x808, 2, 0⟩
def dispPatCmdOp : Fld := ⟨0x35e00000 + 0x808, 4, 3⟩
def dispPatCmdGo : Fld := ⟨0x35e00000 + 0x808, 5, 5⟩
def dispPatCmdBusy : Fld := ⟨0x35e00000 + 0x808, 6, 6⟩
def dispPatCmdStatus : Fld := ⟨0x35e00000 + 0x808, 11, 8⟩
def dispPatCmdFailSect : Fld := ⟨0x35e00000 + 0x808, 15, 12⟩
def dispPatCmdPlace : Fld := ⟨0x35e00000 + 0x808, 23, 16⟩
def dispPatCmdNewplace : Fld := ⟨0x35e00000 + 0x808, 31, 24⟩
def dispPatStatCeil : Fld := ⟨0x35e00000 + 0x810, 1, 0⟩
def dispPatStatCmin : Fld := ⟨0x35e00000 + 0x810, 7, 4⟩
def dispPatStatPlaced : Fld := ⟨0x35e00000 + 0x810, 15, 8⟩
def dispPatCtlHshare : Fld := ⟨0x35e00000 + 0x818, 9, 0⟩
def tileAriFlagsIv (i : Nat) : Fld := ⟨(0 + i) * 0x100000 + 0x320, 0, 0⟩
def tileAriFlagsDz (i : Nat) : Fld := ⟨(0 + i) * 0x100000 + 0x320, 1, 1⟩
def tileAriFlagsOf (i : Nat) : Fld := ⟨(0 + i) * 0x100000 + 0x320, 2, 2⟩
def tileAriFlagsUf (i : Nat) : Fld := ⟨(0 + i) * 0x100000 + 0x320, 3, 3⟩
def tileAriFlagsNx (i : Nat) : Fld := ⟨(0 + i) * 0x100000 + 0x320, 4, 4⟩
def tileAriFlagsSat (i : Nat) : Fld := ⟨(0 + i) * 0x100000 + 0x320, 5, 5⟩
def dispOpsCtlEn : Fld := ⟨0x35e00000 + 0x900, 0, 0⟩
def dispOpsCtlPaMax : Fld := ⟨0x35e00000 + 0x900, 13, 8⟩
def dispOpsStatInst : Fld := ⟨0x35e00000 + 0x908, 12, 0⟩
def dispOpsStatJobs : Fld := ⟨0x35e00000 + 0x908, 26, 16⟩
def dispOpsStatWait : Fld := ⟨0x35e00000 + 0x908, 44, 32⟩
def dispOpsStatPaRun : Fld := ⟨0x35e00000 + 0x908, 53, 48⟩
def dispJobKillJob : Fld := ⟨0x35e00000 + 0x910, 15, 0⟩
def dispJobKillTenant : Fld := ⟨0x35e00000 + 0x910, 23, 16⟩
def dispJobKillGo : Fld := ⟨0x35e00000 + 0x910, 24, 24⟩
def dispJobKillBusy : Fld := ⟨0x35e00000 + 0x910, 25, 25⟩
def dispJobKillCount : Fld := ⟨0x35e00000 + 0x910, 44, 32⟩
def fportLctlWmask (i : Nat) : Fld := ⟨(768 + i) * 0x100000 + 0x100, 3, 0⟩
def fportLctlRate (i : Nat) : Fld := ⟨(768 + i) * 0x100000 + 0x100, 5, 4⟩
def fportLctlRetrain (i : Nat) : Fld := ⟨(768 + i) * 0x100000 + 0x100, 6, 6⟩
def fportLctlDisable (i : Nat) : Fld := ⟨(768 + i) * 0x100000 + 0x100, 7, 7⟩
def fportLctlAutow (i : Nat) : Fld := ⟨(768 + i) * 0x100000 + 0x100, 8, 8⟩
def fportLctlGrace (i : Nat) : Fld := ⟨(768 + i) * 0x100000 + 0x100, 28, 16⟩
def fportLctlCsymMax (i : Nat) : Fld := ⟨(768 + i) * 0x100000 + 0x100, 47, 32⟩
def fportLstatState (i : Nat) : Fld := ⟨(768 + i) * 0x100000 + 0x108, 2, 0⟩
def fportLstatTxmask (i : Nat) : Fld := ⟨(768 + i) * 0x100000 + 0x108, 7, 4⟩
def fportLstatRxmask (i : Nat) : Fld := ⟨(768 + i) * 0x100000 + 0x108, 11, 8⟩
def fportLstatRate (i : Nat) : Fld := ⟨(768 + i) * 0x100000 + 0x108, 12, 12⟩
def fportLstatWbusy (i : Nat) : Fld := ⟨(768 + i) * 0x100000 + 0x108, 13, 13⟩
def fportLstatWres (i : Nat) : Fld := ⟨(768 + i) * 0x100000 + 0x108, 15, 14⟩
def fportLstatCause (i : Nat) : Fld := ⟨(768 + i) * 0x100000 + 0x108, 19, 16⟩
def fportLstatRtt (i : Nat) : Fld := ⟨(768 + i) * 0x100000 + 0x108, 63, 32⟩
def fportEndIdId (i : Nat) : Fld := ⟨(768 + i) * 0x100000 + 0x110, 63, 0⟩
def fportPeerIdId (i : Nat) : Fld := ⟨(768 + i) * 0x100000 + 0x118, 63, 0⟩
def fportLaserActive (g : Nat) : Fld := ⟨(768 + 8 * g) * 0x100000 + 0x180, 0, 0⟩
def fportLaserAok (g : Nat) : Fld := ⟨(768 + 8 * g) * 0x100000 + 0x180, 1, 1⟩
def fportLaserBok (g : Nat) : Fld := ⟨(768 + 8 * g) * 0x100000 + 0x180, 2, 2⟩
def fportLaserPresent (g : Nat) : Fld := ⟨(768 + 8 * g) * 0x100000 + 0x180, 3, 3⟩
def fportLaserSwap (g : Nat) : Fld := ⟨(768 + 8 * g) * 0x100000 + 0x180, 4, 4⟩
def fportLaserFailovers (g : Nat) : Fld := ⟨(768 + 8 * g) * 0x100000 + 0x180, 31, 16⟩
def xbarIdemBase : Fld := ⟨0x35000000 + 0x400, 31, 0⟩
def xbarIdemEn : Fld := ⟨0x35000000 + 0x400, 32, 32⟩
def xbarLfPermTen (n : Nat) : Fld := ⟨0x35000000 + 0x410 + 8 * n, 63, 0⟩
def xbarKnellEn : Fld := ⟨0x35000000 + 0x430, 0, 0⟩
def xbarKnellHops : Fld := ⟨0x35000000 + 0x430, 3, 1⟩
def xbarKnellSent : Fld := ⟨0x35000000 + 0x430, 47, 32⟩
def xbarKnellActed : Fld := ⟨0x35000000 + 0x430, 63, 48⟩
def xbarKnellPortsPorts : Fld := ⟨0x35000000 + 0x438, 63, 0⟩
def xbarHostCtlHost : Fld := ⟨0x35000000 + 0x440, 11, 0⟩
def xbarHostCtlAction : Fld := ⟨0x35000000 + 0x440, 13, 12⟩
def xbarHostCtlPort : Fld := ⟨0x35000000 + 0x440, 19, 14⟩
def xbarHostCtlGo : Fld := ⟨0x35000000 + 0x440, 20, 20⟩
def xbarHostStatRport : Fld := ⟨0x35000000 + 0x448, 5, 0⟩
def xbarHostStatPinned : Fld := ⟨0x35000000 + 0x448, 6, 6⟩
def xbarHostStatLease : Fld := ⟨0x35000000 + 0x448, 8, 7⟩
def xbarHostStatCoh : Fld := ⟨0x35000000 + 0x448, 9, 9⟩
def xbarHostStatSlot : Fld := ⟨0x35000000 + 0x448, 17, 10⟩
def xbarHostStatEpoch : Fld := ⟨0x35000000 + 0x448, 25, 18⟩
def xbarHostStatRenew : Fld := ⟨0x35000000 + 0x448, 63, 32⟩
def xbarPolCmdHost : Fld := ⟨0x35000000 + 0x500, 11, 0⟩
def xbarPolCmdOp : Fld := ⟨0x35000000 + 0x500, 13, 12⟩
def xbarPolCmdGo : Fld := ⟨0x35000000 + 0x500, 14, 14⟩
def xbarPolCmdBusy : Fld := ⟨0x35000000 + 0x500, 15, 15⟩
def xbarPolDataWord (n : Nat) : Fld := ⟨0x35000000 + 0x508 + 8 * n, 63, 0⟩
def xbarCongEn : Fld := ⟨0x35000000 + 0x520, 0, 0⟩
def xbarCongThresh : Fld := ⟨0x35000000 + 0x520, 4, 1⟩
def xbarCongSmax : Fld := ⟨0x35000000 + 0x520, 7, 5⟩
def xbarCongDecay : Fld := ⟨0x35000000 + 0x520, 15, 8⟩
def fportShapeEn (i : Nat) : Fld := ⟨(768 + i) * 0x100000 + 0x200, 0, 0⟩
def fportShapeRate (i : Nat) : Fld := ⟨(768 + i) * 0x100000 + 0x200, 27, 8⟩
def fportShapeBurst (i : Nat) : Fld := ⟨(768 + i) * 0x100000 + 0x200, 55, 32⟩
def fportIngOvh (i : Nat) : Fld := ⟨(768 + i) * 0x100000 + 0x208, 7, 0⟩
def fportGateCtlArm (i : Nat) : Fld := ⟨(768 + i) * 0x100000 + 0x210, 0, 0⟩
def fportGateCtlArmed (i : Nat) : Fld := ⟨(768 + i) * 0x100000 + 0x210, 1, 1⟩
def fportGateCtlRefused (i : Nat) : Fld := ⟨(768 + i) * 0x100000 + 0x210, 2, 2⟩
def fportGateAtBeat (i : Nat) : Fld := ⟨(768 + i) * 0x100000 + 0x218, 63, 0⟩
def dchErrMax (i : Nat) : Fld := ⟨(736 + i) * 0x100000 + 0x320, 15, 0⟩
def dchErrSfen (i : Nat) : Fld := ⟨(736 + i) * 0x100000 + 0x320, 16, 16⟩
def dchErrLines (i : Nat) : Fld := ⟨(736 + i) * 0x100000 + 0x320, 63, 32⟩
def dchElogCtlHead (i : Nat) : Fld := ⟨(736 + i) * 0x100000 + 0x328, 4, 0⟩
def dchElogCtlOvf (i : Nat) : Fld := ⟨(736 + i) * 0x100000 + 0x328, 5, 5⟩
def dchElogCtlTotal (i : Nat) : Fld := ⟨(736 + i) * 0x100000 + 0x328, 47, 16⟩
def brushCtlEn (i : Nat) : Fld := ⟨(850 + i) * 0x100000 + 0x100, 0, 0⟩
def brushCtlOpenMax (i : Nat) : Fld := ⟨(850 + i) * 0x100000 + 0x100, 3, 1⟩
def brushCtlLapTgt (i : Nat) : Fld := ⟨(850 + i) * 0x100000 + 0x100, 23, 8⟩
def brushLapLast (i : Nat) : Fld := ⟨(850 + i) * 0x100000 + 0x108, 31, 0⟩
def brushLapLaps (i : Nat) : Fld := ⟨(850 + i) * 0x100000 + 0x108, 47, 32⟩
def brushLapProg (i : Nat) : Fld := ⟨(850 + i) * 0x100000 + 0x108, 63, 48⟩
def brushZeroFrame (i : Nat) : Fld := ⟨(850 + i) * 0x100000 + 0x110, 31, 0⟩
def brushZeroPending (i : Nat) : Fld := ⟨(850 + i) * 0x100000 + 0x110, 47, 32⟩
def brushZeroDone (i : Nat) : Fld := ⟨(850 + i) * 0x100000 + 0x110, 63, 48⟩
def brushPstatQueued (i : Nat) : Fld := ⟨(850 + i) * 0x100000 + 0x118, 16, 0⟩
def brushPstatHold (i : Nat) : Fld := ⟨(850 + i) * 0x100000 + 0x118, 17, 17⟩
def brushPstatDone (i : Nat) : Fld := ⟨(850 + i) * 0x100000 + 0x118, 63, 32⟩
def homeHavlFail (i : Nat) : Fld := ⟨(672 + i) * 0x100000 + 0x2c0, 0, 0⟩
def homeHavlReturn (i : Nat) : Fld := ⟨(672 + i) * 0x100000 + 0x2c0, 1, 1⟩
def homeHavlState (i : Nat) : Fld := ⟨(672 + i) * 0x100000 + 0x2c0, 9, 8⟩
def homeHavlCause (i : Nat) : Fld := ⟨(672 + i) * 0x100000 + 0x2c0, 15, 12⟩
def homeHavlServer (i : Nat) : Fld := ⟨(672 + i) * 0x100000 + 0x2c0, 21, 16⟩
def homeMirSyncGo : Fld := ⟨0x2a000000 + 0x2b8, 0, 0⟩
def homeMirSyncBusy : Fld := ⟨0x2a000000 + 0x2b8, 1, 1⟩
def homeMirSyncDone : Fld := ⟨0x2a000000 + 0x2b8, 2, 2⟩
def homeMirSyncOrderer : Fld := ⟨0x2a000000 + 0x2b8, 3, 3⟩
def homeMirSyncHandoff : Fld := ⟨0x2a000000 + 0x2b8, 4, 4⟩
def homeMirSyncProg : Fld := ⟨0x2a000000 + 0x2b8, 31, 16⟩
def cpTrioRole0 : Fld := ⟨0x35600000 + 0x100, 2, 0⟩
def cpTrioRole1 : Fld := ⟨0x35600000 + 0x100, 6, 4⟩
def cpTrioRole2 : Fld := ⟨0x35600000 + 0x100, 10, 8⟩
def cpTrioRotate : Fld := ⟨0x35600000 + 0x100, 12, 12⟩
def cpTrioStbyReload : Fld := ⟨0x35600000 + 0x100, 13, 13⟩
def cpTrioPairReload : Fld := ⟨0x35600000 + 0x100, 14, 14⟩
def cpTrioRslot : Fld := ⟨0x35600000 + 0x100, 15, 15⟩
def cpTrioClaim : Fld := ⟨0x35600000 + 0x100, 63, 32⟩
def cpCkptBase : Fld := ⟨0x35600000 + 0x108, 31, 0⟩
def cpCkptNewest : Fld := ⟨0x35600000 + 0x108, 32, 32⟩
def cpCkptLogfill : Fld := ⟨0x35600000 + 0x108, 47, 40⟩
def cpCkptAge : Fld := ⟨0x35600000 + 0x108, 63, 48⟩
def cpCupState (i : Nat) : Fld := ⟨(854 + i) * 0x100000 + 0x200, 1, 0⟩
def cpCupLastFail (i : Nat) : Fld := ⟨(854 + i) * 0x100000 + 0x200, 11, 8⟩
def cpCupPasses (i : Nat) : Fld := ⟨(854 + i) * 0x100000 + 0x200, 31, 16⟩
def cpCupFails (i : Nat) : Fld := ⟨(854 + i) * 0x100000 + 0x200, 47, 32⟩
def rstCauseLast : Fld := ⟨0x35c00000 + 0x100, 3, 0⟩
def rstCauseHist : Fld := ⟨0x35c00000 + 0x100, 13, 8⟩
def rstCauseFblk : Fld := ⟨0x35c00000 + 0x100, 25, 16⟩
def rstCauseFbeat : Fld := ⟨0x35c00000 + 0x100, 63, 32⟩
def rstStrapBand : Fld := ⟨0x35c00000 + 0x108, 3, 0⟩
def rstStrapFault : Fld := ⟨0x35c00000 + 0x108, 4, 4⟩
def rstStrapSafe : Fld := ⟨0x35c00000 + 0x108, 5, 5⟩
def rstStrapK : Fld := ⟨0x35c00000 + 0x108, 12, 8⟩
def rstBootNext : Fld := ⟨0x35c00000 + 0x110, 1, 0⟩
def rstBootUsed : Fld := ⟨0x35c00000 + 0x110, 2, 2⟩
def rstBootFallback : Fld := ⟨0x35c00000 + 0x110, 3, 3⟩
def rstBootOk : Fld := ⟨0x35c00000 + 0x110, 4, 4⟩
def rstBootConfirmed : Fld := ⟨0x35c00000 + 0x110, 5, 5⟩
def rstBootFail : Fld := ⟨0x35c00000 + 0x110, 6, 6⟩
def rstBootTmo : Fld := ⟨0x35c00000 + 0x110, 15, 8⟩
def rstBootUnconf : Fld := ⟨0x35c00000 + 0x110, 19, 16⟩
def rstCtlWarm : Fld := ⟨0x35c00000 + 0x118, 0, 0⟩
def rstCtlRestart : Fld := ⟨0x35c00000 + 0x118, 1, 1⟩
def rstCtlTrain : Fld := ⟨0x35c00000 + 0x118, 2, 2⟩
def rstCtlAuto : Fld := ⟨0x35c00000 + 0x118, 15, 8⟩
def rstCtlStage : Fld := ⟨0x35c00000 + 0x118, 19, 16⟩
def rstCtlHalted : Fld := ⟨0x35c00000 + 0x118, 20, 20⟩
def rstWdogKick : Fld := ⟨0x35c00000 + 0x120, 0, 0⟩
def rstWdogLimit : Fld := ⟨0x35c00000 + 0x120, 25, 16⟩
def rstBlkTarget : Fld := ⟨0x35c00000 + 0x128, 9, 0⟩
def rstBlkGo : Fld := ⟨0x35c00000 + 0x128, 10, 10⟩
def rstBlkForced : Fld := ⟨0x35c00000 + 0x128, 11, 11⟩
def rstBlkState : Fld := ⟨0x35c00000 + 0x128, 14, 12⟩
def rstBlkTmo : Fld := ⟨0x35c00000 + 0x128, 31, 16⟩
def rstHangPhaseTmo : Fld := ⟨0x35c00000 + 0x130, 15, 0⟩
def rstHangGateTmo : Fld := ⟨0x35c00000 + 0x130, 31, 16⟩
def rstHangWaitTmo : Fld := ⟨0x35c00000 + 0x130, 47, 32⟩
def rstHangHomeTmo : Fld := ⟨0x35c00000 + 0x130, 55, 48⟩
def rstHangLinkTmo : Fld := ⟨0x35c00000 + 0x130, 63, 56⟩
def rstDumpBase : Fld := ⟨0x35c00000 + 0x138, 31, 0⟩
def rstDumpSlots : Fld := ⟨0x35c00000 + 0x138, 41, 32⟩
def rstDumpEn : Fld := ⟨0x35c00000 + 0x138, 42, 42⟩
def rstDumpFree : Fld := ⟨0x35c00000 + 0x138, 43, 43⟩
def rstDumpUsed : Fld := ⟨0x35c00000 + 0x138, 57, 48⟩
def rstDumpSkipped : Fld := ⟨0x35c00000 + 0x138, 63, 58⟩
def rstBkpData (n : Nat) : Fld := ⟨0x35c00000 + 0x200 + 8 * n, 63, 0⟩
def secTenCmdTenant : Fld := ⟨0x35900000 + 0x100, 7, 0⟩
def secTenCmdOp : Fld := ⟨0x35900000 + 0x100, 9, 8⟩
def secTenCmdGo : Fld := ⟨0x35900000 + 0x100, 10, 10⟩
def secTenCmdDone : Fld := ⟨0x35900000 + 0x100, 11, 11⟩
def secTenCmdState : Fld := ⟨0x35900000 + 0x100, 13, 12⟩
def secPartCtlEn : Fld := ⟨0x35900000 + 0x110, 0, 0⟩
def secPartCtlStatus : Fld := ⟨0x35900000 + 0x110, 3, 1⟩
def secPartCtlNp : Fld := ⟨0x35900000 + 0x110, 11, 8⟩
def secPartPorts (n : Nat) : Fld := ⟨0x35900000 + 0x400 + 16 * n, 63, 0⟩
def secPartEn (n : Nat) : Fld := ⟨0x35900000 + 0x408 + 16 * n, 0, 0⟩
def secPartStrips (n : Nat) : Fld := ⟨0x35900000 + 0x408 + 16 * n, 15, 8⟩
def secPartDrops (n : Nat) : Fld := ⟨0x35900000 + 0x408 + 16 * n, 63, 16⟩
def secMeasCmdRegion : Fld := ⟨0x35900000 + 0x200, 15, 0⟩
def secMeasCmdOp : Fld := ⟨0x35900000 + 0x200, 17, 16⟩
def secMeasCmdGo : Fld := ⟨0x35900000 + 0x200, 18, 18⟩
def secMeasCmdBusy : Fld := ⟨0x35900000 + 0x200, 19, 19⟩
def secMeasCmdStatus : Fld := ⟨0x35900000 + 0x200, 23, 20⟩
def secMeasCmdMarked : Fld := ⟨0x35900000 + 0x200, 30, 24⟩
def cntCount (b : Nat) (n : Nat) : Fld := ⟨b * 0x100000 + 0xf00 + 8 * n, 47, 0⟩
def cntCtlEvt (b : Nat) (n : Nat) : Fld := ⟨b * 0x100000 + 0xf80 + 8 * n, 7, 0⟩
def cntCtlMode (b : Nat) (n : Nat) : Fld := ⟨b * 0x100000 + 0xf80 + 8 * n, 9, 8⟩
def cntCtlEn (b : Nat) (n : Nat) : Fld := ⟨b * 0x100000 + 0xf80 + 8 * n, 10, 10⟩
def cntCtlOvie (b : Nat) (n : Nat) : Fld := ⟨b * 0x100000 + 0xf80 + 8 * n, 11, 11⟩
def cntCtlOvf (b : Nat) (n : Nat) : Fld := ⟨b * 0x100000 + 0xf80 + 8 * n, 12, 12⟩
def cntCtlQual (b : Nat) (n : Nat) : Fld := ⟨b * 0x100000 + 0xf80 + 8 * n, 31, 16⟩
def cntCtlQmask (b : Nat) (n : Nat) : Fld := ⟨b * 0x100000 + 0xf80 + 8 * n, 47, 32⟩
def beatTelCtlFrz : Fld := ⟨0x35b00000 + 0x200, 0, 0⟩
def beatTelCtlFrozen : Fld := ⟨0x35b00000 + 0x200, 1, 1⟩
def beatTelCtlTagn : Fld := ⟨0x35b00000 + 0x200, 12, 8⟩
def beatFrzAtBeat : Fld := ⟨0x35b00000 + 0x208, 63, 0⟩
def beatTagSeedSeed : Fld := ⟨0x35b00000 + 0x210, 63, 0⟩
def beatSmpBaseBase (n : Nat) : Fld := ⟨0x35b00000 + 0x300 + 8 * n, 31, 0⟩
def beatSmpBaseLen (n : Nat) : Fld := ⟨0x35b00000 + 0x300 + 8 * n, 47, 32⟩
def beatSmpBaseWm (n : Nat) : Fld := ⟨0x35b00000 + 0x300 + 8 * n, 55, 48⟩
def beatSmpBaseEn (n : Nat) : Fld := ⟨0x35b00000 + 0x300 + 8 * n, 56, 56⟩
def beatSmpPtrHead (n : Nat) : Fld := ⟨0x35b00000 + 0x310 + 8 * n, 25, 0⟩
def beatSmpPtrTail (n : Nat) : Fld := ⟨0x35b00000 + 0x310 + 8 * n, 57, 32⟩
def homeTpageCtlPeriod : Fld := ⟨0x2a000000 + 0x2d0, 9, 0⟩
def homeTpageRegion (n : Nat) : Fld := ⟨0x2a000000 + 0x1000 + 8 * n, 15, 0⟩
def homeTpageEn (n : Nat) : Fld := ⟨0x2a000000 + 0x1000 + 8 * n, 16, 16⟩
def hdrIdType (b : Nat) : Fld := ⟨b * 0x100000 + 0xe00, 3, 0⟩
def hdrIdIndex (b : Nat) : Fld := ⟨b * 0x100000 + 0xe00, 13, 4⟩
def hdrIdInstance (b : Nat) : Fld := ⟨b * 0x100000 + 0xe00, 23, 14⟩
def hdrIdRegver (b : Nat) : Fld := ⟨b * 0x100000 + 0xe00, 31, 24⟩
def hdrStateBusy (b : Nat) : Fld := ⟨b * 0x100000 + 0xe08, 0, 0⟩
def hdrStateInreset (b : Nat) : Fld := ⟨b * 0x100000 + 0xe08, 1, 1⟩
def hdrStateOut (b : Nat) : Fld := ⟨b * 0x100000 + 0xe08, 2, 2⟩
def hdrStateClamped (b : Nat) : Fld := ⟨b * 0x100000 + 0xe08, 3, 3⟩
def hdrStateClamps (b : Nat) : Fld := ⟨b * 0x100000 + 0xe08, 47, 16⟩
def hdrEvtEvt (b : Nat) : Fld := ⟨b * 0x100000 + 0xe10, 63, 0⟩
def hdrEvtEnEn (b : Nat) : Fld := ⟨b * 0x100000 + 0xe18, 63, 0⟩
def hdrClaimClaim (b : Nat) : Fld := ⟨b * 0x100000 + 0xe20, 31, 0⟩
def hdrSeqSeq (b : Nat) : Fld := ⟨b * 0x100000 + 0xe28, 47, 0⟩
def rstDevidStepping : Fld := ⟨0x35c00000 + 0x140, 7, 0⟩
def rstDevidMember : Fld := ⟨0x35c00000 + 0x140, 15, 8⟩
def rstDevidFamily : Fld := ⟨0x35c00000 + 0x140, 31, 16⟩
def rstDevidPorts : Fld := ⟨0x35c00000 + 0x140, 39, 32⟩
def rstClampCtlHead : Fld := ⟨0x35c00000 + 0x300, 5, 0⟩
def rstClampCtlOvf : Fld := ⟨0x35c00000 + 0x300, 6, 6⟩
def rstClampCtlIe : Fld := ⟨0x35c00000 + 0x300, 7, 7⟩
def rstClampCtlTotal : Fld := ⟨0x35c00000 + 0x300, 47, 16⟩
def homeFltTmoTmo : Fld := ⟨0x2a000000 + 0x220, 8, 0⟩
def homeFltQBase : Fld := ⟨0x2a000000 + 0x230, 31, 0⟩
def homeFltQLen : Fld := ⟨0x2a000000 + 0x230, 47, 32⟩
def homeFltQptrHead : Fld := ⟨0x2a000000 + 0x238, 25, 0⟩
def homeFltQptrTail : Fld := ⟨0x2a000000 + 0x238, 57, 32⟩
def homeFltDoneHome : Fld := ⟨0x2a000000 + 0x228, 5, 0⟩
def homeFltDoneIndex : Fld := ⟨0x2a000000 + 0x228, 15, 8⟩
def homeFltDoneGo : Fld := ⟨0x2a000000 + 0x228, 16, 16⟩
def xbarAdmDataWord (n : Nat) : Fld := ⟨0x35000000 + 0x700 + 8 * n, 63, 0⟩
def xbarAdmCmdIndex : Fld := ⟨0x35000000 + 0x720, 12, 0⟩
def xbarAdmCmdOp : Fld := ⟨0x35000000 + 0x720, 14, 13⟩
def xbarAdmCmdGo : Fld := ⟨0x35000000 + 0x720, 15, 15⟩
def xbarAdmCmdBusy : Fld := ⟨0x35000000 + 0x720, 16, 16⟩

end Sys2Proof.Machine.F
end

