-- ==== Sys2Proof/Machine/State.lean ====
section
/-! DEFINITION. The state of the T7 as plain data: every register, queue, table, buffer and mode the spec names, the
queue of waiting commands, the state after reset, and the reasons a step can stop. -/

namespace Sys2Proof.Machine

/-- An asynchronous event waiting for its resolution: beat stamp, class (Table ARC-5), global block index and event
bit in HDR_EVT, `none` where the spec numbers no bit (R21 to R24). -/
structure Event where
  stamp : Nat
  cls : Nat
  blk : Nat
  bit : Option Nat
  deriving DecidableEq, Repr

/-- An event delivered to the control processors with its class and stamp (R508). -/
structure Delivered where
  stamp : Nat
  cls : Nat
  blk : Nat
  bit : Option Nat
  deriving DecidableEq, Repr

/-- A command held by the clapper of a block under reset (R439). -/
structure HeldCmd where
  csa : Nat
  value : Nat
  cmd : Cmd
  deriving DecidableEq, Repr

/-- PWR: what the always-on island's power control holds beside its registers (R25 to R30, R518 to R528). -/
structure Pwr where
  /-- A step change under way: the new step and the beat at which the tile clocks resume. -/
  halt : Option (Nat × Nat)
  /-- A raise in progress: beat of the voltage command. -/
  raiseAt : Option Nat
  /-- Its confirmation beat (R521). -/
  confirmed : Option Nat
  /-- Thermal ceiling and the beat it was last set or lowered. -/
  thermCeil : Option (Nat × Nat)
  /-- Current ceiling and the beat it was last set or lowered. -/
  currCeil : Option (Nat × Nat)
  /-- Beat since which the junction has been below 92 °C. -/
  coolSince : Option Nat
  /-- VCORE command in mV. -/
  vcmd : Nat
  /-- VoutTransitionRate written to the regulator in mV/µs; 0 before the write at start-up (R519). -/
  vrate : Nat
  /-- Closed-loop VCORE command of each step in mV (R520), index = step code. -/
  vstep : List Nat
  /-- Beat of the last closed-loop move. -/
  lastAdjust : Option Nat
  /-- Rails outside their fault window (index in Table PKG-2) and the beat each left it. -/
  railsOut : List (Nat × Nat)
  /-- Beat since which every rail has been within limits. -/
  railsOkSince : Nat
  /-- A ride-through fatal halt that leads to a cold reset (R518): the beat the halt began. -/
  railHalt : Option Nat
  /-- A rail cold reset is being held. -/
  railHold : Bool
  /-- Level of RESET_N. -/
  resetN : Bool
  /-- AVSBus frames without valid response in succession (R519). -/
  avsMiss : Nat
  /-- Lost references, bit 0 REFCLK_SYS, bit 1 REFCLK_TK (R525). -/
  refLost : Nat
  /-- Highest junction reading in °C. -/
  temp : Int
  /-- Readings behind Table PKG-7: VCORE in mV, current in A. -/
  vcore : Nat
  amps : Nat
  /-- THERMTRIP_N asserted (R528). -/
  thermtrip : Bool
  /-- Bytes of the latest answer of the I3C target (R532). -/
  i3c : List Byte
  deriving DecidableEq, Repr

/-- An entry of the command log (R436). -/
structure LogEntry where
  seq : Nat
  csa : Nat
  value : Nat
  deriving DecidableEq, Repr

/-- A checkpoint slot: last sequence number, beat written, digest (R436). -/
structure Ckpt where
  seq : Nat
  beat : Nat
  digest : BitVec 512
  deriving DecidableEq, Repr

/-- Control processors beside their registers (R433 to R441). -/
structure Cpx where
  log : List LogEntry
  /-- The two checkpoint slots. -/
  ckpts : List (Option Ckpt)
  /-- Beat of the last WDOG kick. -/
  wdogSince : Nat
  /-- A claim has been granted whose holder has not yet replayed the log (R438). -/
  replay : Bool
  deriving DecidableEq, Repr

/-- RST: what the reset logic holds beside its registers (R442 to R465). -/
structure Rst where
  /-- A cold or warm reset that has not ended: its LAST code. -/
  resetting : Option Nat
  /-- Beat at which the fatal halt began. -/
  haltAt : Option Nat
  /-- RESTART has been written in the fatal halt and waits for its first millisecond to pass (R447). -/
  restart : Bool
  /-- VAON below 0.72 V: power-on reset held. -/
  porHeld : Bool
  /-- Block reset under way: target and beat of the command (R458). -/
  blk : Option (Nat × Nat)
  /-- Beat at which the block under reset entered it. -/
  blkIn : Option Nat
  /-- Commands held by the clapper of the block under reset (R439). -/
  held : List HeldCmd
  /-- Beat at which the boot confirmation timer started (R456). -/
  bootTimer : Option Nat
  /-- Dump slots in use, by index (R465). -/
  dumpUsed : List Nat
  deriving DecidableEq, Repr

/-- The beat distribution (R20): replica minus master count of each island (0 where unlisted), and failed trees of
each island (bit 0, bit 1). -/
structure BeatNet where
  replica : SMap Word
  trees : SMap Nat
  deriving DecidableEq, Repr

/-- PWR at reset: regulator at 0.75 V (R519), every rail within limits, RESET_N low (R517). -/
def Pwr.reset : Pwr where
  halt := none
  raiseAt := none
  confirmed := none
  thermCeil := none
  currCeil := none
  coolSince := none
  vcmd := 750
  vrate := 0
  vstep := [780, 740, 710, 680]
  lastAdjust := none
  railsOut := []
  railsOkSince := 0
  railHalt := none
  railHold := false
  resetN := false
  avsMiss := 0
  refLost := 0
  temp := 0
  vcore := 750
  amps := 0
  thermtrip := false
  i3c := []

/-- An admission entry attached to a request at ingress (R55). -/
structure Attach where
  idx : Nat
  spaceLo : Nat
  spaceHi : Nat
  regLo : Nat
  regHi : Nat
  tenant : Nat
  rights : Nat
  peer : Bool
  deriving DecidableEq, Repr

/-- A request at its home: the fields the home needs from the packet, the attachments, and its history. -/
structure HomeReq where
  /-- Opcode of Table COH-2; tile requests keep their OP of Table TIL-13 plus 0x100; 0x200 is a back-invalidation. -/
  op : Nat
  host : Nat
  tag : Nat
  seq : Nat
  ccx : Nat
  epoch : Nat
  addr : Nat
  way : Nat
  aop : Nat
  size : Nat
  vsel : Bool
  version : Nat
  mask : BitVec 128
  data : Line
  poison : Bool
  operands : BitVec 512
  atts : List Attach
  /-- Beat of the first arrival at a home slice (R90) and arrival port, or tile. -/
  arrive : Nat
  port : Nat
  /-- LF[1:0] after the charge (R377). -/
  lf : Nat
  /-- The request has waited in a fault record (R40). -/
  rewalk : Bool
  /-- Gained priority at age 64 beats (R90). -/
  prio : Bool
  /-- The packet a tile sent, for a tile's request. -/
  tile : Option MPkt
  /-- Tenant of the requesting job or of the admitting entry. -/
  tenant : Nat
  /-- Back-invalidation: drop dirty data (Table COH-7, teardown), and the job it belongs to. -/
  drop : Bool
  /-- May the access reach a peer page (R308)? -/
  peerOk : Bool
  job : Nat
  /-- The request has been marked for congestion in a queue (R388). -/
  marked : Bool
  deriving DecidableEq, Repr

/-- Where an open transaction stands. -/
inductive Stage where
  /-- Snoop answers, crossing evictions or the eviction of the requester's way are awaited. -/
  | snoop
  /-- A grant has been sent: GrantAck is awaited. -/
  | ack
  /-- The line lies in zone 0 of a channel fenced for management or retrain (R149). -/
  | chan (k : Nat)
  /-- The response waits for the secondary's stamp acknowledgement (R120). -/
  | stamp
  deriving DecidableEq, Repr

/-- A snoop that has no answer yet. -/
structure Snoop where
  host : Nat
  slot : Nat
  opc : Nat
  sent : Nat
  deriving DecidableEq, Repr

/-- An open transaction of a home slice (R78, R79); `idx` is the entry that SNPID[9:0] names. -/
structure Txn where
  home : Nat
  idx : Nat
  /-- Pool pointer of the line, and its DPA. -/
  line : Nat
  dpa : Nat
  req : HomeReq
  stage : Stage
  snoops : List Snoop
  /-- Slots that answered RspAbsentEvict and whose eviction has not arrived (R93). -/
  absent : List Nat
  /-- Dirty data brought by answers has reached the line cache. -/
  gotDirty : Bool
  /-- An RspFwd has arrived. -/
  fwd : Bool
  /-- The holder snooped as owner has not been accounted for by data (R423). -/
  ownerSnooped : Bool
  /-- The grant sent: opcode, DATA, LOCAL. -/
  grant : Option (Nat × Bool × Bool)
  /-- The grant planned when the transaction opened: GntS 0x20, GntF 0x21, GntE 0x22, and whether data follow. -/
  plan : Nat × Bool
  /-- The atomic is placed in the cache. -/
  inCache : Bool
  opened : Nat
  /-- The response to send once the stamp is acknowledged, with the record's ST, STATUS and RESULT (R120). -/
  reply : List Pkt
  done : Nat × Nat × Nat
  deriving DecidableEq, Repr

/-- A snoop-filter entry (Table COH-6), with the pool pointer of the line it tracks; ST 0 is invalid. -/
structure FEnt where
  st : Nat
  tag : Nat
  ptr : Nat
  /-- Beat of a grant with LOCAL (R88, ping-pong). -/
  localAt : Option Nat
  deriving DecidableEq, Repr

/-- A line held in a home line cache. -/
structure LcLine where
  /-- Pool pointer of the line. -/
  ptr : Nat
  data : Line
  dirty : Bool
  poison : Bool
  deriving DecidableEq, Repr

/-- A cached translation (R44): place (home k or 64 + tile), space, first page offset, page size exponent, leaf entry;
`stream` marks an entry locked for a stream of an instance (R47). -/
structure Tlb where
  place : Nat
  space : Nat
  page : Nat
  bits : Nat
  entry : Nat
  lock : Option (Nat × Nat)
  deriving DecidableEq, Repr

/-- A level-1 or level-2 pointer in a walk cache (Table ADR-7): place as in `Tlb`, space, level, the offset above the level's page
bits, and the next table. -/
structure WPtr where
  place : Nat
  space : Nat
  level : Nat
  index : Nat
  table : Nat
  deriving DecidableEq, Repr

/-- A region that has left the range caches and whose lines are still being back-invalidated (R38, R69): the job, space, base and
length in 64 KiB units, and whether dirty data are dropped. -/
structure Leaving where
  job : Nat
  space : Nat
  base : Nat
  len : Nat
  drop : Bool
  deriving DecidableEq, Repr

/-- What waits in a fault record (R63). -/
inductive Waiter where
  | req (r : HomeReq)
  /-- Tile walk of a stream: instance, tile, stream, page offset. -/
  | stream (inst tile stream page : Nat)
  | inst (i : Nat)
  deriving DecidableEq, Repr

/-- A fault on its way to, or recorded at, its fault home (R62, Table ADR-11).  Cause 0 NOT_PRESENT, 1 COLD,
2 IN_TRANSIT; size 0, 1, 2. -/
structure PageFault where
  home : Nat
  space : Nat
  page : Nat
  size : Nat
  cause : Nat
  region : Nat
  waiter : Waiter
  /-- The forwarding home's index (R63). -/
  src : Nat
  deriving DecidableEq, Repr

/-- A fault record (Table ADR-11): STATE 1 open, 2 filled, 3 timed out, 4 region gone. -/
structure FaultRec where
  home : Nat
  idx : Nat
  space : Nat
  page : Nat
  size : Nat
  cause : Nat
  first : Nat
  region : Nat
  state : Nat
  waiters : List Waiter
  /-- Its entry has been written to the fault queue (R513). -/
  queued : Bool
  deriving DecidableEq, Repr

/-- Lease of a host (R362 to R364): state 0 none, 1 live, 2 expired. -/
structure Lease where
  state : Nat
  epoch : Nat
  renew : Nat
  slot : Option Nat
  deriving DecidableEq, Repr

/-- Policer of a host (Table TRF-2) with its slowdown state (R389). -/
structure Policer where
  en : Bool
  cir : Nat
  pir : Nat
  cbs : Nat
  pbs : Nat
  c : Nat
  p : Nat
  slow : Nat
  /-- A mark has been acted on in this refill period, and refill periods without a mark. -/
  marked : Bool
  quiet : Nat
  deriving DecidableEq, Repr

/-- Freeze of a host: state 0 admitted, 1 frozen, 2 evicted and frozen; cause of Table ADR-10; dropped requests. -/
structure Freeze where
  state : Nat
  cause : Nat
  dropped : Nat
  deriving DecidableEq, Repr

/-- A request past ingress, with its attachments, waiting to be performed by its unit (R370). -/
structure Routed where
  pkt : Pkt
  atts : List Attach
  lf : Nat
  at_ : Nat
  /-- It was marked for congestion as it entered its virtual output queue (R388). -/
  marked : Bool
  deriving DecidableEq, Repr

/-- What the event of an admission violation carries beside its class (R59): beat, block, host ID, port and cause. -/
structure Viol where
  stamp : Nat
  blk : Nat
  host : Nat
  port : Nat
  cause : Nat
  deriving DecidableEq, Repr

/-- A carillon slot of an XBAR (R365): die, packet, the hosts to be reached (none for a Knell), and the ports that have not yet
delivered. -/
structure Carillon where
  die : Nat
  pkt : Pkt
  hosts : List Nat
  mask : Nat
  deriving DecidableEq, Repr

/-- A tagged request or Invoke under way (R494, R495): the die that follows it, the beat of stage 1, what Table TEL-3 says of it,
and the beats of the later stages of Table TEL-2 it has reached. -/
structure Track where
  die : Nat
  beat0 : Nat
  host : Nat
  tag : Nat
  opc : Nat
  port : Nat
  unit : Nat
  tenant : Nat
  /-- 0xFF until a final response has been made; 0xFE for one that the policer dropped. -/
  status : Nat
  flags : Nat
  stamps : List (Nat × Nat)
  deriving DecidableEq, Repr

/-- Hosts and ingress: admission tables, leases, response ports, freezes, policers, carillon. -/
structure Hosts where
  /-- The 8,192 admission entries of Table ADR-9, 256 bits each (both XBAR copies, R54). -/
  adm : SMap (BitVec 256)
  lease : SMap Lease
  /-- Response port of each host, plus 64 when it is pinned (R360). -/
  rport : SMap Nat
  slots : SMap Nat
  freeze : SMap Freeze
  /-- Freeze queues: packets of frozen hosts in arrival order (R60). -/
  frzq : List Pkt
  pol : SMap Policer
  routed : List Routed
  /-- Packets held at their crossbar input because their virtual output queue is full, with the virtual channel and the flits
  whose credit the input withholds (R386). -/
  inHold : List (Routed × Nat × Nat)
  /-- Violations counted per host (R60). -/
  viol : SMap Nat
  /-- Knells acted on: ORIGIN and KSEQ of the last 256 (R369), and the next KSEQ. -/
  knells : List (Nat × Nat)
  kseq : Nat
  /-- Egress shaper tokens of each port; 0x10000 (full) where unlisted (R381). -/
  tokens : SMap Nat
  /-- Ports whose gate plan is armed, with the beat (R384). -/
  gates : List (Nat × Nat)
  /-- Beat after the last refill tick (R374). -/
  lastTick : Nat
  /-- Packets discarded by each port under R346. -/
  malformed : SMap Nat
  /-- Snoops lost with a flushed port, sent again when the host is next heard from: host, home, transaction entry (R358). -/
  lostSnoops : List (Nat × Nat × Nat)
  /-- Per-port count of judged packets, and tagged requests under way (R494). -/
  judged : SMap Nat
  tagged : List Track
  /-- Hosts as which this T7 holds or has asked for a lease at a peer (R364). -/
  peerLease : List Nat
  /-- Host and tag of recorded atomics that were answered by a grant (Table TRN-7); the record has no bit for it. -/
  recGrant : List (Nat × Nat)
  /-- What the class 9 events of admission violations carry, oldest first (R59). -/
  violEvt : List Viol
  /-- Carillon slots in use, at most 64 in each XBAR, and the copies whose source waits for one (R365). -/
  carillon : List Carillon
  carWait : List Carillon
  deriving DecidableEq, Repr

/-- Home slices: transactions, chains, pending queues, filter, line caches, predictor, translation caches, faults. -/
structure Homes where
  txns : List Txn
  /-- Requests waiting for a line with an open transaction, in arrival order: home and request. -/
  chain : List (Nat × HomeReq)
  /-- Requests waiting for an entry or a chain slot (R80). -/
  pendq : List (Nat × HomeReq)
  /-- Lines with a STARVE mark: home, line, and host and tag of the starving request (R91). -/
  starve : List (Nat × Nat × Nat × Nat)
  filter : SMap FEnt
  lc : SMap LcLine
  /-- Two-bit predictors, 4,096 per home; 2 where unlisted (R87). -/
  pred : SMap Nat
  tlb : List Tlb
  /-- Active regions (R36, R43): index to the record words 0 to 4 as the T7 keeps them. -/
  regions : SMap (BitVec 320)
  faults : List PageFault
  /-- Entries of the forwarding homes' pending queues that hold a fault waiting for a record or a waiter slot (R64, R80). -/
  faultWait : List PageFault
  recs : List FaultRec
  /-- Back-invalidation jobs with lines still to answer. -/
  jobs : List Nat
  /-- Requests of the T7's own walks held for a channel (R149). -/
  chanWait : List (Nat × HomeReq)
  /-- Beats at which transactions of a home hung (R463). -/
  hangs : List (Nat × Nat)
  /-- Beat of the translation invalidation last started, and what it covers: its range and each large page that it dropped, as
  space, first 64 KiB unit and count (R46). -/
  xltAt : Nat
  xltCover : List (Nat × Nat × Nat)
  /-- Walk caches (Table ADR-7), oldest pointer first. -/
  wcache : List WPtr
  leaving : List Leaving
  /-- The SRAM tier: lines locked in the line caches, by DPA / 128, with their poison (R163). -/
  sram : SMap (Line × Bool)
  /-- Requests whose region's strength differed from their line's zone, counted at each home (R130). -/
  zoneMis : SMap Nat
  deriving DecidableEq, Repr

/-- An access that the T7 makes for its own purposes and that waits for a fenced channel (R149). -/
inductive MemWait where
  /-- A write of selected bytes of a line, with its poison and the home that writes it. -/
  | write (dpa : Nat) (data : Line) (mask : BitVec 128) (poison : Bool) (home : Nat)
  /-- A host or operator has written the line at a pointer: its page record changes (R157). -/
  | note (ptr : Nat)
  deriving DecidableEq, Repr


/-- Device memory: what the modules and codes hold. -/
structure Memory where
  /-- Data bytes by DPA; a byte not listed reads 0x00. -/
  dram : List Host.Cell
  /-- Stored check bits of a data line, exclusive-or the bits R391 gives; all ones is the poison encoding. -/
  synd : SMap (BitVec 256)
  /-- Parity lines, by 4 × stripe half + j, as stored (R395), and their poison record. -/
  parity : SMap Line
  /-- Data lines of each stripe half that the parity records as poisoned, one bit per chunk (Table INT-1). -/
  parPois : SMap Nat
  /-- Deltas accepted by a DCH and not yet applied (R396), keyed as `parity`. -/
  merge : SMap Line
  /-- Recompute queues (R399): stripe half, slot part?, carried lines (chunk, data, poisoned). -/
  recompute : List (Nat × Bool × List (Nat × Line × Bool))
  /-- Lines of fenced channels reconstructed for a phase (R220): line number, data, poison. -/
  recon : SMap (Line × Bool)
  /-- DRAM training has been started: MAP is fixed (R131, R453). -/
  mapFixed : Bool
  /-- DRAM service has started (R145). -/
  up : Bool
  /-- Brush corrections on their way to the line's home, by DPA (R411). -/
  corrections : List Nat
  /-- Accesses of the T7 itself that a fence holds, oldest first: the channel, and the access (R149). -/
  waits : List (Nat × MemWait)
  deriving DecidableEq, Repr

/-- A request that this T7 sent to a peer through a peer window (R51, R52) and that has no response yet. -/
structure PeerReq where
  tag : Nat
  req : HomeReq
  host : Nat
  /-- Port through which it was sent. -/
  port : Nat
  deriving DecidableEq, Repr

/-- A host's staging of a PUBLISHED region (R106 to R110): staged pages (64 KiB unit of the offset) and frames. -/
structure Staging where
  region : Nat
  host : Nat
  pages : List (Nat × Nat)
  deriving DecidableEq, Repr

/-- A staging copy in progress (R106): the writes that wait for it, in order. -/
structure StagingCopy where
  region : Nat
  host : Nat
  page : Nat
  frame : Nat
  waiting : List HomeReq
  deriving DecidableEq, Repr

/-- A pin (R115): by host, or by operator instance (host 0x10000 + instance). -/
structure Pin where
  region : Nat
  version : Nat
  holder : Nat
  since : Nat
  deriving DecidableEq, Repr

/-- An accepted publish that waits for its commit beat (R111, R113), with the STALE answers held against it (R114). -/
structure Commit where
  region : Nat
  host : Nat
  version : Nat
  at_ : Nat
  pages : List (Nat × Nat)
  rsp : HomeReq
  stale : List HomeReq
  deriving DecidableEq, Repr

/-- Frames that the commit of `version + 1` replaced: pages as every version up to `version` sees them. -/
structure OldPages where
  region : Nat
  version : Nat
  pages : List (Nat × Nat)
  deriving DecidableEq, Repr

/-- Published regions: what the publish homes hold. -/
structure Publish where
  stagings : List Staging
  copies : List StagingCopy
  pins : List Pin
  subs : List (Nat × Nat)
  commits : List Commit
  olds : List OldPages
  /-- Staging-pool and SRAM-reserve frames in use; frames that joined the pool under R115. -/
  taken : List Nat
  joined : List Nat
  deriving DecidableEq, Repr

/-- An order stamp (R119): home, mirror sequence, host, tag, sequence number, and the beat it was sent or received. -/
structure Stamp where
  home : Nat
  mseq : Nat
  host : Nat
  tag : Nat
  seq : Nat
  beat : Nat
  deriving DecidableEq, Repr

/-- A request performed whose response waits for its stamp's acknowledgement (R120). -/
structure MirWait where
  home : Nat
  req : HomeReq
  reply : List Pkt
  /-- ST, STATUS and RESULT of its tag record, where the response changes the record. -/
  done : Option (Nat × Nat × Nat)
  deriving DecidableEq, Repr

/-- The mirror (R118 to R123, R428 to R432). -/
structure Mirror where
  /-- Highest mirror sequence of each home slice that this chip has given or received. -/
  mseq : SMap Nat
  /-- Stamps sent and not acknowledged (orderer). -/
  sent : List Stamp
  /-- Responses that wait for an acknowledgement, outside line transactions. -/
  waits : List MirWait
  /-- Stamps received whose request has not been performed (secondary). -/
  got : List Stamp
  /-- Requests held for their stamp, in arrival order: home and request (secondary). -/
  held : List (Nat × HomeReq)
  /-- A hand-over of the ordering role is under way (R432). -/
  handoff : Bool
  /-- Out of step: the secondary serves no mirrored region (R121). -/
  outOfStep : Bool
  /-- Highest mirror sequence performed, of each home slice (R121). -/
  perf : SMap Nat
  /-- Home slices whose hand-over entry has arrived (R432). -/
  handGot : List Nat
  /-- Reads and pins that wait for their line's copy (R431). -/
  readHeld : List (Nat × HomeReq)
  /-- Resynchronisation: the next line to copy, as region and line number, and the counts of copies. -/
  copyAt : Option (Nat × Nat)
  copied : Nat
  copyTotal : Nat
  copySeq : Nat
  /-- The returning chip of a resynchronisation: copies arrive; lines (pool pointers) copied so far (R431). -/
  returning : Bool
  gotLines : List Nat
  deriving DecidableEq, Repr

/-- A slot entry of Table PAT-3 at its unit, with the data flits of a write and their poison bits, the edge column
that sent it and the beat it arrived (R227). -/
structure SlotEnt where
  entry : Flit
  data : List (Flit × BitVec 2)
  edge : Nat
  /-- Release cycles that the landing schedule gives the two data flits of a read, if any (R227, R236). -/
  rel : Option Nat × Option Nat
  /-- Its position has passed before its data came: it is not issued (R134). -/
  late : Bool
  deriving DecidableEq, Repr

/-- An access or refresh issued on a subchannel: absolute position, kind (0 read, 1 write, 2 REFsb), PC, BA, BG, row and
column. -/
structure Issued where
  sub : Nat
  at_ : Nat
  kind : Nat
  pc : Nat
  ba : Nat
  bg : Nat
  row : Nat
  col : Nat
  deriving DecidableEq, Repr

/-- What a DRAM channel holds beside its registers (R132 to R151, R408, R409). -/
structure DchSt where
  /-- Journal of stripe pairs written while fenced (R148). -/
  journal : List Nat
  /-- The module has been powered off since the fence. -/
  pwrLost : Bool
  /-- A zone-0 write was answered without being performed (R149). -/
  z0lost : Bool
  /-- Zone-0 lines not written since a whole-channel rebuild read poisoned. -/
  z0pois : Bool
  /-- SPD serial number of the module and the one it had when the channel was fenced. -/
  serial : Nat
  fencedSerial : Nat
  /-- The rebuild under way covers the whole channel. -/
  whole : Bool
  /-- Position the two subchannels issue next, counted from the first bar, and the 64-bit bar counter's origin. -/
  pos : List Nat
  /-- Recent accesses, newest first. -/
  hist : List Issued
  /-- Slot entries waiting for their position: one queue for each group, bank set and subchannel, in one list (R227). -/
  slotq : List SlotEnt
  /-- Fair queueing: V and the four last finish tags, for each subchannel (R379). -/
  fqV : List Nat
  fqF : List (List Nat)
  /-- Finish tags of the heads now waiting, 0 where there is none. -/
  fqH : List (List Nat)
  /-- Beats of ERASED or UNCORRECTABLE reads in the last 1 ms (R409). -/
  errs : List Nat
  /-- Bar of the last ZQ calibration and the last oscillator read (R144). -/
  zqBar : Nat
  oscBar : Nat
  /-- Module powered. -/
  powered : Bool
  /-- Brush walk: next line of each subchannel, and whether the channel has wrapped in this lap (R410). -/
  walk : List Nat
  wrapped : List Bool
  /-- Lines the brush found failing and reads once more in its next position (R411): subchannel and line. -/
  again : List (Nat × Nat)
  /-- Position from which each subchannel serves after a return to service (R137). -/
  from_ : List Nat
  /-- Next line of each subchannel that the rebuild under way has not passed (R415). -/
  front : List Nat
  /-- Refresh mode last ordered: double?, and the bar from which it is in force (R143). -/
  dbl : Bool × Nat
  /-- Bar of the brush's last open position on each subchannel, and how many it has had in that bar (R412). -/
  extra : List (Nat × Nat)
  deriving DecidableEq, Repr

/-- A channel at reset: module unpowered (R145). -/
def DchSt.reset : DchSt where
  journal := []
  pwrLost := false
  z0lost := false
  z0pois := false
  serial := 0
  fencedSerial := 0
  whole := true
  pos := [0, 0]
  hist := []
  slotq := []
  fqV := [0, 0]
  fqF := [[0, 0, 0, 0], [0, 0, 0, 0]]
  fqH := [[0, 0, 0, 0], [0, 0, 0, 0]]
  errs := []
  zqBar := 0
  oscBar := 0
  powered := false
  walk := [0, 0]
  wrapped := [false, false]
  again := []
  from_ := [0, 0]
  front := [0, 0]
  dbl := (false, 0)
  extra := [(0, 0), (0, 0)]


/-- A frame queued for zeroing (R414): DPA[47:16], and the brush that firmware pushed it to (`none`: it returns to the
staging pool). -/
structure ZeroJob where
  frame : Nat
  pushed : Option Nat
  deriving DecidableEq, Repr

/-- A flash slot (R167): the trailer's SPACE, PAGE, GEN, CRC and POISON and the 65,536 data bytes, zero where unlisted. -/
structure FSlot where
  space : Nat
  page : Nat
  gen : Nat
  crc : BitVec 64
  poison : BitVec 512
  data : List Host.Cell
  deriving DecidableEq, Repr

/-- A page move of a percolator (R156, R157): region, page offset / 64 KiB, frame, flash handle, how far it has come
(0 started, 1 flash or DRAM data on its way to the other side), and the page as read. -/
structure FMove where
  perc : Nat
  region : Nat
  space : Nat
  page : Nat
  demote : Bool
  frame : Nat
  handle : Nat
  /-- Beat of the NVMe command. -/
  since : Nat
  stage : Nat
  /-- A promotion of a slot with no readable copy (R170). -/
  lost : Bool
  poison : BitVec 512
  data : List Host.Cell
  deriving DecidableEq, Repr

/-- The flash tier (R152 to R175). -/
structure Flash where
  /-- Slots written on the drives, by (drive × 2^28 + extent) × 16 + position. -/
  slots : SMap FSlot
  /-- Extents in use: drive and extent. -/
  used : List (Nat × Nat)
  /-- Free frames, oldest first: percolator and DPA[47:16]. -/
  free : List (Nat × Nat)
  moves : List FMove
  /-- Promotions that wait for a frame or for a running move to end: home and fault record. -/
  fills : List (Nat × Nat)
  /-- Clock hand of each percolator, as page record index; drive last taken in round robin. -/
  hand : List Nat
  robin : List Nat
  /-- Percolator and zone whose list is being refilled to HIGH_WM. -/
  refilling : List (Nat × Nat)
  /-- Beats of the demotions started in the last 1 ms: percolator and beat. -/
  starts : List (Nat × Nat)
  /-- Touch filters: home, space, page (R160). -/
  touched : List (Nat × Nat × Nat)
  /-- Beat of the last epoch boundary of each percolator. -/
  epochAt : List Nat
  /-- Inbound drive requests refused at each root port (R166). -/
  refused : SMap Nat
  /-- Touches sent and not yet arrived at the owner: home, space, page (R160). -/
  touches : List (Nat × Nat × Nat)
  /-- Extents whose slots the owners are to move to another drive: drive and extent (R170, R171). -/
  copies : List (Nat × Nat)
  /-- What each admitted drive showed when it was identified, its link included (R165). -/
  info : SMap (DriveLink × DriveInfo)
  /-- Retired drives that have completed the shutdown notification (R171). -/
  shut : List Nat
  /-- Leaves above 64 KiB found in each tiered region at its activation (R153). -/
  large : SMap Nat
  /-- Answers to inbound requests of drives, oldest first: drive, and whether it was served (R166). -/
  inbound : List (Nat × Bool)
  deriving DecidableEq, Repr



/-- A scalar register: value, and whether it came from a poisoned word. -/
structure SReg where
  val : Word
  poison : Bool
  deriving DecidableEq, Repr

/-- A vector register: 8 lanes of 32 bits, lane 0 low, and a poison bit for each lane (Table TIL-1). -/
structure VReg where
  val : BitVec 256
  poison : BitVec 8
  deriving DecidableEq, Repr

/-- What the bank cycle of a scratchpad access does (Tables PAT-1 and TIL-10). -/
inductive Bank where
  /-- A load into a vector or scalar register. -/
  | load (vr : Nat)
  | sload (rd : Nat)
  /-- A store of bytes, each with its poison. -/
  | store (bytes : List (Byte × Bool))
  /-- A half-block for the router, and a slot entry. -/
  | half
  | entry
  /-- The next 32 bytes of a dynamic packet, those before it already read. -/
  | packet (got : List (BitVec 256 × Bool))
  deriving DecidableEq, Repr

/-- What an issued operation delivers (Table PAT-1). -/
inductive Effect where
  | sreg (r : Nat) (v : Word) (poison : Bool)
  /-- Bits selected by `mask` and lane poison bits selected by `pmask`. -/
  | vreg (r : Nat) (v mask : BitVec 256) (poison pmask : BitVec 8)
  /-- An access of `n` bytes at a bank port; `pattern`: in the body of a pattern phase, where a loser's access is dropped. -/
  | bank (addr n : Nat) (pattern : Bool) (act : Bank)
  /-- Every lane cleared with weight exponent `q`. -/
  | accz (acc : Nat) (q : Int) (poison : Bool)
  /-- Products with their flags, one term each, into a lane. -/
  | terms (acc lane : Nat) (ts : List (FV × Nat)) (poison : Bool)
  | merge (acc lane : Nat) (image : BitVec 256) (poison : Bool)
  /-- A half-block presented at the router's local input. -/
  | send (flit : Flit) (poison : BitVec 2)
  deriving DecidableEq, Repr

/-- An effect to come: the core that issued it, the tile cycle, and the slot (0 S, 1 M, 2 V, 3 X). -/
structure Pend where
  tile : Nat
  core : Nat
  at_ : Nat
  slot : Nat
  eff : Effect
  deriving DecidableEq, Repr

/-- A core (R177 to R183). -/
structure CoreSt where
  sregs : SMap SReg
  vregs : SMap VReg
  /-- Exact accumulators, by 8 × accumulator + lane; cleared with Q = 0 where unlisted. -/
  accs : SMap AccLane
  /-- Sticky flags of R256. -/
  flags : Nat
  /-- Bundle index of the bundle issued in cycle `cyc`, the core's last. -/
  pc : Nat
  cyc : Nat
  /-- Slots that this bundle has used, as bits, and the first cycle in which the core may issue again after a stall. -/
  slots : Nat
  stallTo : Nat
  /-- A taken branch: the cycle in which the bundle at the target issues. -/
  branch : Option (Nat × Nat)
  /-- A WAITC that stalls the core: counter and value. -/
  waiting : Option (Nat × BitVec 32)
  /-- The core has finished its part of the dynamic phase. -/
  ended : Bool
  /-- Operations that a stalled core holds, in order (R178). -/
  held : List Instr
  deriving DecidableEq, Repr

/-- A core at reset. -/
def CoreSt.reset : CoreSt := ⟨[], [], [], 0, 0, 0, 0, 0, none, none, false, []⟩

/-- A use of a scratchpad bank port: tile, bank × 2 + write, cycle, 128-byte block, and the 32-byte parts taken. -/
structure PortUse where
  tile : Nat
  port : Nat
  at_ : Nat
  block : Nat
  parts : Nat
  deriving DecidableEq, Repr

/-- A flit held in a landing buffer entry (R189): release cycle (`none`: held for dump capture), and its poison bits. -/
structure Land where
  flit : Flit
  poison : BitVec 2
  release : Option Nat
  deriving DecidableEq, Repr

/-- A pattern flit presented at an input of a router: 0 north, 1 east, 2 south, 3 west, 4 local, 5 landing release. -/
structure Flight where
  tile : Nat
  src : Nat
  at_ : Nat
  flit : Flit
  poison : BitVec 2
  deriving DecidableEq, Repr

/-- A pattern flit on its way over an island boundary (R226): the landing entry it goes to, its release cycle, if the schedule gives
it one, and the cycle in which it reaches the entry. -/
structure Cross where
  tile : Nat
  entry : Nat
  rel : Option Nat
  at_ : Nat
  flit : Flit
  poison : BitVec 2
  deriving DecidableEq, Repr

/-- A packet of the dynamic mesh, with the relay router on its way, if any (R200). -/
structure NetPkt where
  pkt : MPkt
  via : Option Nat
  deriving DecidableEq, Repr

/-- Flit `idx` of a packet: 0 the header, then its data flits (R197). -/
structure NetFlit where
  of_ : NetPkt
  idx : Nat
  deriving DecidableEq, Repr

/-- A packet at an injection unit: the router and the input port it enters by, the flits it has sent, and whether it is a relayed
one (R201). -/
structure NetSrc where
  of_ : NetPkt
  tile : Nat
  port : Nat
  sent : Nat
  relayed : Bool
  deriving DecidableEq, Repr

/-- The dynamic network (R199 to R201): packets at the injection units; the virtual-channel buffers of the input ports, by
20 × tile + 4 × input + channel, a channel being 2 × CLS + VN; the outputs that a buffer's head flit has passed, as bits; for each
output and channel, by 28 × tile + 4 × output + channel, the input and the packet that hold it; and for each output, by
7 × tile + output, the buffer 4 × input + channel that it served last.  Outputs are 0 north, 1 east, 2 south, 3 west, 4 local, 5 the
relay buffer, 6 the end of a packet for a tile that is off. -/
structure Net where
  queue : List NetSrc
  bufs : SMap (List NetFlit)
  passed : SMap Nat
  holds : SMap (Option (Nat × NetPkt))
  turn : SMap Nat
  /-- Cycles that a buffer's head flit has waited. -/
  waits : SMap Nat
  deriving DecidableEq, Repr

/-- A DLD whose data have not arrived (R178): tile, sequence number, core, register. -/
structure DldWait where
  tile : Nat
  seq : Nat
  core : Nat
  reg : Nat
  deriving DecidableEq, Repr

/-- Tiles, cores and the mesh (R176 to R213). -/
structure Tiles where
  /-- Tile cycles that have passed since the bar counters last restarted, as the cores' issues tell. -/
  clock : Nat
  /-- Cores, by 128 × tile + core. -/
  cores : SMap CoreSt
  pend : List Pend
  ports : List PortUse
  /-- Scratchpad bytes by 2^20 × tile + address, and poisoned 64-bit words by 2^17 × tile + word. -/
  spad : SMap Byte
  spois : SMap Bool
  /-- Completion counters, by 16 × tile + counter. -/
  counts : SMap (BitVec 32)
  /-- Landing buffers, by 256 × tile + entry. -/
  landing : SMap Land
  /-- Instruction memory bytes, by 2^19 × tile + 4,096 × core + offset. -/
  imem : SMap Byte
  /-- Next SEQ of each tile. -/
  seqs : SMap Nat
  flights : List Flight
  crosses : List Cross
  /-- Releases whose flits have not landed yet: tile, entry, release cycle (R191). -/
  owed : List (Nat × Nat × Nat)
  /-- Slot write entries at an edge that await their data flits: 32 × edge + row. -/
  edges : SMap SlotEnt
  /-- Dynamic requests on their way, waiting at injection for the window, and sent without response yet: tile, SEQ. -/
  mesh : List MPkt
  inject : List MPkt
  sent : List (Nat × Nat)
  dlds : List DldWait
  /-- Tiles that have halved W, and tiles that have received CEE, in the present mesh bar (R205). -/
  halved : List Nat
  marked : List Nat
  /-- Tiles whose mesh plans, and home slices whose port plans, are armed (R196, R230). -/
  armed : List Nat
  harmed : List Nat
  harmedAt : Nat
  /-- Sites faulted without a spare in SPARE, lowest first (R212). -/
  lost : List Nat
  /-- Spares whose images are loaded and that await the takeover bar. -/
  loaded : List Nat
  /-- Tiles whose return or spare self-test runs (R209, R213). -/
  testing : List Nat
  /-- The dynamic network. -/
  net : Net
  /-- Tiles whose clear path runs, and the cycle up to which it does (R184). -/
  clears : List (Nat × Nat)
  /-- Bits upset in the scratchpad's words, by 2^17 × tile + word, and in the quarters of the next flit over a router's input port, by
  32 × tile + 4 × port + quarter: no command brings them about, and the codes of R186 and R192 meet them. -/
  flips : SMap Nat
  noise : SMap Nat
  /-- Errors of the last 1 ms that count toward Table TIL-6: tile, 0 a corrected word, 1 an uncorrectable word, 2 an uncorrectable
  quarter, its bank or port, and the beat. -/
  errs : List (Nat × Nat × Nat × Nat)
  /-- Criteria of Table TIL-6 that are met and whose TILE_FAULT has not come: tile and cause. -/
  faulty : List (Nat × Nat)
  deriving DecidableEq, Repr


/-- A phase record of a pattern image (Table PAT-7). -/
structure Phase where
  kind : Nat
  period : Nat
  bars : Nat
  gate : Nat
  ext : Nat
  glist : Nat
  codeoff : Nat
  deriving DecidableEq, Repr

/-- A mesh plan entry of a placement: tile, output port, cycle of the bar, entry word of Table TIL-2. -/
structure MeshEnt where
  tile : Nat
  port : Nat
  cyc : Nat
  word : Nat
  deriving DecidableEq, Repr

/-- A loaded pattern (R243, R244). -/
structure Placement where
  num : Nat
  opid : Nat
  digest : BitVec 512
  /-- The image as loaded. -/
  image : List Byte
  maxstep : Nat
  strip : Nat
  height : Nat
  /-- Sites, and the cores of the serving tile given to the placement at each. -/
  sites : List (Nat × List Nat)
  /-- Slot groups of its local groups: local group and group. -/
  groups : List (Nat × Nat)
  phases : List Phase
  mesh : List MeshEnt
  /-- Landing schedule: tile, entry, release bar from the phase's start, release cycle. -/
  landing : List (Nat × Nat × Nat × Nat)
  /-- Bank ports reserved: tile, port, cycle of the bar (R224). -/
  ports : List (Nat × Nat × Nat)
  /-- DRAM positions bound: channel and entry; home plan cycles bound in every slice: direction and cycle. -/
  dram : List (Nat × Nat)
  home : List (Nat × Nat)
  /-- Beat from which it accepts instances. -/
  ready : Nat
  unloading : Bool
  /-- Tenant it last served (R470). -/
  tenant : Option Nat
  deriving DecidableEq, Repr

/-- A stream of an instance (Table OPS-6). -/
structure Strm where
  base : Nat
  len : Nat
  wr : Bool
  gath : Bool
  dir : Bool
  depth : Nat
  deriving DecidableEq, Repr

/-- An operator instance (R279 to R288): state 0 WAITING, 1 RUNNING, 2 ended or completed, its completion forms still
to come, 3 its CPTR write completed. -/
structure Inst where
  idx : Nat
  host : Nat
  tag : Nat
  seq : Nat
  port : Nat
  opid : Nat
  job : Nat
  tenant : Nat
  cform : Nat
  rpkt : Bool
  cptr : Nat
  desc : List Byte
  streams : List Strm
  /-- Offset of the page that each stream's access position has entered at a tile, by 16 × tile + stream, once it has (R47). -/
  pos : SMap Nat
  accBeat : Nat
  state : Nat
  place : Option Nat
  /-- Round, phase, and mesh bar at which the phase's body began (below zero after the bar counters have restarted);
  `none` in a gate bar or before it. -/
  round : Nat
  phase : Nat
  bodyAt : Option Int
  /-- The pattern phase whose repeat the next gate decides; a channel did not serve it, or a slot read met an erased
  line, in its last run; how often in succession it has been repeated for read errors (R219, R402). -/
  ran : Option Nat
  again : Bool
  readErr : Bool
  errRuns : Nat
  /-- Sites that have sent DONE in this round. -/
  dones : List Nat
  /-- The operator's work is done. -/
  done : Bool
  /-- Status of Table OPS-9 that an early end has fixed; it stops issue at the next mesh-bar boundary. -/
  status : Nat
  stopping : Option Nat
  /-- Lines of fenced channels held in the reconstruction buffer, by line number (R220). -/
  recon : List Nat
  /-- Scratchpad address of the descriptor (Table TIL-9). -/
  descAt : Nat
  /-- OpDone is not sent (R285). -/
  mute : Bool
  flags : Nat
  depthRed : Bool
  dyn : Bool
  ndata : Nat
  poisoned : Nat
  skipped : Nat
  slips : Nat
  repeats : Nat
  endBeat : Nat
  result : BitVec 512
  /-- Beat since which it has waited, or its present dynamic phase or gate has gone on (R462). -/
  since : Nat
  deriving DecidableEq, Repr

/-- A completed invocation kept for re-issues (R273): host, tag, sequence number, acceptance beat, and OpDone. -/
structure OpRec where
  host : Nat
  tag : Nat
  seq : Nat
  acc : Nat
  done : Option Pkt
  deriving DecidableEq, Repr

/-- An Invoke whose descriptor DISP is reading at DPTR (R270): the request, and the attachments it came with. -/
structure DescRead where
  id : Nat
  pkt : Pkt
  atts : List Attach
  lf : Nat
  deriving DecidableEq, Repr

/-- A job killed as hung whose tiles are still to be dumped and reset (R462): tenant, job, cause of Table RST-6, the instance
that reached the limit, and the beat of the hang. -/
structure Dump where
  tenant : Nat
  job : Nat
  cause : Nat
  trig : Nat
  at_ : Nat
  deriving DecidableEq, Repr

/-- DISP (R240 to R246, R269 to R288, R462, R465). -/
structure Disp where
  places : List Placement
  insts : List Inst
  recs : List OpRec
  /-- Jobs killed as hung (R462, R465). -/
  dumps : List Dump
  /-- Tenant that each tile last served, plus one (R470). -/
  lastTen : SMap Nat
  descs : List DescRead
  /-- Lines that DISP has read for an instance or, 0x1000 + id, for a descriptor: pool pointer, line, poison. -/
  reads : List (Nat × Nat × Line × Bool)
  /-- GROUP fields that DISP writes into shadow plans once the plan pending there has taken over: channel, entry, group (R141). -/
  binds : List (Nat × Nat × Nat)
  /-- Strip of a LOAD that waits for an image line that a fence holds (R149). -/
  loading : Option Nat
  deriving DecidableEq, Repr


/-- A sequenced flit as the sender keeps it (R329): FSEQ, FT, VC and SOP of Table LNK-3, and its 15 payload units. -/
structure SentFlit where
  seq : Nat
  ft : Nat
  vc : Nat
  sop : Nat
  units : List (BitVec 128)
  deriving DecidableEq, Repr

/-- An outstanding WREQ or RTREQ (R333): its token, the lane mask or the cause, and the beat it was sent. -/
structure LinkReq where
  retrain : Bool
  token : Nat
  arg : Nat
  since : Nat
  deriving DecidableEq, Repr

/-- A width change agreed on (R334): its token and mask, whether the port may send its WGO, FSEQ of that WGO once sent, and
whether the peer's WGO has been accepted. -/
structure WidthCh where
  token : Nat
  mask : Nat
  go : Bool
  sent : Option Nat
  got : Bool
  deriving DecidableEq, Repr

/-- A packet in a receive buffer: its channel and the flits of the channel that it frees. -/
structure RxPkt where
  vc : Nat
  pkt : Pkt
  flits : Nat
  /-- Beat of its flit slot. -/
  at_ : Nat
  deriving DecidableEq, Repr

/-- A fabric port's link beside its registers (R315 to R345). -/
structure Link where
  /-- Receiver: expected FSEQ; a flit has been accepted since training; RNUM; RR set; beat of the last increment of RNUM
  and increments since the last acceptance (R327, R328). -/
  expect : Nat
  av : Bool
  rnum : Nat
  rr : Bool
  rrSince : Nat
  rrCount : Nat
  /-- Sender: next FSEQ, replay buffer, flits still to be rolled, RNUM of the last roll (R329). -/
  next : Nat
  replay : List SentFlit
  roll : List SentFlit
  rolled : Option Nat
  /-- Link messages waiting for a CONTROL flit (R331). -/
  ctl : List (BitVec 128)
  /-- Credits held, last good CTOT, and cumulative credits freed, of each channel; next channel to report; channel last
  served in round robin (R321, R324). -/
  credit : List Nat
  ctot : List Nat
  freed : List Nat
  report : Nat
  robin : Nat
  /-- Units of the packets being sent on each channel (R320), and the beat since which a channel has been stalled (R464). -/
  sending : List (List (BitVec 128))
  stalled : List (Option Nat)
  /-- Fair queueing of the crossbar output, for each channel (R379): V; finish tags and head tags by 256 × channel + tenant. -/
  fqV : List Nat
  fqF : SMap Nat
  fqH : SMap Nat
  /-- Receive streams (units of a packet not yet whole), flits not yet freed, packets awaiting ingress, link messages. -/
  stream : List (List (BitVec 128))
  held : List Nat
  rx : List RxPkt
  inbox : List (BitVec 128)
  /-- Flits of the last slot as sent: lane and flit. -/
  tx : List (Nat × BitVec 2048)
  /-- Codewords that the lit lanes completed in the last slot, markers included: lane and codeword; message bits of each lane's
  codeword in progress; flit slot of the marker period; marker periods counted modulo 2^32 (R315, R316). -/
  words : List (Nat × BitVec 5440)
  txBits : List Nat
  txSlot : Nat
  period : Nat
  /-- Flit slot of the marker period that is received next, and the logical lane of each physical lane (R316). -/
  rxSlot : Nat
  lanes : List Nat
  lastGood : Nat
  /-- Lanes of the receive mask that have lost signal while all are lost, and since when (R337). -/
  dark : Nat
  lostAt : Option Nat
  req : Option LinkReq
  /-- Requests that wait until none is outstanding: retrain?, mask or cause. -/
  want : List (Bool × Nat)
  width : Option WidthCh
  token : Nat
  /-- Transmit lanes lit. -/
  lit : Nat
  /-- Training runs: beat it began; it has passed IDENT for a resumption (R340). -/
  training : Option Nat
  ident : Bool
  /-- ACKSEQ of a RESUME received; CREDIT_INIT received. -/
  resumed : Option Nat
  credited : Bool
  /-- Beat at which RETRAINING began; grace expiry beat of HOLD (R342). -/
  retrainAt : Nat
  expiry : Nat
  /-- Beat of the last widening under AUTOW (R338); beat at which a hung link was disabled (R464). -/
  widenAt : Nat
  hungAt : Option Nat
  deriving DecidableEq, Repr

/-- A link at reset: DOWN, no sequence or credit state. -/
def Link.reset : Link where
  expect := 0
  av := false
  rnum := 0
  rr := false
  rrSince := 0
  rrCount := 0
  next := 0
  replay := []
  roll := []
  rolled := none
  ctl := []
  credit := [0, 0, 0, 0, 0, 0]
  ctot := [0, 0, 0, 0, 0, 0]
  freed := [0, 0, 0, 0, 0, 0]
  report := 0
  robin := 0
  sending := [[], [], [], [], [], []]
  stalled := [none, none, none, none, none, none]
  fqV := [0, 0, 0, 0, 0, 0]
  fqF := []
  fqH := []
  stream := [[], [], [], [], [], []]
  held := [0, 0, 0, 0, 0, 0]
  rx := []
  inbox := []
  tx := []
  words := []
  txBits := [0, 0, 0, 0]
  txSlot := 0
  period := 0
  rxSlot := 0
  lanes := [0, 1, 2, 3]
  lastGood := 0
  dark := 0
  lostAt := none
  req := none
  want := []
  width := none
  token := 0
  lit := 0
  training := none
  ident := false
  resumed := none
  credited := false
  retrainAt := 0
  expiry := 0
  widenAt := 0
  hungAt := none



/-- What one boot flash holds (R455, R480, R484): the image of its slot and the records of its identity area. -/
structure BootFlash where
  image : List Byte
  cfg : Option CfgRecord
  min : Option MinRecord
  deriving DecidableEq, Repr

/-- A management session (R482, R483): its connection, client address, keys and IVs of both directions, frame counts, beat
of the last frame, the digest H2, and, once it is open, its key, role and tenant. -/
structure Session where
  conn : Nat
  src : Nat
  keyIn : BitVec 256
  keyOut : BitVec 256
  ivIn : BitVec 96
  ivOut : BitVec 96
  nIn : Nat
  nOut : Nat
  last : Nat
  h2 : BitVec 512
  who : Option Cred
  deriving DecidableEq, Repr

/-- What SEC sends on a connection (R482 to R486). -/
inductive MgtBody where
  /-- ACCEPT: the plain bytes before its protected part. -/
  | accept (plain : List Byte)
  /-- READY: session number, granted role and tenant. -/
  | ready (session : Nat) (role : Role) (tenant : Nat)
  | denied
  | busy
  | done
  | report (bytes : List Byte)
  /-- The answer to READ_STATE (Table RST-8). -/
  | state (bytes : List Byte)
  /-- The connection is closed. -/
  | close
  deriving DecidableEq, Repr

/-- A frame that SEC sends on a connection at a beat: its type, what it says, and its protected bytes as sealed. -/
structure MgtFrame where
  conn : Nat
  ty : Nat
  body : MgtBody
  sealed : List Byte
  at_ : Nat
  deriving DecidableEq, Repr

/-- A command of a session that SEC has passed to the firmware of the claim holder (R485). -/
structure FwCommand where
  conn : Nat
  role : Role
  tenant : Nat
  op : SessOp
  deriving DecidableEq, Repr

/-- A region marked for measurement, with its last root, the version and the beat of completion (R487). -/
structure Meas where
  region : Nat
  root : Option (BitVec 512)
  version : Nat
  mbeat : Nat
  pages : Nat
  tenant : Nat
  mode : Nat
  deriving DecidableEq, Repr

/-- A region of a tenant under teardown (R467): tenant, space, base and length. -/
structure GoneRgn where
  tenant : Nat
  space : Nat
  base : Nat
  len : Nat
  deriving DecidableEq, Repr

/-- SEC and MGT beside their registers (R466 to R488). -/
structure Sec where
  /-- State of each tenant: 0 FREE, 1 ACTIVE, 2 TEARDOWN. -/
  tenants : SMap Nat
  gone : List GoneRgn
  flash : List BootFlash
  /-- Running image: FW_DIG and SVN. -/
  fw : Option (BitVec 512 × Nat)
  /-- The endorsement has been signed (R478). -/
  endorsed : Bool
  sessions : List Session
  /-- Failed AUTHs: source address and beat; addresses blocked until a beat (R485). -/
  fails : List (Nat × Nat)
  blocked : SMap Nat
  meas : List Meas
  /-- Region whose measurement runs. -/
  measRun : Option Nat
  /-- Frames sent, oldest first, and commands passed to the firmware. -/
  mgtOut : List MgtFrame
  fwIn : List FwCommand
  deriving DecidableEq, Repr


/-- The state of the T7. -/
structure State where
  /-- The commands waiting, first in, first out. -/
  pending : List Instr
  /-- Master beat counter (R19), 64 bits. -/
  beat : Nat
  /-- Control-space words by address, where they differ from their reset value (R501 to R507). -/
  regs : SMap Word
  /-- Asynchronous events stamped and not yet resolved (R21). -/
  events : List Event
  /-- Events delivered to the control processors (R508). -/
  cpOut : List Delivered
  /-- The model's own counter of free values drawn. -/
  free : Nat
  /-- Beat replicas and distribution trees (R20). -/
  beatNet : BeatNet
  /-- Power control. -/
  pwr : Pwr
  /-- Control processors. -/
  cpx : Cpx
  /-- Reset logic. -/
  rst : Rst
  /-- Hosts and ingress. -/
  hosts : Hosts
  /-- Home slices. -/
  homes : Homes
  /-- Device memory and its codes. -/
  mem : Memory
  /-- Published regions. -/
  pub : Publish
  /-- The chip pair. -/
  mir : Mirror
  /-- Packets queued at the fabric ports' egress, oldest first; `port` is the port. -/
  out : List Pkt
  /-- DRAM channels; DchSt.reset where unlisted. -/
  dch : SMap DchSt
  /-- Frames queued for zeroing by both brushes, oldest first (R414). -/
  zeroq : List ZeroJob
  /-- Beat at which the current lap of each brush began (R413). -/
  lapStart : List Nat
  /-- Requests outstanding at a peer T7 (R52). -/
  peers : List PeerReq
  /-- SEQ of the next request this T7 sends as a peer (R351). -/
  peerSeq : Nat
  /-- Dynamic responses on their way to their source tile (R203). -/
  meshResp : List MPkt
  /-- Tenant counters, 16 per tenant (R498). -/
  tenCnt : SMap Nat
  /-- Mesh bars since the bar counters last restarted (R188, R26). -/
  mbar : Nat
  /-- The flash tier. -/
  flash : Flash
  /-- Tiles, cores and the mesh. -/
  tiles : Tiles
  /-- DISP. -/
  disp : Disp
  /-- Ilusia links of the fabric ports; Link.reset where unlisted. -/
  links : SMap Link
  /-- SEC and MGT. -/
  sec : Sec
  /-- Beat of the last update of each tenant counter page, or of the write that enabled it (R498). -/
  tpageAt : SMap Nat
  /-- SEQ last written to each tenant counter page (Table TEL-4). -/
  tpageSeq : SMap Nat
  deriving DecidableEq, Repr

/-- Why the machine stops with a fault. -/
inductive Fault where
  /-- Never raised by a command of the spec: every effect the spec describes is a next state.  Safe. -/
  | none
  deriving DecidableEq, Repr

/-- Why a command has no meaning. -/
inductive Refusal where
  /-- A command not modelled yet, rejected by name.  Safe. -/
  | notModelled (mnemonic : String)
  deriving DecidableEq, Repr

/-- The machine right after the power-on reset of island 99: every register at its reset value (R443). -/
def State.reset : State where
  pending := []
  beat := 0
  regs := []
  events := []
  cpOut := []
  free := 0
  beatNet := ⟨[], []⟩
  pwr := Pwr.reset
  cpx := ⟨[], [none, none], 0, false⟩
  rst := ⟨none, none, false, false, none, none, [], none, []⟩
  hosts := ⟨[], [], [], [], [], [], [], [], [], [], [], 0, [], [], 0, [], [], [], [], [], [], [], [], []⟩
  homes := ⟨[], [], [], [], [], [], [], [], [], [], [], [], [], [], [], 0, [], [], [], [], []⟩
  mem := ⟨[], [], [], [], [], [], [], false, false, [], []⟩
  pub := ⟨[], [], [], [], [], [], [], []⟩
  mir := ⟨[], [], [], [], [], false, false, [], [], [], none, 0, 0, 0, false, []⟩
  out := []
  dch := []
  zeroq := []
  lapStart := [0, 0]
  peers := []
  peerSeq := 0
  meshResp := []
  tenCnt := []
  mbar := 0
  flash := ⟨[], [], [], [], [], [0, 0], [0, 0], [], [], [], [0, 0], [], [], [], [], [], [], []⟩
  tiles := ⟨0, [], [], [], [], [], [], [], [], [], [], [], [], [], [], [], [], [], [], [], [], [], 0, [], [], [], ⟨[], [], [], [], [], []⟩, [], [], [], [], []⟩
  disp := ⟨[], [], [], [], [], [], [], [], none⟩
  links := []
  sec := ⟨[], [], [⟨[], none, none⟩, ⟨[], none, none⟩], none, false, [], [], [], [], none, [], []⟩
  tpageAt := []
  tpageSeq := []

end Sys2Proof.Machine
end

