-- ==== Sys2Proof/Machine/Ops.lean ====
section
/-! DEFINITION. The named operations over the control space: reading and writing register fields, events, counters,
the clamp report, and the one path that every control-space write takes (R6 to R8, R21 to R24, R435, R489 to R491,
R501 to R512). -/

namespace Sys2Proof.Machine

/-- Apply a state change once for each element, in order. -/
def each {α : Type} (l : List α) (f : α → State → State) (s : State) : State := l.foldl (fun s a => f a s) s

/-- The stored value of a control-space word. -/
def State.reg (s : State) (csa : Nat) : Nat := (SMap.get (resetWord csa) s.regs csa).toNat

/-- Store a control-space word. -/
def State.setReg (s : State) (csa v : Nat) : State :=
  { s with regs := SMap.set (resetWord csa) s.regs csa (BitVec.ofNat 64 v) }

/-- Read a field. -/
def State.rd (s : State) (f : Fld) : Nat := bits (s.reg f.csa) f.hi f.lo

/-- Is a one-bit field set? -/
def State.on (s : State) (f : Fld) : Bool := s.rd f == 1

/-- Write a field, whatever its access code: the block's own update (R505). -/
def State.wr (s : State) (f : Fld) (v : Nat) : State := s.setReg f.csa (setBits (s.reg f.csa) f.hi f.lo v)

/-- Saturating increment of a field (R510 and the chapters' saturating counts). -/
def State.inc (s : State) (f : Fld) : State := s.wr f (satInc (s.rd f) (f.hi - f.lo + 1))

/-- Saturating addition to a field. -/
def State.add (s : State) (f : Fld) (n : Nat) : State := s.wr f (satAdd (s.rd f) n (f.hi - f.lo + 1))

/-- Draw a free value: the counter's number, and the state with the counter advanced. -/
def State.draw (s : State) : Nat × State := (s.free, { s with free := s.free + 1 })

/-- Beat at which what is detected now is resolved (R21, R22). -/
def State.eff (s : State) : Nat := s.beat + 2

/-- Is the T7 in the fatal halt (R446)? -/
def State.halted (s : State) : Bool := s.on F.rstCtlHalted

/-- A command of the running part: in the fatal halt, and while the always-on rail is down, nothing happens (R426).  No
command touches the queue or the beat counter (R19). -/
def live (s : State) (f : State → State) : Host.Outcome State Fault Refusal :=
  if s.halted || s.rst.porHeld then .next s else .next { f s with pending := s.pending, beat := s.beat }

/-- A command that is served in the fatal halt as well (R446). -/
def always (s : State) (f : State → State) : Host.Outcome State Fault Refusal :=
  if s.rst.porHeld then .next s else .next { f s with pending := s.pending, beat := s.beat }

/-- A frame or a timer of a management session: SEC and MGT serve them in the fatal halt as well, unless the fatal fault lies in one
of them (R446), and not while MGT is under reset (Table RST-5). -/
def managed (s : State) (f : State → State) : Host.Outcome State Fault Refusal :=
  always s fun s =>
    if (s.on F.rstCtlHalted && (s.rd F.rstCauseFblk = 857 || s.rd F.rstCauseFblk = 858)) || s.on (F.hdrStateInreset 858) then s
    else f s

/-- An event of the always-on supply, which nothing holds off and which alone may clear the beat counter (R443). -/
def supply (s : State) (f : State → State) : Host.Outcome State Fault Refusal := .next { f s with pending := s.pending }

/-- A beat passes with no command waiting (R19): the 64-bit master counter counts on, except while VAON holds the power-on
reset. -/
def State.nextBeat (s : State) : State := if s.rst.porHeld then s else { s with beat := (s.beat + 1) % 2 ^ 64 }

/-- Raise an event: it is stamped with the present beat and waits for its resolution (R21). -/
def State.raise (s : State) (blk cls : Nat) (bit : Option Nat) : State :=
  { s with events := s.events ++ [⟨s.beat, cls, blk, bit⟩] }

/-- Global block indices of Table ARC-6. -/
def blkHome (k : Nat) : Nat := 672 + k
def blkDch (k : Nat) : Nat := 736 + k
def blkPort (p : Nat) : Nat := 768 + p
def blkNvp (n : Nat) : Nat := 832 + n
def blkXbar (d : Nat) : Nat := 848 + d
def blkBrush (d : Nat) : Nat := 850 + d
def blkPerc (d : Nat) : Nat := 852 + d
def blkCp (n : Nat) : Nat := 854 + n
def blkSec : Nat := 857
def blkMgt : Nat := 858
def blkBeat : Nat := 859
def blkRst : Nat := 860
def blkPwr : Nat := 861
def blkDisp : Nat := 862

/-- Does counter `m` of a block, whose control word is `ctl`, select the event (R489)? -/
def cntSelects (ctl code qual : Nat) : Bool :=
  tst ctl 10 && bits ctl 7 0 == code &&
    ((List.range 16).all fun i => !(tst (bits ctl 47 32) i) || bit (bits ctl 31 16) i == bit qual i)

/-- Add `n` to a 48-bit counter; a wrap sets OVF and, under OVIE, raises event bit m of class 9 (R491). -/
def State.cntAdd (s : State) (blk m n : Nat) : State :=
  let c := s.rd (F.cntCount blk m) + n
  let s := s.wr (F.cntCount blk m) (c % 2 ^ 48)
  if c < 2 ^ 48 then s
  else
    let s := s.wr (F.cntCtlOvf blk m) 1
    if s.on (F.cntCtlOvie blk m) then s.raise blk 9 (some m) else s

/-- Count `n` occurrences of event `code` with a qualifier in a block, in every enabled counter that selects it and
is in mode COUNT (R489); frozen counters stand (R492), as do all counters in the fatal halt (R493). -/
def State.tel (s : State) (blk code qual n : Nat) : State :=
  if s.on F.beatTelCtlFrozen || s.halted then s
  else
    let es := s.regs.filter fun e => e.1 / 0x100000 == blk && 0xF80 ≤ e.1 % 0x100000 && e.1 % 0x100000 < 0x1000
    each es (fun e s =>
      let m := (e.1 % 0x100000 - 0xF80) / 8
      if cntSelects e.2.toNat code qual && bits e.2.toNat 9 8 == 0 then s.cntAdd blk m n else s) s

/-- Change what is followed of a tagged request (R495). -/
def State.track (s : State) (host tag : Nat) (f : Track → Track) : State :=
  if s.hosts.tagged.isEmpty then s
  else { s with hosts := { s.hosts with
    tagged := s.hosts.tagged.map fun x => if x.host = host && x.tag = tag then f x else x } }

/-- A tagged request reaches a stage of Table TEL-2: the last snoop answer and the final response count, else the first time. -/
def State.stage (s : State) (host tag n : Nat) : State :=
  s.track host tag fun x =>
    if n = 5 || n = 7 then { x with stamps := (x.stamps.filter fun e => e.1 ≠ n) ++ [(n, s.beat)] }
    else if x.stamps.any fun e => e.1 == n then x
    else { x with stamps := x.stamps ++ [(n, s.beat)] }

/-- A flag of Table TEL-3 becomes set. -/
def State.trackFlag (s : State) (host tag i : Nat) : State := s.track host tag fun x => { x with flags := setBits x.flags i i 1 }

/-- Add a quantity's value in a cycle to the counters in mode SUM that select it (R489). -/
def State.telSum (s : State) (blk code qual v : Nat) : State :=
  if s.on F.beatTelCtlFrozen || s.halted then s
  else
    let es := s.regs.filter fun e => e.1 / 0x100000 == blk && 0xF80 ≤ e.1 % 0x100000 && e.1 % 0x100000 < 0x1000
    each es (fun e s =>
      let m := (e.1 % 0x100000 - 0xF80) / 8
      if cntSelects e.2.toNat code qual && bits e.2.toNat 9 8 == 1 then s.cntAdd blk m v else s) s

/-- Sample a quantity into the counters in mode MAX that select it (R489). -/
def State.telMax (s : State) (blk code qual v : Nat) : State :=
  if s.on F.beatTelCtlFrozen || s.halted then s
  else
    let es := s.regs.filter fun e => e.1 / 0x100000 == blk && 0xF80 ≤ e.1 % 0x100000 && e.1 % 0x100000 < 0x1000
    each es (fun e s =>
      let m := (e.1 % 0x100000 - 0xF80) / 8
      if cntSelects e.2.toNat code qual && bits e.2.toNat 9 8 == 2 && s.rd (F.cntCount blk m) < v
      then s.wr (F.cntCount blk m) v else s) s

/-- Flags of a clamp report entry (Table CSP-4). -/
def fReserved : Nat := 0x01
def fRange : Nat := 0x02
def fDouble : Nat := 0x04
def fClaim : Nat := 0x08
def fState : Nat := 0x10
def fBusy : Nat := 0x20
def fRefused : Nat := 0x40
def fUnmapped : Nat := 0x80

/-- Write one clamp report entry (R510): the ring, HEAD, TOTAL, OVF, the block's CLAMPED and CLAMPS, the event. -/
def State.clampEntry (s : State) (blk off writer flags written stored : Nat) : State :=
  let h := s.rd F.rstClampCtlHead
  let full := 64 ≤ s.rd F.rstClampCtlTotal
  let base := blkRst * 0x100000 + 0x400 + 32 * h
  let s := s.setReg base s.eff
  let s := s.setReg (base + 8) (blk + off * 2 ^ 10 + writer * 2 ^ 30 + flags * 2 ^ 32)
  let s := s.setReg (base + 16) written
  let s := s.setReg (base + 24) stored
  let s := s.wr F.rstClampCtlHead ((h + 1) % 64)
  let s := s.inc F.rstClampCtlTotal
  let s := if full then s.wr F.rstClampCtlOvf 1 else s
  let s := (s.wr (F.hdrStateClamped blk) 1).inc (F.hdrStateClamps blk)
  if s.on F.rstClampCtlIe then s.raise blkRst 9 (some 16) else s

/-- Top of installed DRAM in bytes: TOP of DCH[0].MAP (R512). -/
def State.dramTop (s : State) : Nat := s.rd F.dchMapTop * 2 ^ 30

/-- Zone of a DPA (Table DRM-2), 0 to 3. -/
def State.zone (s : State) (dpa : Nat) : Nat :=
  let g := dpa / 2 ^ 30
  if g < s.rd F.dchMapZb1 then 0 else if g < s.rd F.dchMapZb2 then 1 else if g < s.rd F.dchMapZb3 then 2 else 3

/-- Strength P of a zone. -/
def zoneP : Nat → Nat
  | 0 => 0 | 1 => 1 | 2 => 2 | _ => 4

/-- The structure areas of Table CSP-6 in force: area number, base and size in bytes, the register that holds it. -/
def State.areas (s : State) : List (Nat × Nat × Nat × Nat) :=
  let a (i base size csa : Nat) (chk : Bool) : List (Nat × Nat × Nat × Nat) :=
    if base = 0 || size = 0 || !chk then [] else [(i, base * 0x10000, size, csa)]
  let k := 0x10000
  a 0 (s.rd F.homeXltBaseSpt) k F.homeXltBaseSpt.csa true ++
  a 1 (s.rd F.homeXltBaseRgt) (4 * 2 ^ 20) F.homeXltBaseRgt.csa true ++
  a 2 (s.rd F.homePwtBasePwt) k F.homePwtBasePwt.csa true ++
  a 3 (s.rd F.homeFltQBase) (s.rd F.homeFltQLen * k) F.homeFltQBase.csa true ++
  a 4 (s.rd F.homePubCtlStgBase) (s.rd F.homePubCtlStgCount * k) F.homePubCtlStgBase.csa true ++
  a 5 (s.rd F.xbarIdemBase) (2 ^ 32) F.xbarIdemBase.csa (s.on F.xbarIdemEn) ++
  a 6 (s.rd F.percAreaRecBase) (s.rd F.percAreaRecLen * k + 2 ^ 29) F.percAreaRecBase.csa (0 < s.rd F.percAreaRecLen) ++
  a 7 (s.rd F.percSramCtlBase) (s.rd F.percSramCtlFrames * k) F.percSramCtlBase.csa true ++
  a 8 (s.rd F.cpCkptBase) (2 ^ 24) F.cpCkptBase.csa true ++
  a 9 (s.rd F.rstDumpBase) (ceilDiv (s.rd F.rstDumpSlots * 576 * 1024) k * k) F.rstDumpBase.csa true ++
  a 10 (s.rd (F.beatSmpBaseBase 0)) (s.rd (F.beatSmpBaseLen 0) * k) (F.beatSmpBaseBase 0).csa (s.on (F.beatSmpBaseEn 0)) ++
  a 11 (s.rd (F.beatSmpBaseBase 1)) (s.rd (F.beatSmpBaseLen 1) * k) (F.beatSmpBaseBase 1).csa (s.on (F.beatSmpBaseEn 1))

/-- The base and size bits of the register that holds an area: what a refusal keeps (R512). -/
def areaBits : Nat → List (Nat × Nat)
  | 0 => [(31, 0)] | 1 => [(63, 32)] | 2 => [(31, 0)] | 3 => [(31, 0), (47, 32)] | 4 => [(31, 0), (47, 32)]
  | 5 => [(31, 0)] | 6 => [(31, 0), (63, 32)] | 7 => [(31, 0), (42, 32)] | 8 => [(31, 0)] | 9 => [(31, 0), (41, 32)]
  | _ => [(31, 0), (47, 32)]

/-- Flags against one area as written: beyond TOP, overlap, or a checkpoint area outside a zone of strength 2 or 4. -/
def State.areaFlags (s : State) (a : Nat × Nat × Nat × Nat) : Nat :=
  let meets := s.areas.any fun b => b.1 ≠ a.1 && a.2.1 < b.2.1 + b.2.2.1 && b.2.1 < a.2.1 + a.2.2.1
  let z := s.zone a.2.1
  let bad := s.dramTop < a.2.1 + a.2.2.1 || (a.1 == 8 && (z < 2 || s.zone (a.2.1 + a.2.2.1 - 1) ≠ z))
  (if bad then fRange else 0) + (if meets then fDouble else 0)

/-- Check the areas held in register `csa` with the value `new` against every set area (R512): the value that stands
and the flags. -/
def State.areaCheck (s : State) (csa old new : Nat) : Nat × Nat :=
  let s' := s.setReg csa new
  (s'.areas.filter fun a => a.2.2.2 == csa).foldl (fun acc a =>
    let f := s'.areaFlags a
    if f = 0 then acc
    else ((areaBits a.1).foldl (fun w hl => setBits w hl.1 hl.2 (bits old hl.1 hl.2)) acc.1, acc.2 ||| f)) (new, 0)

/-- Clamp a written field value to what its description permits (R8, R509): value and whether it was clamped. -/
def permitted (p : Perm) (old v : Nat) : Nat × Bool :=
  match p with
  | .any => (v, false)
  | .range lo hi => (clamp lo hi v, clamp lo hi v ≠ v)
  | .codes l => if l.contains v then (v, false) else (old, true)

/-- One field's part of a write: the register word after it, and the flags. -/
def writeField (f : FieldDesc) (v : Nat) (acc : Nat × Nat) : Nat × Nat :=
  let cur := bits acc.1 f.hi f.lo
  let w := bits v f.hi f.lo
  match f.acc with
  | .ro => acc
  | .wo => acc
  | .rw1c => (setBits acc.1 f.hi f.lo (cur - (cur &&& w)), acc.2)
  | .rwc =>
    let (x, c) := permitted f.perm cur w
    (setBits acc.1 f.hi f.lo x, if c then acc.2 ||| fRange else acc.2)

/-- The bits of a register that no field holds (R7). -/
def reservedBits (r : RegDesc) : Nat :=
  r.fields.foldl (fun m f => setBits m f.hi f.lo 0) (2 ^ 64 - 1)

/-- Event codes of Table TEL-1 defined for a block type, with the first allowed mode of each: 0 COUNT, 1 SUM. -/
def telModes (t : BlkType) (code : Nat) : Option (List Nat) :=
  let top : Nat := match t with
    | .tile => 0x0D | .home => 0x11 | .dch => 0x04 | .fport => 0x0A | .xbar => 0x0B | .disp => 0x08 | .perc => 0x04
    | .nvp => 0x02 | .brush => 0x04 | .sec => 0x06 | .rst => 0x05 | .cp => 0x03 | _ => 0
  if top < code then none
  else match t, code with
    | .tile, 3 => some [1, 2] | .home, 0x0E => some [1, 2] | .home, 0x0F => some [1, 2] | .xbar, 2 => some [1, 2]
    | .brush, 4 => some [0, 1, 2] | _, _ => some [0]

/-- A counter control word that selects an event or a mode Table TEL-1 does not give the block (R489, R490): the word that
stands and flags. -/
def telCheck (t : BlkType) (off new : Nat) : Nat × Nat :=
  if 0xF80 ≤ off && off < 0x1000 then
    let c := bits new 7 0
    let (w, c, f) := match telModes t c with
      | some _ => (new, c, 0)
      | none => (setBits new 7 0 0, 0, fRange)
    match telModes t c with
    | some (m :: ms) => if (m :: ms).contains (bits w 9 8) then (w, f) else (setBits w 9 8 m, f ||| fRange)
    | _ => (w, f)
  else (new, 0)

/-- Rules that judge several fields of one register together, or against the state: the word that stands and flags.  A WMASK of 0
is clamped to the transmit mask, which is the mask in force (DEDUCED, log entry 6). -/
def State.groupCheck (s : State) (t : BlkType) (i off old new : Nat) : Nat × Nat :=
  let csa (b : Nat) := b * 0x100000 + off
  match t, off with
  | .dch, 0x400 =>
    if s.mem.mapFixed then (old, fState)
    else
    let z1 := bits new 16 2; let z2 := bits new 31 17; let z3 := bits new 46 32; let top := bits new 61 47
    if z1 ≤ z2 && z2 ≤ z3 && z3 ≤ top then (new, 0) else (setBits old 1 0 (bits new 1 0), fRange)
  | .dch, 0x100 =>
    let st := s.rd (F.dchFenceState i)
    if (bit old 0 = 1 && bit new 0 = 0 && st ≠ 5) || (bit old 1 ≠ bit new 1 && st ≠ 2 && st ≠ 3) then (old, fState)
    else (new, 0)
  | .home, 0x200 => s.areaCheck (csa 672) old new
  | .home, 0x208 => s.areaCheck (csa 672) old new
  | .home, 0x230 => s.areaCheck (csa 672) old new
  | .home, 0x2A0 => s.areaCheck (csa 672) old new
  | .xbar, 0x400 => s.areaCheck (csa 848) old new
  | .cp, 0x108 => s.areaCheck (csa 854) old new
  | .rst, 0x138 => s.areaCheck (csa 860) old new
  | .home, 0x238 =>
    let n := s.rd F.homeFltQLen * 1024
    let tl := bits new 57 32
    if tl < n then (new, 0) else (setBits new 57 32 (n - 1), fRange)
  | .beat, o =>
    if o = 0x300 || o = 0x308 then s.areaCheck (csa 859) old new
    else if o = 0x310 || o = 0x318 then
      let n := s.rd (F.beatSmpBaseLen ((o - 0x310) / 8)) * 1024
      let tl := bits new 57 32
      if tl < n then (new, 0) else (setBits new 57 32 (n - 1), fRange)
    else if o = 0x200 then
      let g := bits new 12 8
      if g = 0 || (4 ≤ g && g ≤ 30) then (new, 0) else (setBits new 12 8 (clamp 4 30 g), fRange)
    else telCheck t o new
  | .perc, 0x108 =>
    let lo := bits new 15 0; let hi := bits new 31 16
    if lo < hi then (new, 0) else (setBits new 31 16 (min (lo + 1) 65535), fRange)
  | .perc, 0x118 => s.areaCheck (csa 852) old new
  | .perc, 0x200 =>
    if s.homes.regions.any fun e => bits e.2.toNat 8 7 == 0 then (old, fState)
    else
    let (w, f) := if bits new 31 0 < 2 ^ 28 then (new, 0) else (setBits new 31 0 (bits old 31 0), fRange)
    let (w, f) := if bits w 53 43 ≤ bits w 42 32 then (w, f) else (setBits w 53 43 (bits w 42 32), f ||| fRange)
    let (w, g) := s.areaCheck (csa 852) old w
    (w, f ||| g)
  | .fport, 0x100 =>
    if bits new 3 0 = 0 then (setBits new 3 0 (s.rd (F.fportLstatTxmask i)), fRange) else (new, 0)
  | .fport, 0x200 =>
    let m := max (bits new 27 8) 256
    if m ≤ bits new 55 32 then (new, 0) else (setBits new 55 32 m, fRange)
  | .rst, 0x130 =>
    let m := min 255 (ceilDiv (s.rd F.homeCohCtlSnpTmo) 1024 + 62)
    if m ≤ bits new 55 48 then (new, 0) else (setBits new 55 48 m, fRange)
  | .nvp, 0x100 =>
    let st := s.rd (F.nvpDrvState i)
    if bit new 2 = 1 && bit old 2 = 0 && st ≠ 0 && st ≠ 4 && st ≠ 5 then (setBits new 2 2 0, fState) else (new, 0)
  | _, o => telCheck t o new

/-- A misaligned control-space access, or one beyond window 862 (R501): BUS_ERROR to the processor, nothing changes,
RST event bit 17 of class 9. -/
def State.accessError (s : State) : State := s.raise blkRst 9 (some 17)

/-- What a command bit of a register does when a write of it has passed the clapper: from the written word and the
state with the register's other fields updated, the state after the command and the clamp flags it earns. -/
abbrev Hook := Nat → State → State × Nat

/-- No command bit. -/
def noHook : Hook := fun _ s => (s, 0)

/-- Append a command of the PAIR to the command log (R436): a ring of 4,096 entries. -/
def State.logCmd (s : State) (csa v : Nat) (c : Cmd) : State :=
  if c.writer ≠ 0#2 || (s.cpx.log.any fun e => e.seq == c.seq.toNat) then s
  else
    let l := s.cpx.log ++ [⟨c.seq.toNat, csa, v⟩]
    let l := if 4096 < l.length then l.drop 1 else l
    { s with cpx := { s.cpx with log := l } }.wr F.cpCkptLogfill (min 255 (l.length * 256 / 4096))

/-- A write judged by the clapper of its block and applied (R505 to R510): old-claim and duplicate commands discarded,
reserved bits forced to zero, fields clamped, command bits acted on, and the write recorded when it was forced,
clamped, discarded or refused. -/
def State.clapped (s : State) (csa v : Nat) (c : Cmd) (hook : Hook) : State :=
  let w := csa / 0x100000
  let off := csa % 0x100000
  let (t, i) := blkOfWindow w
  let wr := c.writer.toNat
  if c.seq.toNat ≤ s.rd (F.hdrSeqSeq w) then s
  else if c.claim.toNat ≠ s.rd F.cpTrioClaim then s.clampEntry w off wr fClaim v (s.reg csa)
  else
    let s := s.wr (F.hdrSeqSeq w) c.seq.toNat
    match findReg t i off with
    | some r =>
      let old := s.reg csa
      let res := v &&& reservedBits r
      let (new, fl) := r.fields.foldl (fun acc f => writeField f v acc) (old, if res = 0 then 0 else fReserved)
      let (new, g) := s.groupCheck t i off old new
      let (s, h) := hook v (s.setReg csa new)
      let fl := fl ||| g ||| h
      if fl = 0 then s else s.clampEntry w off wr fl v (s.reg csa)
    | none =>
      match arrayWord t off with
      | some true =>
        let old := s.reg csa
        let new := v - (v &&& arrayReserved t off)
        let (s', h) := hook new (s.setReg csa new)
        let fl := if new = v then 0 else fReserved
        if h = 0 then (if fl = 0 then s' else s'.clampEntry w off wr fl v (s'.reg csa))
        else (s.setReg csa old).clampEntry w off wr (fl ||| h) v old
      | some false => if v &&& arrayReserved t off = 0 then s else s.clampEntry w off wr fReserved v (s.reg csa)
      | none => s.clampEntry w off wr fUnmapped v 0

/-- Is the writer stopped by a comparison mismatch?  A FROZEN processor, and a pair with a FROZEN member, releases no command
(R434). -/
def State.frozenWriter (s : State) (c : Cmd) : Bool :=
  match c.writer.toNat with
  | 0 => s.rd F.cpTrioRole0 = 4 || s.rd F.cpTrioRole1 = 4
  | 1 => s.rd F.cpTrioRole0 = 4
  | 2 => s.rd F.cpTrioRole1 = 4
  | _ => s.rd F.cpTrioRole2 = 4

/-- A control-space write as a processor sends it: nothing from a FROZEN one (R434), access errors of R501, the command log, the
clapper of a block under reset, which holds it (R439), and otherwise the judgement at once. -/
def State.ctlWrite (s : State) (csa v : Nat) (c : Cmd) (hook : Hook) : State :=
  if s.frozenWriter c then s
  else if csa % 8 ≠ 0 || 863 ≤ csa / 0x100000 then s.accessError
  else
    let s := s.logCmd csa v c
    if s.on (F.hdrStateInreset (csa / 0x100000)) then
      { s with rst := { s.rst with held := s.rst.held ++ [⟨csa, v, c⟩] } }
    else s.clapped csa v c hook

/-- A register's value as a read returns it to a writer that leaves its other fields alone: write-only fields and reserved bits
read zero, and zeros leave write-one-to-clear fields as they are (R505). -/
def plainBits (csa w : Nat) : Nat :=
  let b := blkOfWindow (csa / 0x100000)
  match findReg b.1 b.2 (csa % 0x100000) with
  | some r => r.fields.foldl (fun w f => match f.acc with
      | .wo => setBits w f.hi f.lo 0
      | .rw1c => setBits w f.hi f.lo 0
      | _ => w) (w &&& (2 ^ 64 - 1 - reservedBits r))
  | none => w

/-- Replace fields of a register's present value, as a writer that changes only them does. -/
def State.compose (s : State) (csa : Nat) (fs : List (Fld × Nat)) : Nat :=
  fs.foldl (fun w f => setBits w f.1.hi f.1.lo f.2) (plainBits csa (s.reg csa))

/-! ## Shares of strict partition (R474, R475) -/

/-- Gate class of a tenant (R383). -/
def State.gateOf (s : State) (t : Nat) : Nat :=
  bits (s.reg (blkXbar 0 * 0x100000 + 0x600 + 8 * (t / 8))) (8 * (t % 8) + 6) (8 * (t % 8) + 4)

/-- Strict partition of a tenant (R474): the partition of its gate class, while strict partition is on. -/
def State.strictOf (s : State) (t : Nat) : Option Nat :=
  let g := s.gateOf t
  if s.on F.secPartCtlEn && s.on (F.secPartEn g) then some g else none

/-- A share of a resource of `n` units for a tenant (R475): each strict partition takes its part, the others the rest. -/
def State.shareOf (s : State) (n t : Nat) : Nat :=
  if !s.on F.secPartCtlEn then n
  else
    let np := s.rd F.secPartCtlNp
    match s.strictOf t with
    | some _ => n / (np + 1)
    | none => n - np * (n / (np + 1))

/-! ## Links -/

/-- A port's link. -/
def State.link (s : State) (p : Nat) : Link := SMap.get Link.reset s.links p

/-- Change a port's link. -/
def State.setLink (s : State) (p : Nat) (f : Link → Link) : State :=
  { s with links := SMap.set Link.reset s.links p (f (s.link p)) }

/-- Flits of a channel that a port's receive buffer gives up: the peer's credit (R324). -/
def State.freeFlits (s : State) (p vc n : Nat) : State :=
  s.setLink p fun l => { l with freed := l.freed.set vc ((l.freed.getD vc 0 + n) % 4096) }

end Sys2Proof.Machine
end

