-- ==== Sys2Proof/Machine/Router.lean ====
section
/-! DEFINITION. Routers: mesh plans and neighbours (R187, R193 to R195), the ways of dynamic packets, and the injection units
(R197 to R201, R204). -/

namespace Sys2Proof.Machine

/-- Change what the tiles hold, and what the dynamic network holds. -/
def State.setTiles (s : State) (f : Tiles → Tiles) : State := { s with tiles := f s.tiles }
def State.setNet (s : State) (f : Net → Net) : State := s.setTiles fun t => { t with net := f t.net }

/-- Tile state of Table TIL-5. -/
def State.tileState (s : State) (t : Nat) : Nat := s.rd (F.tileStateState t)

/-- Is a tile without its cores, scratchpad and landing buffer (Table TIL-5)? -/
def State.tileOff (s : State) (t : Nat) : Bool := 3 ≤ s.tileState t

/-! ## Mesh plans (R193 to R196) and neighbours -/

/-- Plan entry of an output port at a cycle of the bar. -/
def State.meshEntry (s : State) (active : Bool) (tile port cyc : Nat) : Nat :=
  let o := 2 * (1024 * port + cyc)
  bits (s.reg (tile * 0x100000 + (if active then 0x8000 else 0x4000) + o / 8 * 8)) (8 * (o % 8) + 15) (8 * (o % 8))

/-- Write a plan entry; there are 1,024 cycles of five ports. -/
def State.setMeshEntry (s : State) (active : Bool) (tile port cyc v : Nat) : State :=
  let o := 2 * (1024 * port + cyc)
  let a := tile * 0x100000 + (if active then 0x8000 else 0x4000) + o / 8 * 8
  if 5 ≤ port || 1024 ≤ cyc then s
  else s.setReg a (setBits (s.reg a) (8 * (o % 8) + 15) (8 * (o % 8)) v)

/-- Fields of a mesh plan entry: a PATTERN entry of an assigned group, its source, its group. -/
def meshPattern (e : Nat) : Bool := (bits e 1 0 == 1 || bits e 1 0 == 2) && bits e 12 5 ≠ 0
def meshSrc (e : Nat) : Nat := bits e 4 2
def meshGroup (e : Nat) : Nat := bits e 12 5

/-- The tile beyond an output port, none at the mesh's edge. -/
def neighbour (tile port : Nat) : Option Nat :=
  match port with
  | 0 => if tileY tile = 0 then none else some (tile - 28)
  | 1 => if tileX tile = 27 then none else some (tile + 1)
  | 2 => if tileY tile = 23 then none else some (tile + 28)
  | _ => if tileX tile = 0 then none else some (tile - 1)

/-- Does the link beyond an output port cross an island boundary (R187)? -/
def crossing (tile port : Nat) : Bool :=
  port == 0 || port == 2 || (port == 1 && tileX tile == 13) || (port == 3 && tileX tile == 14)

/-! ## Ways (R200, R201, R204) -/

/-- Is the router at a column and row bypassed (R200)? -/
def State.bypassed (s : State) (x y : Nat) : Bool := s.tileState (28 * y + x) == 4

/-- The first live router beyond an output port: bypassed routers pass flits straight through. -/
def State.beyond (s : State) (port : Nat) : Nat → Nat → Option Nat
  | 0, _ => none
  | n + 1, t => match neighbour t port with
    | none => none
    | some u => if s.tileState u = 4 then s.beyond port n u else some u

/-- May no packet turn at the router of a column and row: it is bypassed, or the column is a mesh edge, where there is no router? -/
def State.noTurn (s : State) (x y : Nat) : Bool := 28 ≤ x || s.bypassed x y

/-- Mesh column of a packet field: the edges lie beside columns 0 and 27. -/
def meshCol (x : Nat) : Nat := if x < 28 then x else if x = 62 then 0 else 27

/-- Flits in a virtual-channel buffer; 16 less these are the credits of the router before it (R199). -/
def State.vcFill (s : State) (tile inp vc : Nat) : Nat := (SMap.get [] s.tiles.net.bufs (20 * tile + 4 * inp + vc)).length

/-- Free credits at the first hop through an output; the edges always sink. -/
def State.credits (s : State) (t o vc : Nat) : Nat :=
  match s.beyond o 28 t with
  | some u => 16 - s.vcFill u ((o + 2) % 4) vc
  | none => 16

/-- Network of a unicast packet, true for YX, and the relay router where both turns are bypassed (R200). -/
def State.choose (s : State) (cls : Bool) (sx sy dx dy : Nat) : Bool × Option Nat :=
  let c := if cls then 2 else 0
  if sx == dx || sy == dy then (false, none)
  else match s.noTurn dx sy, s.noTurn sx dy with
    | false, false =>
      let t := 28 * sy + sx
      let x := s.credits t (if sx < dx then 1 else 3) c
      let y := s.credits t (if sy < dy then 2 else 0) (c + 1)
      (x < y, none)
    | false, true => (false, none)
    | true, false => (true, none)
    | true, true =>
      let far (x : Nat) : Nat := (x - meshCol dx) + (meshCol dx - x)
      match minBy? (fun x => 28 * far x + x) (findAll 28 fun x => !s.bypassed x sy && !s.bypassed x dy) with
      | some x => (false, some (28 * dy + x))
      | none => (false, none)

/-- Tiles that a packet reaches (R204). -/
def mTargets (m : MPkt) : List Nat :=
  match m.mc.toNat with
  | 1 => findAll 672 fun t => tileY t == m.dy.toNat && m.mlo.toNat ≤ tileX t && tileX t ≤ m.mhi.toNat
  | 2 => findAll 672 fun t => tileX t == m.dx.toNat && m.mlo.toNat ≤ tileY t && tileY t ≤ m.mhi.toNat
  | _ => if m.dx.toNat < 28 && m.dy.toNat < 24 then [28 * m.dy.toNat + m.dx.toNat] else []

/-- Outputs of a unicast packet bound for router `g` at router `t`; a bypassed target ends the packet at the last live router. -/
def State.toward (s : State) (t g : Nat) (yx : Bool) : List Nat :=
  let h := if tileX t < tileX g then 1 else 3
  let v := if tileY t < tileY g then 2 else 0
  let o := if tileX t = tileX g then v else if tileY t = tileY g || !yx then h else v
  let len := (tileX t - tileX g) + (tileX g - tileX t) + ((tileY t - tileY g) + (tileY g - tileY t))
  let line := tileX t = tileX g || tileY t = tileY g
  let past : Bool := match s.beyond o 28 t with
    | some u => decide (len < (tileX t - tileX u) + (tileX u - tileX t) + ((tileY t - tileY u) + (tileY u - tileY t)))
    | none => true
  if line && s.tileState g = 4 && past then [6] else [o]

/-- Outputs of a packet at a router that it entered by input `inp`: 0 to 3 a link, 4 local, 5 the relay buffer, 6 the end (R200,
R201, R204). -/
def State.routes (s : State) (t inp : Nat) (p : NetPkt) : List Nat :=
  let m := p.pkt
  let live (l : List Nat) : Bool := l.any fun u => s.tileState u ≠ 4
  let me : List Nat := if s.tileOff t then [6] else [4]
  match p.via, m.mc.toNat with
  | some r, _ => if t = r then [5] else s.toward t r false
  | none, 1 =>
    if tileY t ≠ m.dy.toNat then (if tileY t < m.dy.toNat then [2] else [0])
    else
      let ts := mTargets m
      let l := (if inp ≠ 1 && live (ts.filter fun u => tileX t < tileX u) then [1] else []) ++
        (if inp ≠ 3 && live (ts.filter fun u => tileX u < tileX t) then [3] else []) ++ (if ts.contains t then me else [])
      if l.isEmpty then [6] else l
  | none, 2 =>
    if tileX t ≠ meshCol m.dx.toNat then (if tileX t < meshCol m.dx.toNat then [1] else [3])
    else
      let ts := mTargets m
      let l := (if inp ≠ 2 && live (ts.filter fun u => tileY u < tileY t) then [0] else []) ++
        (if inp ≠ 0 && live (ts.filter fun u => tileY t < tileY u) then [2] else []) ++ (if ts.contains t then me else [])
      if l.isEmpty then [6] else l
  | none, _ =>
    let x := m.dx.toNat
    let g := 28 * (m.dy.toNat % 24) + meshCol x
    if 28 ≤ x && x < 62 then [6]
    else if t = g then (if x = 62 then [3] else if x = 63 then [1] else me)
    else if 28 ≤ x && s.tileState g = 4 && tileY t = tileY g then [if x = 62 then 3 else 1]
    else s.toward t g m.vn

/-! ## Injection units -/

/-- Operations that Table TIL-13 defines. -/
def meshOp (o : Nat) : Bool := (1 ≤ o && o ≤ 0x0C) || (0x20 ≤ o && o ≤ 0x28)

/-- Index of the tile that a packet's source names; 672 for a mesh edge. -/
def mSource (m : MPkt) : Nat := if m.sx.toNat < 28 && m.sy.toNat < 24 then 28 * m.sy.toNat + m.sx.toNat else 672

/-- Router and input port at which a packet's source injects: its own tile's local input, or the mesh-edge port's link to the first
live router of its row. -/
def State.entryPort (s : State) (m : MPkt) : Nat × Nat :=
  let y := m.sy.toNat % 24
  if m.sx.toNat < 28 then (28 * y + m.sx.toNat, 4)
  else if m.sx.toNat = 62 then (if s.bypassed 0 y then (s.beyond 1 28 (28 * y)).getD (28 * y) else 28 * y, 3)
  else (if s.bypassed 27 y then (s.beyond 3 28 (28 * y + 27)).getD (28 * y + 27) else 28 * y + 27, 1)

/-- A packet with its network chosen, as its source sends it: a multicast whose turn router is bypassed goes as one unicast to each
tile in range (R200, R204). -/
def State.outgoing (s : State) (m : MPkt) : List NetPkt :=
  let uni (m : MPkt) : NetPkt :=
    let (yx, via) := s.choose m.cls m.sx.toNat m.sy.toNat m.dx.toNat m.dy.toNat
    ⟨{ m with vn := yx }, via⟩
  let col := meshCol m.sx.toNat
  let split (turn : Bool) : List NetPkt := if turn then
      (mTargets m).map fun t => uni { m with mc := 0, dx := BitVec.ofNat 6 (tileX t), dy := BitVec.ofNat 5 (tileY t) }
    else [⟨{ m with vn := m.mc == 1 }, none⟩]
  match m.mc.toNat with
  | 1 => split (m.sy ≠ m.dy && s.bypassed col m.dy.toNat)
  | 2 => split (m.sx ≠ m.dx && s.bypassed (meshCol m.dx.toNat) m.sy.toNat)
  | _ => [uni m]

/-- Put packets at their injection units. -/
def State.netQueue (s : State) (ps : List NetPkt) : State :=
  s.setNet fun n => { n with queue := n.queue ++ ps.map fun p => ⟨p, (s.entryPort p.pkt).1, (s.entryPort p.pkt).2, 0, false⟩ }

/-- Put a request on the mesh. -/
def State.meshSend (s : State) (m : MPkt) : State :=
  let ps := s.outgoing m
  (s.setTiles fun t => { t with mesh := t.mesh ++ ps.map (·.pkt) }).netQueue ps

/-- A packet but for the network it takes and the marks it gathers on its way: congestion and poison. -/
def mKey (m : MPkt) : MPkt :=
  { m with vn := false, ce := false, inlPoison := false, flits := m.flits.map fun f => (f.1, 0#2) }

/-- Are flits of a packet still on their way? -/
def State.inNet (s : State) (m : MPkt) : Bool :=
  (s.tiles.net.queue.any fun e => decide (mKey e.of_.pkt = mKey m)) ||
    s.tiles.net.bufs.any fun e => e.2.any fun f => decide (mKey f.of_.pkt = mKey m)

end Sys2Proof.Machine
end

