-- ==== Sys2Proof/Machine/Codes.lean ====
section
/-! DEFINITION. Where data and parity lie (R128, R129), the page code over GF(2^8) (R395), and CRC-64/ECMA-182. -/

namespace Sys2Proof.Machine

/-- Byte `k` of a line. -/
def lineByte (l : Line) (k : Nat) : Byte := l.extractLsb' (8 * k) 8

/-- A line from a list of bytes, zero beyond its end. -/
def lineOf (bs : List Byte) : Line := BitVec.ofNat 1024 (leNat (bs.take 128))

/-- The bytes of a line. -/
def lineBytes (l : Line) : List Byte := (List.range 128).map (lineByte l)

/-- Half-block `h` (0 or 1) of a line. -/
def lineFlit (l : Line) (h : Nat) : Flit := l.extractLsb' (512 * h) 512

/-- A line of two half-blocks. -/
def flitLine (a b : Flit) : Line := b ++ a

/-- The 1,024-bit mask of a byte mask. -/
def expandMask (m : BitVec 128) : Line :=
  BitVec.ofNat 1024 ((List.range 128).foldl (fun acc k => if m.getLsbD k then acc + 255 * 2 ^ (8 * k) else acc) 0)

/-- Bytes selected by the mask from `new`, the others from `old` (R102, R392). -/
def mergeLine (old new : Line) (m : BitVec 128) : Line :=
  let x := expandMask m
  (old &&& ~~~x) ||| (new &&& x)

/-- Multiplication by x in GF(2^8) with the field polynomial 0x11D (R395). -/
def gfTwice (a : Nat) : Nat := if 128 ≤ a then (2 * a) % 256 ^^^ 0x1D else 2 * a

/-- Product in GF(2^8): the low `n` bits of `b` taken from bit 0 up. -/
def gfMulN : Nat → Nat → Nat → Nat
  | 0, _, _ => 0
  | n + 1, a, b => (if b % 2 = 1 then a else 0) ^^^ gfMulN n (gfTwice a) (b / 2)

/-- Product in GF(2^8). -/
def gfMul (a b : Nat) : Nat := gfMulN 8 a b

/-- Power in GF(2^8). -/
def gfPow (a : Nat) : Nat → Nat
  | 0 => 1
  | n + 1 => gfMul a (gfPow a n)

/-- Inverse in GF(2^8): a^254. -/
def gfInv (a : Nat) : Nat := gfPow a 254

/-- Multiply a polynomial (constant term first) by (x + r). -/
def polyMulX (p : List Nat) (r : Nat) : List Nat :=
  List.zipWith (· ^^^ ·) (0 :: p) (p.map (gfMul r) ++ [0])

/-- The generator polynomial of strength P, constant term first (R395). -/
def genPoly : Nat → List Nat
  | 0 => [1]
  | p + 1 => polyMulX (genPoly p) (gfPow 2 p)

/-- Multiply a remainder of degree below P by x, modulo the generator. -/
def remTimesX (p : Nat) (r : List Nat) : List Nat :=
  let top := r.getLastD 0
  List.zipWith (fun a g => a ^^^ gfMul top g) (0 :: r.dropLast) ((genPoly p).take p)

/-- Coefficients of x^(c + P) mod g(x): λ(j, c) for j = 0 .. P − 1 (R396). -/
def lambdaCol (p : Nat) : Nat → List Nat
  | 0 => (genPoly p).take p
  | c + 1 => remTimesX p (lambdaCol p c)

/-- λ(j, c) of R396. -/
def lambda (p j c : Nat) : Nat := (lambdaCol p c).getD j 0

/-- Multiply every byte of a line by a field element. -/
def gfScale (a : Nat) (l : Line) : Line :=
  if a = 0 then 0#1024 else if a = 1 then l
  else lineOf ((lineBytes l).map fun b => BitVec.ofNat 8 (gfMul a b.toNat))

/-- Parity line j of the 16 data lines of a stripe half (R395). -/
def parityOf (p j : Nat) (ds : List Line) : Line :=
  (List.range 16).foldl (fun acc c => acc ^^^ gfScale (lambda p j c) (ds.getD c 0#1024)) 0#1024

/-- Reduce a linear system by one pivot: choose the first row with a nonzero head, normalise it and clear the others. -/
def pivot (rows : List (List Nat × Line)) : Option ((List Nat × Line) × List (List Nat × Line)) :=
  match rows.findIdx? fun r => r.1.headD 0 ≠ 0 with
  | none => none
  | some i =>
    let r := rows.getD i ([], 0#1024)
    let k := gfInv (r.1.headD 0)
    let n := (r.1.map (gfMul k), gfScale k r.2)
    some (n, (rows.eraseIdx i).map fun q =>
      let h := q.1.headD 0
      ((List.zipWith (fun a b => a ^^^ gfMul h b) q.1 n.1).tail, q.2 ^^^ gfScale h n.2))

/-- Solve a linear system over GF(2^8) whose right-hand sides are lines: the unknown lines, first unknown first. -/
def gfSolve : Nat → List (List Nat × Line) → Option (List Line)
  | 0, _ => some []
  | n + 1, rows =>
    match pivot rows with
    | none => none
    | some (p, rest) =>
      match gfSolve n rest with
      | none => none
      | some xs => some ((List.zipWith (fun a x => gfScale a x) p.1.tail xs).foldl (· ^^^ ·) p.2 :: xs)

/-- CRC-64/ECMA-182: the register shifted by one bit, and one byte into it. -/
def crcStep (c : Nat) : Nat := 2 * c % 2 ^ 64 ^^^ c / 2 ^ 63 * 0x42F0E1EBA9EA3693
def crcByte (crc : Nat) (b : Byte) : Nat :=
  crcStep (crcStep (crcStep (crcStep (crcStep (crcStep (crcStep (crcStep (crc ^^^ b.toNat * 2 ^ 56))))))))

/-- CRC-64/ECMA-182 of a byte string, initial value and final mask zero. -/
def crc64 (bs : List Byte) : BitVec 64 := BitVec.ofNat 64 (bs.foldl crcByte 0)

/-- Channel, subchannel and line index of a data line (R128), by DPA. -/
def placeOf (dpa : Nat) : Nat × Nat × Nat :=
  let d := bit dpa 8
  let i := bits dpa 11 9
  let t := bit dpa 12
  let m := bits dpa 43 13
  (16 * d + (i + 8 * t + m % 16) % 16, bit dpa 7, m)

/-- DPA of the data line that lies at a place (the inverse of R128). -/
def dpaOfPlace (k sub m : Nat) : Nat :=
  let x := (k % 16 + 16 - m % 16) % 16
  m * 2 ^ 13 + (x / 8) * 2 ^ 12 + (x % 8) * 2 ^ 9 + (k / 16) * 2 ^ 8 + sub * 2 ^ 7

/-- Channel of a data line. -/
def chanOf (dpa : Nat) : Nat := (placeOf dpa).1

/-- First GiB of a zone. -/
def State.zoneBase (s : State) : Nat → Nat
  | 0 => 0 | 1 => s.rd F.dchMapZb1 | 2 => s.rd F.dchMapZb2 | _ => s.rd F.dchMapZb3

/-- Size of a zone in GiB. -/
def State.zoneSize (s : State) : Nat → Nat
  | 0 => s.rd F.dchMapZb1
  | 1 => s.rd F.dchMapZb2 - s.rd F.dchMapZb1
  | 2 => s.rd F.dchMapZb3 - s.rd F.dchMapZb2
  | _ => s.rd F.dchMapTop - s.rd F.dchMapZb3

/-- First parity line of a zone on each subchannel (R129). -/
def State.parBase (s : State) (z : Nat) : Nat :=
  s.rd F.dchMapTop * 2 ^ 17 + (List.range z).foldl (fun a y => a + s.zoneSize y * 2 ^ 13 * zoneP y) 0

/-- Channel and line index of parity chunk `j` of the stripe that holds `dpa` (R129). -/
def State.parityPlace (s : State) (dpa j : Nat) : Nat × Nat :=
  let t := bit dpa 12
  let m := bits dpa 43 13
  let r := m % 16
  let z := s.zone dpa
  let b := (m - s.zoneBase z * 2 ^ 17) / 16
  let d := (j + b) % 2
  let jd := j / 2
  let q := if zoneP z = 1 then (b / 2) * 2 + (1 - t) else b * zoneP z + 2 * jd + (1 - t)
  (16 * d + (r + 8 * (1 - t) + jd) % 16, s.parBase z + q)

/-- Lines on each subchannel that MAP places: data and parity (R536). -/
def State.linesPerSub (s : State) : Nat := s.parBase 4

/-- The stripe half of a line (R395): stripe number and subchannel. -/
def halfOf (dpa : Nat) : Nat := dpa / 4096 * 2 + bit dpa 7

/-- DPA of data line `c` of a stripe half. -/
def halfLine (h c : Nat) : Nat := h / 2 * 4096 + c * 256 + h % 2 * 128

/-- Stripe half (by stripe, of subchannel `sub`) and parity chunk of a channel's parity line `l`: the inverse of R129. -/
def State.parityAt (s : State) (k sub l : Nat) : Option (Nat × Nat) :=
  match [3, 2, 1].find? fun z => 0 < s.zoneSize z && s.parBase z ≤ l && l < s.parBase (z + 1) with
  | none => none
  | some z =>
    let p := zoneP z
    let q := l - s.parBase z
    let t := 1 - q % 2
    let d := k / 16
    let b := if p = 1 then q / 2 * 2 + d else q / p
    let jd := q % p / 2
    let j := if p = 1 then 0 else 2 * jd + (d + b) % 2
    let r := (k % 16 + 32 - 8 * (1 - t) - jd) % 16
    let m := s.zoneBase z * 2 ^ 17 + 16 * b + r
    some (2 * (2 * m + t) + sub, j)

/-- Stripe-pair index of the line of a channel: its own index for a data line, its stripe's for a parity line. -/
def State.stripeOf (s : State) (k l : Nat) : Nat :=
  match if l < s.rd F.dchMapTop * 2 ^ 17 then none else s.parityAt k 0 l with
  | some (h, _) => h / 4
  | none => l

/-- Column and row of a line index under the address map (Table DRM-3). -/
def cellOf (order l : Nat) : Nat × Nat :=
  if order = 3 then (bits l 8 3, bits l 27 9) else (bits l 11 6, bits l 30 12)

/-- Bank of a line index under the address map (Table DRM-3): PC, BA, BG.  `m` is the stripe index of a parity line
under PARTITIONED order. -/
def bankOf (order l m : Nat) : Nat × Nat × Nat :=
  match order with
  | 0 => (bit l 5, bits l 4 3, bits l 2 0)
  | 1 => (bit l 0, bits l 5 4, bits l 3 1)
  | 2 => (bit l 0 ^^^ bit l 20, bits l 5 4 ^^^ bits l 19 18, bits l 3 1 ^^^ bits l 14 12 ^^^ bits l 17 15)
  | _ => (bit m 30, bits m 29 28, bits l 2 0)

/-- Fold of R42. -/
def fold (sp o : Nat) : Nat :=
  let key := (bits o 47 9 * 2 + bit o 7) ^^^ (sp * 2 ^ 30)
  (List.range 8).foldl (fun h g => h ^^^ bits key (5 * g + 4) (5 * g)) 0

/-- Home slice of a line (R42). -/
def homeOf (sp o : Nat) : Nat := 32 * bit o 8 + fold sp o

/-- Home slice of a pool pointer. -/
def homeOfPtr (p : Nat) : Nat := homeOf (bits p 63 54) (bits p 47 0)

/-- Fault home of a granule with base offset `b` (R62). -/
def faultHome (sp b : Nat) : Nat := 32 * (popcount (bits b 47 16) 32 % 2) + fold sp b

/-- Adapter cache set of a line (R70). -/
def setOf (sp o : Nat) : Nat := homeOf sp o * 64 + bits o 13 9 * 2 + bit o 7

/-- A pool pointer of a space and an offset (Table ADR-1). -/
def ptrOf (sp o : Nat) : Nat := sp * 2 ^ 54 + o

/-- Space and offset of a pool pointer. -/
def ptrSpace (p : Nat) : Nat := bits p 63 54
def ptrOff (p : Nat) : Nat := bits p 47 0

/-- Is the reserved field of a pool pointer zero (R32)? -/
def ptrOk (p : Nat) : Bool := bits p 53 48 == 0

end Sys2Proof.Machine
end

