-- ==== Sys2Proof/Machine/Memory.lean ====
section
/-! DEFINITION. Device memory: stored lines with their inner code, the page code's parity, the recompute queue, line
caches, and the reads and writes of one line by DPA with every outcome of R392 to R409, R148, R149 and R416. -/

namespace Sys2Proof.Machine

/-- The state a channel holds beside its registers. -/
def State.dc (s : State) (k : Nat) : DchSt := SMap.get DchSt.reset s.dch k

/-- Change what a channel holds. -/
def State.setDc (s : State) (k : Nat) (f : DchSt → DchSt) : State :=
  { s with dch := SMap.set DchSt.reset s.dch k (f (s.dc k)) }

/-- The byte at a DPA as stored; a byte never written reads 0x00 (DESIGN CHOICE, log entry 3). -/
def memByte (m : List Host.Cell) (a : Nat) : Byte := SMap.get 0#8 m a

/-- Replace the bytes from `base` on, keeping the cells in rising order with no zero byte listed. -/
def memWrite (m : List Host.Cell) (base : Nat) (bs : List Byte) : List Host.Cell :=
  m.filter (fun c => c.1 < base) ++
    ((List.range bs.length).filterMap fun i =>
      let b := bs.getD i 0#8
      if b = 0#8 then none else some (base + i, b)) ++
    m.filter (fun c => base + bs.length ≤ c.1)

/-- The 128 bytes stored at a line's DPA. -/
def State.storedLine (s : State) (dpa : Nat) : Line :=
  BitVec.ofNat 1024 ((s.mem.dram.filter fun c => dpa ≤ c.1 && c.1 < dpa + 128).foldl
    (fun acc c => acc + c.2.toNat * 2 ^ (8 * (c.1 - dpa))) 0)

/-- Store 128 bytes. -/
def State.storeLine (s : State) (dpa : Nat) (l : Line) : State :=
  { s with mem := { s.mem with dram := memWrite s.mem.dram dpa (lineBytes l) } }

/-- All check bits inverted: the poison encoding (R392). -/
def poisonSynd : BitVec 256 := BitVec.allOnes 256

/-- Check-bit deviation of a data line where none is recorded: a zone-0 line of a channel rebuilt whole is poisoned
(R149), every other line is valid. -/
def State.syndDefault (s : State) (n : Nat) : BitVec 256 :=
  if s.zone (n * 128) = 0 && (s.dc (chanOf (n * 128))).z0pois then poisonSynd else 0#256

/-- Stored check bits of a line, exclusive-or those R391 gives for its data and address. -/
def State.synd (s : State) (dpa : Nat) : BitVec 256 := SMap.get (s.syndDefault (dpa / 128)) s.mem.synd (dpa / 128)

/-- Record a line's check-bit deviation. -/
def State.setSynd (s : State) (dpa : Nat) (v : BitVec 256) : State :=
  { s with mem := { s.mem with synd := SMap.set (s.syndDefault (dpa / 128)) s.mem.synd (dpa / 128) v } }

/-- Number of bytes whose check fails. -/
def failBytes (v : BitVec 256) : Nat :=
  (List.range 128).foldl (fun n k => if v.extractLsb' (2 * k) 2 = 0#2 then n else n + 1) 0

/-- Does the channel serve the line index (Table DRM-9, R416)? -/
def State.served (s : State) (k l : Nat) : Bool :=
  let st := s.rd (F.dchFenceState k)
  st == 0 || (st == 6 && l < s.rd (F.dchFenceFront k))

/-- Does the channel of a data line serve it? -/
def State.lineServed (s : State) (dpa : Nat) : Bool := s.served (chanOf dpa) (bits dpa 43 13)

/-- Is an access to the line held at home until its channel is back (R149)? -/
def State.lineHeld (s : State) (dpa : Nat) : Option Nat :=
  let k := chanOf dpa
  let c := s.rd (F.dchFenceCause k)
  if s.zone dpa = 0 && !s.lineServed dpa && (c == 1 || c == 5) && !(s.dc k).pwrLost then some k else none

/-- Does an access that the T7 makes for itself to some bytes of the pool wait for a fenced channel (R149)? -/
def State.bytesHeld (s : State) (dpa : Nat) : Bool := (s.lineHeld (dpa / 128 * 128)).isSome

/-- Keep an access of the T7 until its channel is back (R149). -/
def State.memWait (s : State) (k : Nat) (w : MemWait) : State := { s with mem := { s.mem with waits := s.mem.waits ++ [(k, w)] } }

/-- Classification of a stored line by its check bits and zone (R393): Table INT-3. -/
def classify (p : Nat) (v : BitVec 256) : Nat :=
  if v = 0#256 then 0 else if v = poisonSynd then 3 else if 0 < p then 1 else 2

/-- Write an error log entry (R408). -/
def State.elog (s : State) (k l sub kind src bytes : Nat) (fixed : Bool) : State :=
  let ctl := F.dchElogCtlHead k
  let h := s.rd ctl
  let base := blkDch k * 0x100000 + 0xC00
  let id := l + sub * 2 ^ 31 + kind * 2 ^ 32
  let rep := (List.range 32).any fun i =>
    bits (s.reg (base + 16 * i + 8)) 35 0 == id && s.reg (base + 16 * i + 8) ≠ 0 &&
      s.lapStart.getD (k / 16) 0 ≤ s.reg (base + 16 * i)
  let full := 32 ≤ s.rd (F.dchElogCtlTotal k)
  let s := s.setReg (base + 16 * h) s.beat
  let s := s.setReg (base + 16 * h + 8)
    (id + src * 2 ^ 36 + bytes * 2 ^ 40 + (if fixed then 2 ^ 48 else 0) + (if rep then 2 ^ 49 else 0))
  let s := (s.wr ctl ((h + 1) % 32)).inc (F.dchElogCtlTotal k)
  if full then s.wr (F.dchElogCtlOvf k) 1 else s

/-- Put a channel out of service with a cause: FENCE.EN set, the channel drains or is fenced at once (R147). -/
def State.startFence (s : State) (k cause : Nat) : State :=
  let st := s.rd (F.dchFenceState k)
  let s := (s.wr (F.dchFenceEn k) 1).wr (F.dchFenceCause k) cause
  let s := if st = 0 then s.wr (F.dchFenceState k) 1 else if st = 6 then s.wr (F.dchFenceState k) 2 else s
  let s := (s.wr (F.dchFenceJovf k) 0).wr (F.hdrStateOut (blkDch k)) 1
  s.setDc k fun d => { d with journal := [], pwrLost := false, z0lost := d.z0lost || st = 6, fencedSerial := d.serial }

/-- A channel fences itself (R147): an event of class 6. -/
def State.selfFence (s : State) (k cause : Nat) : State :=
  let st := s.rd (F.dchFenceState k)
  if st = 0 || st = 6 then (s.startFence k cause).raise (blkDch k) 6 none else s

/-- Count an ERASED or UNCORRECTABLE line (R409): LINES, the 1 ms window, and the fence when MAX is exceeded. -/
def State.errorLine (s : State) (k : Nat) : State :=
  let s := s.inc (F.dchErrLines k)
  let s := s.setDc k fun d => { d with errs := s.beat :: d.errs.filter fun b => s.beat < b + 31250 }
  if s.on (F.dchErrSfen k) && s.rd (F.dchErrMax k) < (s.dc k).errs.length then s.selfFence k 2 else s

/-- Value of a parity line: as stored with every accepted delta applied (R396). -/
def State.parityLine (s : State) (h j : Nat) : Line :=
  SMap.get 0#1024 s.mem.parity (4 * h + j) ^^^ SMap.get 0#1024 s.mem.merge (4 * h + j)

/-- Write a parity line whole: pending deltas of it are gone. -/
def State.setParity (s : State) (h j : Nat) (l : Line) : State :=
  { s with mem := { s.mem with parity := SMap.set 0#1024 s.mem.parity (4 * h + j) l,
                               merge := SMap.erase s.mem.merge (4 * h + j) } }

/-- Entries of the parity merge buffer of a channel (R396). -/
def State.mergeOf (s : State) (k : Nat) : List Nat :=
  (s.mem.merge.map (·.1)).filter fun e => (s.parityPlace (halfLine (e / 4) 0) (e % 4)).1 == k

/-- Apply one merged entry: a read followed by a write of the parity line. -/
def State.applyMerge (s : State) (e : Nat) : State := s.setParity (e / 4) (e % 4) (s.parityLine (e / 4) (e % 4))

/-- Accept a delta for parity line `j` of a half (R396): it merges with what waits for that line; a full buffer of 256
lines applies its lowest entry first (DESIGN CHOICE, log entry 9). -/
def State.acceptDelta (s : State) (h j : Nat) (d : Line) (hm : Nat) : State :=
  let k := (s.parityPlace (halfLine h 0) j).1
  let m := s.mergeOf k
  let s := if 256 ≤ m.length && !m.contains (4 * h + j) then s.applyMerge (m.headD 0) else s
  let s := s.tel (blkHome hm) 0x0A 0 1
  { s with mem := { s.mem with merge := SMap.set 0#1024 s.mem.merge (4 * h + j)
                                 (SMap.get 0#1024 s.mem.merge (4 * h + j) ^^^ d) } }

/-- Does the channel of parity chunk `j` serve its line? -/
def State.parityServed (s : State) (h j : Nat) : Bool :=
  let (k, l) := s.parityPlace (halfLine h 0) j
  s.served k l

/-- Carried lines of a half in the recompute queue. -/
def State.carried (s : State) (h : Nat) : List (Nat × Line × Bool) :=
  match s.mem.recompute.find? fun e => e.1 == h with
  | some e => e.2.2
  | none => []

/-- Is the half stale: queued for a recompute (R399)? -/
def State.stale (s : State) (h : Nat) : Bool := s.mem.recompute.any fun e => e.1 == h

/-- Data, usability and poison of line `c` of a half, as its channel or the recompute queue holds it. -/
def State.halfData (s : State) (h c : Nat) : Option (Line × Bool) :=
  match (s.carried h).find? fun e => e.1 == c with
  | some e => some e.2
  | none =>
    let a := halfLine h c
    let v := s.synd a
    if s.lineServed a && (v = 0#256 || v = poisonSynd) then some (s.storedLine a, v = poisonSynd) else none

/-- Decode a stripe half (R395, R401): every data line with its poison, or none when the half cannot be decoded. -/
def State.decodeHalf (s : State) (h : Nat) : Option (List (Line × Bool)) :=
  let p := zoneP (s.zone (halfLine h 0))
  let have_ := (List.range 16).map (s.halfData h)
  let unk := findAll 16 fun c => (have_.getD c none).isNone
  let js := (findAll p fun j => s.parityServed h j).take unk.length
  if js.length < unk.length then none
  else
    let rows := js.map fun j =>
      (unk.map (lambda p j),
       (List.range 16).foldl (fun acc c => match have_.getD c none with
         | some (l, _) => acc ^^^ gfScale (lambda p j c) l
         | none => acc) (s.parityLine h j))
    match gfSolve unk.length rows with
    | none => none
    | some xs =>
      let pm := SMap.get 0 s.mem.parPois h
      some ((List.range 16).map fun c => match have_.getD c none with
        | some x => x
        | none => (xs.getD (unk.idxOf c) 0#1024, tst pm c))

/-- Note a write that a channel out of service did not take (R148). -/
def State.journal (s : State) (k m : Nat) : State :=
  let d := s.dc k
  if d.journal.contains m then s
  else if 65536 ≤ d.journal.length then s.wr (F.dchFenceJovf k) 1
  else s.setDc k fun d => { d with journal := d.journal ++ [m] }

/-- Recompute the parity of a stale half from its data lines and take it out of the queue (R399). -/
def State.recomputeHalf (s : State) (h : Nat) : State :=
  let p := zoneP (s.zone (halfLine h 0))
  let ds := (List.range 16).map fun c => (s.halfData h c).getD (0#1024, true)
  let s := (List.range p).foldl (fun s j =>
    if s.parityServed h j then s.setParity h j (parityOf p j (ds.map (·.1)))
    else s.journal (s.parityPlace (halfLine h 0) j).1 (bits (halfLine h 0) 43 13)) s
  let pm := (List.range 16).foldl (fun m c => if (ds.getD c (0#1024, false)).2 then m + 2 ^ c else m) 0
  { s with mem := { s.mem with parPois := SMap.set 0 s.mem.parPois h pm,
                               recompute := s.mem.recompute.filter fun e => e.1 ≠ h } }

/-- What the decode of a line's half gives for the line, after any recompute the half waits for. -/
def State.rebuiltLine (s : State) (dpa : Nat) : Option (Line × Bool) :=
  let h := halfOf dpa
  match (s.carried h).find? fun e => e.1 == bits dpa 11 8 with
  | some e => some e.2
  | none =>
    let s := if s.stale h then s.recomputeHalf h else s
    (s.decodeHalf h).map fun l => l.getD (bits dpa 11 8) (0#1024, true)

/-- A line as read: data, poison, the DCH status of Table INT-3 (6: line-cache hit), and whether it is held (R149). -/
structure LineRd where
  data : Line
  poison : Bool
  status : Nat
  held : Option Nat
  deriving DecidableEq, Repr

/-- Store a line with valid check bits or with the poison encoding, where its channel takes it. -/
def State.putLine (s : State) (dpa : Nat) (l : Line) (poison : Bool) : State :=
  (s.storeLine dpa l).setSynd dpa (if poison then poisonSynd else 0#256)

/-- Read one line from DRAM with the consequences of R393, R401, R407 to R409.  `src` is SRC of Table INT-4, `hm` the
home that asks. -/
def State.readDram (s : State) (dpa src hm : Nat) : LineRd × State :=
  let (k, sub, l) := placeOf dpa
  match s.lineHeld dpa with
  | some k => (⟨0#1024, true, 5, some k⟩, s)
  | none =>
    let p := zoneP (s.zone dpa)
    if !s.lineServed dpa then
      let s := s.tel (blkHome hm) 0x07 5 1
      if p = 0 then
        let (n, s) := s.draw
        (⟨Config.poisonedLine n, true, 5, none⟩, s)
      else
        match s.rebuiltLine dpa with
        | some (d, po) => (⟨d, po, 5, none⟩, s.tel (blkHome hm) 0x08 0 1)
        | none =>
          let (n, s) := s.draw
          (⟨Config.poisonedLine n, true, 5, none⟩, (s.tel (blkHome hm) 0x09 0 1).raise (blkHome hm) 6 none)
    else
      let v := s.synd dpa
      let st := classify p v
      let s := (s.tel (blkDch k) 0x03 st 1).tel (blkHome hm) 0x07 st 1
      match st with
      | 0 => (⟨s.storedLine dpa, false, 0, none⟩, s)
      | 3 => (⟨s.storedLine dpa, true, 3, none⟩, s)
      | 1 =>
        match s.rebuiltLine dpa with
        | some (d, po) =>
          let s := ((s.errorLine k).elog k l sub 1 src (failBytes v) true).tel (blkHome hm) 0x08 0 1
          (⟨d, po, 1, none⟩, (s.putLine dpa d po).raise (blkHome hm) 9 none)
        | none =>
          let d := s.storedLine dpa
          let s := ((s.errorLine k).elog k l sub 6 src (failBytes v) false).tel (blkHome hm) 0x09 0 1
          (⟨d, true, 1, none⟩, (s.putLine dpa d true).raise (blkHome hm) 6 none)
      | _ =>
        let s := (s.errorLine k).elog k l sub 2 src (failBytes v) false
        (⟨s.storedLine dpa, true, 2, none⟩, s.raise (blkHome hm) 6 none)

/-- The line in a home line cache. -/
def State.lcGet (s : State) (dpa : Nat) : Option LcLine := (s.homes.lc.find? fun e => e.1 == dpa / 128).map (·.2)

/-- Put a line into the line cache, or change it there. -/
def State.lcPut (s : State) (dpa : Nat) (l : LcLine) : State :=
  { s with homes := { s.homes with lc := SMap.insert (SMap.erase s.homes.lc (dpa / 128)) (dpa / 128) l } }

/-- Drop a line from the line cache. -/
def State.lcDrop (s : State) (dpa : Nat) : State :=
  { s with homes := { s.homes with lc := SMap.erase s.homes.lc (dpa / 128) } }

/-- Is a frame (DPA[47:16]) in the SRAM window (R163)? -/
def State.inSram (s : State) (f : Nat) : Bool :=
  let b := s.rd F.percSramCtlBase
  b ≤ f && f < b + s.rd F.percSramCtlFrames

/-- A line of the SRAM tier that is loaded (R163, R164). -/
def State.sramGet (s : State) (dpa : Nat) : Option (Line × Bool) :=
  if s.inSram (dpa / 0x10000) then (s.homes.sram.find? fun e => e.1 == dpa / 128).map (·.2) else none

/-- Load or replace a line of the SRAM tier. -/
def State.sramPut (s : State) (dpa : Nat) (l : Line) (poison : Bool) : State :=
  { s with homes := { s.homes with sram := SMap.insert (SMap.erase s.homes.sram (dpa / 128)) (dpa / 128) (l, poison) } }

/-- Drop the lines of a range of DPAs from the SRAM tier: they are served from DRAM until they are loaded again. -/
def State.sramDrop (s : State) (dpa n : Nat) : State :=
  { s with homes := { s.homes with sram := s.homes.sram.filter fun e => !(dpa ≤ e.1 * 128 && e.1 * 128 < dpa + n) } }

/-- Home data of a line (R77, R163): the SRAM tier where it is loaded there, the line cache when it hits, DRAM otherwise. -/
def State.readLine (s : State) (dpa src hm : Nat) : LineRd × State :=
  match s.sramGet dpa with
  | some l => (⟨l.1, l.2, 6, none⟩, s)
  | none => match s.lcGet dpa with
    | some l => (⟨l.data, l.poison, 6, none⟩, s)
    | none => s.readDram dpa src hm

/-- I/O die of a half's recompute queue: that of its parity chunk 0 (DEDUCED, log entry 43). -/
def State.queueDie (s : State) (h : Nat) : Nat := (s.parityPlace (halfLine h 0) 0).1 / 16

/-- Does a write to a line need an entry in the home part of a recompute queue that is full (R399)?  It then waits under the number 32
+ die, beside the channels that hold lines. -/
def State.partFull (s : State) (dpa : Nat) : Option Nat :=
  let h := halfOf dpa
  let d := s.queueDie h
  if 0 < zoneP (s.zone dpa) && !s.lineServed dpa && !s.stale h &&
      32768 ≤ (s.mem.recompute.filter fun e => !e.2.1 && s.queueDie e.1 == d).length then some (32 + d) else none

/-- Why a write at a home waits: for a fenced channel (R149), or for an entry in the recompute queue (R399). -/
def State.writeHeld (s : State) (dpa : Nat) : Option Nat :=
  match s.lineHeld dpa with
  | some k => some k
  | none => s.partFull dpa

/-- Lines that an entry of the recompute queue carries at first: every data line of the half on a channel that does not
serve it (R400). -/
def State.carryFenced (s : State) (h : Nat) : List (Nat × Line × Bool) :=
  match s.decodeHalf h with
  | some l => (findAll 16 fun c => !s.lineServed (halfLine h c)).map fun c => (c, l.getD c (0#1024, true))
  | none => []

/-- Put a stripe half into the recompute queue, carrying a line (R399); slot writes use the slot part.  A write that the T7 makes for
its own tables and finds the part full first completes its oldest recompute (DESIGN CHOICE, log entry 44). -/
def State.queueHalf (s : State) (h : Nat) (slot : Bool) (carry : Option (Nat × Line × Bool)) : State :=
  let old := if s.stale h then s.carried h else s.carryFenced h
  let c := match carry with
    | some e => e :: old.filter fun x => x.1 ≠ e.1
    | none => old
  if s.stale h then
    { s with mem := { s.mem with recompute := s.mem.recompute.map fun e => if e.1 = h then (h, e.2.1, c) else e } }
  else
    let part := s.mem.recompute.filter fun e => e.2.1 == slot && s.queueDie e.1 == s.queueDie h
    let s := if 32768 ≤ part.length then
        match part.head? with
        | some e => s.recomputeHalf e.1
        | none => s
      else s
    { s with mem := { s.mem with recompute := s.mem.recompute ++ [(h, slot, c)] } }

/-- Write a line of DRAM (R392, R396, R397, R399, R404): the selected bytes with valid check bits, the page code kept,
a poisoned line or poisoned data leaving the whole line poisoned. -/
def State.writeDram (s : State) (dpa : Nat) (l : Line) (mask : BitVec 128) (poison : Bool) (hm : Nat) : State :=
  let (k, _, m) := placeOf dpa
  let p := zoneP (s.zone dpa)
  let full := mask = BitVec.allOnes 128
  let h := halfOf dpa
  let c := bits dpa 11 8
  if s.lineServed dpa then
    let s := if 0 < p && classify p (s.synd dpa) = 1 then (s.readDram dpa 0 hm).2 else s
    let old := s.storedLine dpa
    let v := s.synd dpa
    let po := poison || (v = poisonSynd && !full)
    let new := mergeLine old l mask
    let v' := if po then poisonSynd else if full then 0#256
      else BitVec.ofNat 256 ((List.range 128).foldl (fun a i => if mask.getLsbD i then setBits a (2 * i + 1) (2 * i) 0 else a) v.toNat)
    let s := (s.storeLine dpa new).setSynd dpa v'
    if p = 0 then s
    else if s.stale h then
      { s with mem := { s.mem with parPois := SMap.set 0 s.mem.parPois h (setBits (SMap.get 0 s.mem.parPois h) c c (if po then 1 else 0)) } }
    else
      let s := (List.range p).foldl (fun s j =>
        if s.parityServed h j then s.acceptDelta h j (gfScale (lambda p j c) (old ^^^ new)) hm
        else s.journal (s.parityPlace dpa j).1 m) s
      { s with mem := { s.mem with parPois := SMap.set 0 s.mem.parPois h (setBits (SMap.get 0 s.mem.parPois h) c c (if po then 1 else 0)) } }
  else if p = 0 then
    match s.lineHeld dpa with
    | some k => s.memWait k (.write dpa l mask poison hm)
    | none => s.setDc k fun d => { d with z0lost := true }
  else
    let (old, wasPo) := (s.rebuiltLine dpa).getD (0#1024, true)
    let po := poison || (wasPo && !full)
    let new := mergeLine old l mask
    let s := (s.queueHalf h false (some (c, new, po))).journal k m
    if s.rd (F.dchFenceState k) = 6 then s.putLine dpa new po else s

/-- A whole line written by a pattern slot (R229, R399): no delta, its stripe half goes into the slot part of the recompute
queue; a channel that does not serve it takes no data. -/
def State.slotStore (s : State) (dpa : Nat) (l : Line) (poison : Bool) : State :=
  let (k, _, m) := placeOf dpa
  let c := bits dpa 11 8
  if zoneP (s.zone dpa) = 0 then
    if s.lineServed dpa then s.putLine dpa l poison else s.writeDram dpa l (BitVec.allOnes 128) poison (homeOf 0 dpa)
  else if s.lineServed dpa then (s.queueHalf (halfOf dpa) true none).putLine dpa l poison
  else
    let s := (s.queueHalf (halfOf dpa) true (some (c, l, poison))).journal k m
    if s.rd (F.dchFenceState k) = 6 then s.putLine dpa l poison else s

/-- Write back a dirty line of the line cache, which stays cached clean. -/
def State.lcForce (s : State) (dpa hm : Nat) : State :=
  match s.lcGet dpa with
  | some l =>
    if l.dirty then (s.writeDram dpa l.data (BitVec.allOnes 128) l.poison hm).lcPut dpa { l with dirty := false } else s
  | none => s

/-- A writeback: the line stays in the line cache until it holds the recompute entry that it needs (R399). -/
def State.lcClean (s : State) (dpa hm : Nat) : State := if (s.partFull dpa).isSome then s else s.lcForce dpa hm

/-- A write to a line of the SRAM window reaches the SRAM tier: where the line is loaded, or whole (R163, R164). -/
def State.sramWrite (s : State) (dpa : Nat) (l : Line) (mask : BitVec 128) (poison : Bool) : State :=
  let full := mask = BitVec.allOnes 128
  match s.sramGet dpa with
  | some (d, p) => s.sramPut dpa (mergeLine d l mask) (poison || (p && !full))
  | none => if s.inSram (dpa / 0x10000) && full then s.sramPut dpa l poison else s

/-- Write a line at its home: the line cache and DRAM, dirty data first, and the SRAM tier, which every write passes through
(R77, R163, R397). -/
def State.writeLine (s : State) (dpa : Nat) (l : Line) (mask : BitVec 128) (poison : Bool) (hm : Nat) : State :=
  let s := s.lcClean dpa hm
  let s := (s.writeDram dpa l mask poison hm).sramWrite dpa l mask poison
  match s.lcGet dpa with
  | some c =>
    s.lcPut dpa ⟨c.ptr, mergeLine c.data l mask, c.dirty, poison || (c.poison && mask ≠ BitVec.allOnes 128)⟩
  | none => s

/-- Poison the home copy of a line, in line cache and DRAM (R96). -/
def State.poisonLine (s : State) (dpa hm : Nat) : State :=
  let d := ((s.readLine dpa 0 hm).1).data
  let s := (s.writeDram dpa d (BitVec.allOnes 128) true hm).sramWrite dpa d (BitVec.allOnes 128) true
  match s.lcGet dpa with
  | some c => s.lcPut dpa { c with poison := true, dirty := false }
  | none => s

/-- `n` bytes of pool memory from a DPA that do not cross a line, and whether they are poisoned or held. -/
def State.readBytes (s : State) (dpa n hm : Nat) : Nat × LineRd × State :=
  let (r, s) := s.readLine (dpa / 128 * 128) 0 hm
  (bits r.data.toNat (8 * (dpa % 128 + n) - 1) (8 * (dpa % 128)), r, s)

/-- Write bytes of pool memory at a DPA within one line. -/
def State.writeBytes (s : State) (dpa : Nat) (bs : List Byte) (hm : Nat) : State :=
  let o := dpa % 128
  let l := BitVec.ofNat 1024 (leNat bs * 2 ^ (8 * o))
  let m := BitVec.ofNat 128 ((2 ^ bs.length - 1) * 2 ^ o)
  s.writeLine (dpa - o) l m false hm

end Sys2Proof.Machine
end

