-- ==== Sys2Proof/Machine/Translate.lean ====
section
/-! DEFINITION. Spaces, regions and translation: the region range cache, the three-level walk, peer windows and the
translation caches (R31 to R53). -/

namespace Sys2Proof.Machine

/-- Names of TRN-4 status codes. -/
def stOk : Nat := 0x00
def stAdmission : Nat := 0x01
def stEvicted : Nat := 0x02
def stNotCoherent : Nat := 0x03
def stProtocol : Nat := 0x04
def stDenied : Nat := 0x05
def stXlate : Nat := 0x06
def stTimeout : Nat := 0x07
def stGone : Nat := 0x08
def stStagingFull : Nat := 0x09
def stVersionGone : Nat := 0x0A
def stBadAtomic : Nat := 0x0B
def stLinkLost : Nat := 0x0C
def stNoLease : Nat := 0x0D
def stReplayStale : Nat := 0x0E
def stResultLost : Nat := 0x0F
def stBusError : Nat := 0x10

/-- An active region, from the words of its record (Tables ADR-3 and MOD-3). -/
structure Rgn where
  id : Nat
  mode : Nat
  pcode : Nat
  mirror : Bool
  tier : Nat
  tenant : Nat
  space : Nat
  base : Nat
  len : Nat
  version : Nat
  stagings : Nat
  retained : Nat
  alone : Bool
  deriving DecidableEq, Repr

/-- The fields of a region record's words 0 to 4. -/
def rgnOf (id w : Nat) : Rgn where
  id := id
  mode := bits w 2 1
  pcode := bits w 5 3
  mirror := tst w 6
  tier := bits w 8 7
  tenant := bits w 23 16
  space := bits w 33 24
  base := bits w 95 64
  len := bits w 127 96
  version := bits w 191 128
  stagings := bits w 204 192
  retained := bits w 207 205
  alone := tst w 256

/-- The active region with this ID. -/
def State.rgn? (s : State) (id : Nat) : Option Rgn :=
  (s.homes.regions.find? fun e => e.1 == id).map fun e => rgnOf id e.2.toNat

/-- Every active region. -/
def State.rgns (s : State) : List Rgn := s.homes.regions.map fun e => rgnOf e.1 e.2.toNat

/-- Does a region cover an offset of a space (R35)? -/
def Rgn.covers (r : Rgn) (sp o : Nat) : Bool :=
  r.space == sp && decide (r.base * 0x10000 ≤ o) && decide (o < (r.base + r.len) * 0x10000)

/-- The active region that covers an address (R43). -/
def State.rgnAt (s : State) (sp o : Nat) : Option Rgn := s.rgns.find? fun r => r.covers sp o

/-- Does an address lie in a region of a tenant under teardown (R467)? -/
def State.goneAt (s : State) (sp o : Nat) : Bool :=
  s.sec.gone.any fun g => g.space == sp && decide (g.base * 0x10000 ≤ o) && decide (o < (g.base + g.len) * 0x10000)

/-- DPA of a region record.  The spec gives no outcome for an unset RGT: the table then lies at DPA 0 (DESIGN CHOICE, log
entry 8). -/
def State.rgnDpa (s : State) (id : Nat) : Nat := s.rd F.homeXltBaseRgt * 0x10000 + id * 64

/-- Keep a region's words 0 to 4, in the T7 and in its record in DRAM (R105). -/
def State.setRgn (s : State) (id w : Nat) : State :=
  let s := { s with homes := { s.homes with
    regions := SMap.insert (SMap.erase s.homes.regions id) id (BitVec.ofNat 320 w) } }
  s.writeBytes (s.rgnDpa id) (natLe 40 w) 0

/-- Change one field of an active region's words. -/
def State.setRgnBits (s : State) (id hi lo v : Nat) : State :=
  match s.homes.regions.find? fun e => e.1 == id with
  | some e => s.setRgn id (setBits e.2.toNat hi lo v)
  | none => s

/-- A space table entry (Table ADR-2). -/
structure SpaceEnt where
  v : Bool
  tenant : Nat
  root : Nat
  limit : Nat
  deriving DecidableEq, Repr

/-- Read a space table entry: with poison and hold as the line reads (R33, Table INT-2). -/
def State.spaceEnt (s : State) (sp hm : Nat) : SpaceEnt × LineRd × State :=
  if s.rd F.homeXltBaseSpt = 0 then (⟨false, 0, 0, 0⟩, ⟨0#1024, false, 0, none⟩, s)
  else
    let (w, r, s) := s.readBytes (s.rd F.homeXltBaseSpt * 0x10000 + sp * 16) 16 hm
    (⟨tst w 0, bits w 15 8, bits w 47 16, bits w 75 64⟩, r, s)

/-- A peer window record as a walk uses it (Table ADR-8). -/
structure PeerWin where
  peerId : Nat
  pspace : Nat
  presHost : Nat
  lbase : Nat
  len : Nat
  pbase : Nat
  deriving DecidableEq, Repr

/-- How a walk ends (R40). -/
inductive Walk where
  /-- Leaf entry, page size exponent. -/
  | leaf (entry lg : Nat)
  | peer (w : PeerWin) (entry lg : Nat)
  /-- Cause and size of the page fault. -/
  | fault (cause size : Nat)
  | violation
  | error (status : Nat)
  /-- The walk reads a line held for a fenced channel (R149). -/
  | held (k : Nat)
  deriving DecidableEq, Repr

/-- Page size exponent of a leaf at a level (Table ADR-5), and the entry index. -/
def levelBits : Nat → Nat
  | 1 => 37 | 2 => 26 | _ => 16
def levelIndex (level o : Nat) : Nat :=
  match level with
  | 1 => bits o 47 37 | 2 => bits o 36 26 | _ => bits o 25 16

/-- Owner of a page (R152): parity of b[47:20]. -/
def percOf (page : Nat) : Nat := popcount (page / 16) 28 % 2

/-- Drive state (Table FLS-6). -/
def State.drv (s : State) (n : Nat) : Nat := s.rd (F.nvpDrvState n)

/-- Is a flash handle well formed for a page (R167)?  A drive that is absent, in initialisation or retired is not in service; a
FAILED one is read as R170 says (DEDUCED, log entry 26). -/
def State.handleOk (s : State) (h page : Nat) : Bool :=
  let n := h / 2 ^ 28 % 16
  [2, 3, 5].contains (s.drv n) && h % 2 ^ 28 < s.rd (F.nvpDrvExtents n) && h % 2 == percOf page

/-- The leaf rules of R40, R51, R53, R153 and R167.  `peerHost`: the request came from a PEER host. -/
def State.leafCheck (s : State) (sp o e level : Nat) (peerHost : Bool) (hm : Nat) : Walk × State :=
  let lg := levelBits level
  let loc := bits e 4 2
  let fr := bits e 47 16
  let inDram := loc ≠ 2 && loc ≠ 4
  if 4 < loc then (.error stXlate, s)
  else if inDram && fr % 2 ^ (lg - 16) ≠ 0 then (.error stXlate, s)
  else if inDram && s.dramTop ≤ fr * 0x10000 then (.error stXlate, s)
  else
    let page := o / 2 ^ lg * 2 ^ lg
    match s.rgnAt sp o with
    | none => (.error stXlate, s)
    | some r =>
      if !(r.covers sp page && r.covers sp (page + 2 ^ lg - 1)) then (.error stXlate, s)
      else if loc = 2 && (level ≠ 3 || !s.handleOk fr (o / 0x10000)) then (.error stXlate, s)
      else if loc = 2 then (.fault 1 0, s)
      else if loc = 3 then (.fault 2 (3 - level), s)
      else if loc = 4 then
        let n := bits e 23 16
        if s.rd F.homePwtBasePwt = 0 || r.mode ≠ 1 || peerHost then (.error stXlate, s)
        else
          let (w, rd, s) := s.readBytes (s.rd F.homePwtBasePwt * 0x10000 + n * 32) 32 hm
          match rd.held with
          | some k => (.held k, s)
          | none =>
            if rd.poison then (.error stBusError, s.raise (blkHome hm) 6 none)
            else
              let lb := bits w 95 64; let ln := bits w 127 96
              -- a window that would send the access past the peer's 2^48 bytes of a space is malformed (R32; log entry 23)
              if !tst w 0 || page < lb * 0x10000 || (lb + ln) * 0x10000 < page + 2 ^ lg ||
                  2 ^ 48 ≤ bits w 159 128 * 0x10000 + (o - lb * 0x10000) then (.error stXlate, s)
              else (.peer ⟨bits w 27 16, bits w 37 28, bits w 49 38, lb, ln, bits w 159 128⟩ e lg, s)
      else (.leaf e lg, s)

/-- Pointers that the walk cache of a place holds (Table ADR-7). -/
def walkRoom (place : Nat) : Nat := if place < 64 then 512 else 64

/-- Keep a level-1 or level-2 pointer in a place's walk cache; a full cache drops its oldest (DESIGN CHOICE, log entry 10). -/
def State.walkPut (s : State) (p : WPtr) : State :=
  let mine := s.homes.wcache.filter fun e => e.place == p.place
  let l := match mine with
    | old :: _ => if walkRoom p.place ≤ mine.length then s.homes.wcache.erase old else s.homes.wcache
    | [] => s.homes.wcache
  { s with homes := { s.homes with wcache := l ++ [p] } }

/-- The deepest cached pointer for an address at a place: the next level and its table. -/
def State.walkHit (s : State) (place sp o : Nat) : Option (Nat × Nat) :=
  let at_ (level : Nat) : Option (Nat × Nat) :=
    (s.homes.wcache.find? fun e => e.place == place && e.space == sp && e.level == level && e.index == o / 2 ^ levelBits level).map
      fun e => (level + 1, e.table)
  match at_ 2 with
  | some x => some x
  | none => at_ 1

/-- The table levels of R40 from `level` on, `fuel` levels left, for a place whose walk cache keeps the pointers. -/
def State.walkLevels (s : State) (place sp o t level : Nat) (peerHost : Bool) (hm : Nat) : Nat → Walk × State
  | 0 => (.error stXlate, s)
  | fuel + 1 =>
    let a := t * 0x10000 + levelIndex level o * 16
    if s.dramTop ≤ t * 0x10000 then (.error stXlate, s)
    else
      let (e, rd, s) := s.readBytes a 16 hm
      match rd.held with
      | some k => (.held k, s)
      | none =>
        if rd.poison then (.error stBusError, s.raise (blkHome hm) 6 none)
        else if !tst e 0 then (.fault 0 0, s)
        else if tst e 1 then s.leafCheck sp o e level peerHost hm
        else if level = 3 then (.error stXlate, s)
        else
          let s := s.walkPut ⟨place, sp, level, o / 2 ^ levelBits level, bits e 47 16⟩
          s.walkLevels place sp o (bits e 47 16) (level + 1) peerHost hm fuel

/-- The walk of R40 for a place (as in `Tlb`): `first` is a host request's first walk at its home. -/
def State.walk (s : State) (place sp o : Nat) (first peerHost : Bool) (hm : Nat) : Walk × State :=
  let (e, rd, s) := s.spaceEnt sp hm
  match rd.held with
  | some k => (.held k, s)
  | none =>
    if rd.poison then (.error stBusError, s.raise (blkHome hm) 6 none)
    else if !e.v || e.limit * 2 ^ 37 ≤ o then (if first then .violation else .error stXlate, s)
    else match s.walkHit place sp o with
      | some (level, t) => s.walkLevels place sp o t level peerHost hm (4 - level)
      | none => s.walkLevels place sp o e.root 1 peerHost hm 3

/-- Is a locked entry one of an instance that pins an older version of the page's region (R115)? -/
def State.oldLock (s : State) (t : Tlb) : Bool :=
  match t.lock, s.rgnAt t.space (t.page * 2 ^ t.bits) with
  | some l, some g => s.pub.pins.any fun p => p.region == g.id && p.holder == 0x10000 + l.1 && p.version ≠ g.version
  | _, _ => false

/-- A cached translation of an address at a place (R44). -/
def State.tlbHit (s : State) (place sp o : Nat) : Option Tlb :=
  s.homes.tlb.find? fun t => t.place == place && t.space == sp && t.page == o / 2 ^ t.bits && !s.oldLock t

/-- Sets of the 8-way translation cache of a place (Table ADR-7): 4,096 entries at a home, 512 at a tile. -/
def tlbSets (place : Nat) : Nat := if place < 64 then 512 else 64

/-- Keep a translation, and lock it when a stream needs it (R47), in its own way where it is kept already.  Its set is its page number modulo the sets; it takes the place
of the set's oldest unlocked entry, and is not kept where all eight ways are locked (DESIGN CHOICE, log entry 10). -/
def State.tlbPut (s : State) (place sp o e lg : Nat) (lock : Option (Nat × Nat)) : State :=
  let t : Tlb := ⟨place, sp, o / 2 ^ lg, lg, e, lock⟩
  if s.homes.tlb.contains t then s
  else
    let old := s.homes.tlb.erase { t with lock := none }
    let set := old.filter fun u => u.place == place && u.page % tlbSets place == t.page % tlbSets place
    let put (l : List Tlb) : State := { s with homes := { s.homes with tlb := l ++ [t] } }
    if set.length < 8 then put old
    else match set.find? fun u => u.lock.isNone with
      | some u => put (old.erase u)
      | none => s

/-- Translate at a place: its cache first, then a walk whose leaf it keeps.  A walk error is an event of class 9 (R40). -/
def State.translate (s : State) (place sp o : Nat) (first peerHost : Bool) (hm : Nat) : Walk × State :=
  match s.tlbHit place sp o with
  | some t => (.leaf t.entry t.bits, s)
  | none =>
    let (w, s) := s.walk place sp o first peerHost hm
    match w with
    | .leaf e lg => (.leaf e lg, s.tlbPut place sp o e lg none)
    | .error c => (.error c, if c = stXlate then s.raise (blkHome hm) 9 none else s)
    | w => (w, s)

/-- DPA of an offset under a leaf. -/
def leafDpa (e lg o : Nat) : Nat := bits e 47 16 * 0x10000 + o % 2 ^ lg

/-- Rights of a leaf (Table ADR-6): RD, WR, OP. -/
def leafRd (e : Nat) : Bool := tst e 64
def leafWr (e : Nat) : Bool := tst e 65
def leafOp (e : Nat) : Bool := tst e 66

/-- Does a page of 2^lg bytes meet a range of 64 KiB units? -/
def pageMeets (page lg base count : Nat) : Bool :=
  decide (page * 2 ^ (lg - 16) < base + count) && decide (base < (page + 1) * 2 ^ (lg - 16))

/-- Drop every cached translation and walk pointer of a space in a range of 64 KiB units, or of the whole space (R45, R46). -/
def State.tlbDrop (s : State) (sp : Nat) (all : Bool) (base count : Nat) : State :=
  { s with homes := { s.homes with
    tlb := s.homes.tlb.filter (fun t => !(t.space == sp && (all || pageMeets t.page t.bits base count))),
    wcache := s.homes.wcache.filter fun p => !(p.space == sp && (all || pageMeets p.index (levelBits p.level) base count)) } }

/-- DPA of the leaf's table entry at level 3 for a page, when the tables reach it: where the T7 itself rewrites a leaf. -/
def State.entryDpa (s : State) (sp o : Nat) : Option (Nat × Nat) :=
  let (e, _, _) := s.spaceEnt sp 0
  if !e.v then none
  else
    let go (t level : Nat) : Nat := t * 0x10000 + levelIndex level o * 16
    let a1 := go e.root 1
    let e1 := (s.readBytes a1 16 0).1
    if !tst e1 0 then none else if tst e1 1 then some (a1, 37)
    else
      let a2 := go (bits e1 47 16) 2
      let e2 := (s.readBytes a2 16 0).1
      if !tst e2 0 then none else if tst e2 1 then some (a2, 26)
      else some (go (bits e2 47 16) 3, 16)

/-- Rewrite fields of a leaf in DRAM: LOC and FRAME (R113, R156, R157), and drop its cached copies. -/
def State.setLeaf (s : State) (sp o loc frame : Nat) : State :=
  match s.entryDpa sp o with
  | some (a, lg) =>
    let e := (s.readBytes a 16 0).1
    let s := s.writeBytes a (natLe 16 (setBits (setBits e 4 2 loc) 47 16 frame)) 0
    s.tlbDrop sp false (o / 2 ^ lg * 2 ^ (lg - 16)) (2 ^ (lg - 16))
  | none => s

/-- Make a leaf not present, and drop its cached copies. -/
def State.clearLeaf (s : State) (sp o : Nat) : State :=
  match s.entryDpa sp o with
  | some (a, lg) =>
    let s := s.writeBytes a (natLe 16 0) 0
    s.tlbDrop sp false (o / 2 ^ lg * 2 ^ (lg - 16)) (2 ^ (lg - 16))
  | none => s

/-- Does a table entry on the way to a page's leaf lie in a line that a fence holds (R149)? -/
def State.leafHeld (s : State) (sp o : Nat) : Bool :=
  s.bytesHeld (s.rd F.homeXltBaseSpt * 0x10000 + sp * 16) ||
  (let (e, _, _) := s.spaceEnt sp 0
   e.v &&
   (let a1 := e.root * 0x10000 + levelIndex 1 o * 16
    let e1 := (s.readBytes a1 16 0).1
    s.bytesHeld a1 || (tst e1 0 && !tst e1 1 &&
      (let a2 := bits e1 47 16 * 0x10000 + levelIndex 2 o * 16
       let e2 := (s.readBytes a2 16 0).1
       s.bytesHeld a2 || (tst e2 0 && !tst e2 1 && s.bytesHeld (bits e2 47 16 * 0x10000 + levelIndex 3 o * 16))))))

/-- DPA of the page record of a 64 KiB unit of a tiered region (R154, Table FLS-2). -/
def State.pageRecDpa (s : State) (g : Rgn) (page : Nat) : Nat :=
  s.rd F.percAreaRecBase * 0x10000 + 8 * ((s.readBytes (s.rgnDpa g.id + 40) 4 0).1 + (page - g.base))

/-- The page record of a page, and a change of it. -/
def State.pageRec (s : State) (g : Rgn) (page : Nat) : Nat := (s.readBytes (s.pageRecDpa g page) 8 0).1
def State.setPageRec (s : State) (g : Rgn) (page v : Nat) : State := s.writeBytes (s.pageRecDpa g page) (natLe 8 v) 0

/-- The channel for which an access to a page record waits (R149): that of the region record, or its own. -/
def State.recHeld (s : State) (g : Rgn) (page : Nat) : Option Nat :=
  match s.lineHeld (s.rgnDpa g.id) with
  | some k => some k
  | none => s.lineHeld (s.pageRecDpa g page / 128 * 128)

/-! ## Room in the home line caches -/

/-- Tenant of the region that a pointer lies in; none where no region covers it any more. -/
def State.ptrTenant (s : State) (ptr : Nat) : Option Nat := (s.rgnAt (ptrSpace ptr) (ptrOff ptr)).map (·.tenant)

/-- Partition whose share of a home slice a cached line takes (R475). -/
def State.lineShare (s : State) (ptr : Nat) : Option Nat := (s.ptrTenant ptr).bind s.strictOf

/-- Lines of a share that a home slice may cache: 2,048 sets of 8 ways, less the ways of the SRAM tier and, while a channel of its die
is fenced, of the reconstruction buffer (R3, R163, R220, R471); under strict partition the share's part of the ways (R475). -/
def State.lcRoom (s : State) (hm ptr : Nat) : Nat :=
  let buffer := if (List.range 16).any fun c => s.rd (F.dchFenceState (hm / 32 * 16 + c)) ≠ 0 then 1 else 0
  let ways := 8 - ceilDiv (s.rd F.percSramCtlFrames * 8) 2048 - buffer
  let np := if s.on F.secPartCtlEn then s.rd F.secPartCtlNp else 0
  2048 * (match s.lineShare ptr with
    | some _ => ways / (np + 1)
    | none => ways - np * (ways / (np + 1)))

/-- Drop the lowest lines of a full home line cache, dirty ones written back, until the share of the line at `keep` holds no more
than its room; that line stays.  The spec gives neither the set index nor the victim (DESIGN CHOICE, log entry 7). -/
def State.lcTrim (s : State) (hm keep ptr : Nat) : Nat → State
  | 0 => s
  | n + 1 =>
    let mine := s.homes.lc.filter fun e => homeOfPtr e.2.ptr == hm && s.lineShare e.2.ptr == s.lineShare ptr
    if mine.length ≤ s.lcRoom hm ptr then s
    else match mine.find? fun e => e.1 ≠ keep / 128 && !(e.2.dirty && (s.partFull (e.1 * 128)).isSome) with
      | some e => ((s.lcClean (e.1 * 128) hm).lcDrop (e.1 * 128)).lcTrim hm keep ptr n
      | none => s

/-- Put dirty data into the line cache (R77); a line of the SRAM window is written through (R163). -/
def State.sinkDirty (s : State) (dpa ptr : Nat) (l : Line) (poison : Bool) : State :=
  if s.inSram (dpa / 0x10000) then s.writeLine dpa l (BitVec.allOnes 128) poison (homeOfPtr ptr)
  else
  let s := s.lcPut dpa ⟨ptr, l, true, poison⟩
  s.lcTrim (homeOfPtr ptr) dpa ptr s.homes.lc.length

end Sys2Proof.Machine
end

