-- ==== Sys2Proof/Machine/Tier.lean ====
section
/-! DEFINITION. Tiered regions as their homes and owners keep them: page states, page records, extents, the counts of resident and
cold pages, touches, and the SRAM tier's loading (R153 to R168). -/

namespace Sys2Proof.Machine

/-- Change what the flash tier holds. -/
def State.setFlash (s : State) (f : Flash → Flash) : State := { s with flash := f s.flash }

/-- The blank slot of a deallocated extent. -/
def slot0 : FSlot := ⟨0, 0, 0, 0#64, 0#512, []⟩

/-- Key of the slot of a page under a handle (R167). -/
def slotKey (drive handle page : Nat) : Nat := (drive * 2 ^ 28 + handle % 2 ^ 28) * 16 + page % 16

/-- Can a drive be read? -/
def State.drvReads (s : State) (n : Nat) : Bool := s.drv n == 2 || s.drv n == 3

/-- The duplex drive (R168). -/
def duplex (n : Nat) : Nat := n ^^^ 8

/-- The move of a page. -/
def State.moveOf (s : State) (sp page : Nat) : Option FMove := s.flash.moves.find? fun m => m.space == sp && m.page == page

/-- The leaf entry of a page. -/
def State.leafOf (s : State) (sp page : Nat) : Nat :=
  match s.entryDpa sp (page * 0x10000) with
  | some (a, _) => (s.readBytes a 16 0).1
  | none => 0

/-- LOC and FRAME of a leaf. -/
def leafLoc (e : Nat) : Nat := bits e 4 2
def leafFrame (e : Nat) : Nat := bits e 47 16

/-- Is a page of a region in a state that this leaf location says (Table FLS-3)? -/
def State.pageIs (s : State) (g : Rgn) (page loc : Nat) : Bool :=
  let e := s.leafOf g.space page
  tst e 0 && tst e 1 && leafLoc e == loc

/-- Pages of a region. -/
def Rgn.pages (g : Rgn) : List Nat := (List.range g.len).map (g.base + ·)

/-- Count the pages of a tiered region that are resident and those that are cold, into its record (Table FLS-1), and its leaves above
64 KiB, which stay resident (R153, R154). -/
def State.recount (s : State) (g : Rgn) : State :=
  if g.tier ≠ 2 then s
  else
    let hot := (g.pages.filter fun p => s.pageIs g p 0 || s.pageIs g p 1).length
    let cold := (g.pages.filter fun p => s.pageIs g p 2).length
    let big := (dedup (g.pages.filterMap fun p => match s.entryDpa g.space (p * 0x10000) with
      | some (a, lg) => if lg ≠ 16 && tst (s.leafOf g.space p) 0 && tst (s.leafOf g.space p) 1 then some a else none
      | none => none)).length
    let s := s.setFlash fun x => { x with large := SMap.set 0 x.large g.id big }
    s.writeBytes (s.rgnDpa g.id + 48) (natLe 8 (min hot (2 ^ 32 - 1) + 2 ^ 32 * min cold (2 ^ 32 - 1))) 0

/-- Cold pages of a region that a percolator owns. -/
def State.coldOf (s : State) (g : Rgn) (d : Nat) : Nat := (g.pages.filter fun p => percOf p == d && s.pageIs g p 2).length

/-- STAT.COLD of both percolators with a tiered region's cold pages taken in, or out (R175). -/
def State.coldSync (s : State) (g : Rgn) (add : Bool) : State :=
  if g.tier ≠ 2 then s
  else each (List.range 2) (fun d s =>
    let c := s.rd (F.percStatCold d)
    s.wr (F.percStatCold d) (if add then min (c + s.coldOf g d) (2 ^ 32 - 1) else c - s.coldOf g d)) s

/-! ## Extents (R168) -/

/-- Set or clear an extent's bit in its drive's map after the record area. -/
def State.markExtent (s : State) (drive e : Nat) (on : Bool) : State :=
  let a := (s.rd F.percAreaRecBase + s.rd F.percAreaRecLen) * 0x10000 + drive * 2 ^ 25 + e / 8
  let b := (s.readBytes a 1 0).1
  let s := s.writeBytes a [BitVec.ofNat 8 (setBits b (e % 8) (e % 8) (if on then 1 else 0))] 0
  s.setFlash fun x => { x with used := if on then x.used ++ [(drive, e)] else x.used.filter (· ≠ (drive, e)) }

/-- The command that deallocates an extent: Dataset Management, or Write Zeroes where the drive lacks it (R168). -/
def State.trim (s : State) (n : Nat) : State :=
  let dsm := match s.flash.info.find? fun e => e.1 == n with
    | some e => e.2.2.dsm
    | none => true
  s.tel (blkNvp n) 1 (if dsm then 9 else 8) 1

/-- The 16 pages of the 1 MiB that holds a page, as far as the region reaches. -/
def Rgn.mib (g : Rgn) (page : Nat) : List Nat :=
  ((List.range 16).map (page / 16 * 16 + ·)).filter fun p => g.base ≤ p && p < g.base + g.len

/-- Give back the extent of a 1 MiB, on both drives of a duplex (R168). -/
def State.freeExtent (s : State) (g : Rgn) (page : Nat) : State :=
  let r := s.pageRec g page
  let h := bits r 31 0
  let n := h / 2 ^ 28
  let e := h % 2 ^ 28
  let two := 1 ≤ g.pcode && s.flash.used.contains (duplex n, e)
  let s := (s.markExtent n e false).trim n
  let s := if two then (s.markExtent (duplex n) e false).trim (duplex n) else s
  let s := s.setFlash fun x => { x with slots := x.slots.filter fun y => y.1 / 16 ≠ n * 2 ^ 28 + e && (!two || y.1 / 16 ≠ duplex n * 2 ^ 28 + e) }
  each (g.mib page) (fun p s => s.setPageRec g p (setBits (setBits (s.pageRec g p) 40 40 0) 31 0 0)) s

/-- Release an extent that no page of the 1 MiB needs: none COLD and none with FCOPY (R168). -/
def State.releaseExtent (s : State) (g : Rgn) (page : Nat) : State :=
  let r := s.pageRec g page
  let busy := (g.mib page).any fun p => tst (s.pageRec g p) 41 || leafLoc (s.leafOf g.space p) = 2 ||
    (match s.moveOf g.space p with | some m => !m.demote || m.stage = 1 | none => false)
  if !tst r 40 || busy then s
  else s.freeExtent g page

/-! ## Writes and touches (R157, R160) -/

/-- A host or operator writes a line of the pool: a tiered page's flash slot no longer holds its content (R157). -/
def State.noteWrite (s : State) (ptr : Nat) : State :=
  match s.rgnAt (ptrSpace ptr) (ptrOff ptr) with
  | some g =>
    if g.tier = 2 && 0 < s.rd F.percAreaRecLen then
      match s.recHeld g (ptrOff ptr / 0x10000) with
      | some k => s.memWait k (.note ptr)
      | none =>
        let r := s.pageRec g (ptrOff ptr / 0x10000)
        if tst r 41 then (s.setPageRec g (ptrOff ptr / 0x10000) (r - 2 ^ 41)).releaseExtent g (ptrOff ptr / 0x10000) else s
    else s
  | none => s

/-- The pointer under which an operator's locked translations map a DPA. -/
def State.ptrOfDpa (s : State) (dpa : Nat) : Option Nat :=
  (s.homes.tlb.find? fun t => t.lock.isSome && bits t.entry 47 16 * 0x10000 ≤ dpa && dpa < bits t.entry 47 16 * 0x10000 + 2 ^ t.bits).map
    fun t => ptrOf t.space (t.page * 2 ^ t.bits + (dpa - bits t.entry 47 16 * 0x10000))

/-- A home has accessed a page of a tiered region: it sends the owner one touch for the page in an epoch, as far as its filter of
4,096 entries can tell (R160). -/
def State.touchSend (s : State) (hm : Nat) (g : Rgn) (o : Nat) : State :=
  let t := (hm, g.space, o / 0x10000)
  if g.tier ≠ 2 || s.flash.touched.contains t || 4096 ≤ (s.flash.touched.filter fun x => x.1 == hm).length then s
  else s.setFlash fun x => { x with touched := x.touched ++ [t], touches := x.touches ++ [t] }

/-! ## The SRAM tier (R163, R164) -/

/-- At the activation of an SRAM-pinned region the SRAM tier loads its frames from their DRAM copies; a line that a fence holds is
served from DRAM until a write brings it. -/
def State.sramLoad (s : State) (g : Rgn) : State :=
  if g.tier ≠ 0 then s
  else each (g.pages.filter fun p => s.pageIs g p 1 && s.inSram (leafFrame (s.leafOf g.space p))) (fun p s =>
    let f := leafFrame (s.leafOf g.space p)
    each (List.range 512) (fun i s =>
      let (rd, s) := s.readDram (f * 0x10000 + 128 * i) 0 0
      if rd.held.isSome then s else s.sramPut (f * 0x10000 + 128 * i) rd.data rd.poison) s) s

end Sys2Proof.Machine
end

