-- ==== Sys2Proof/Machine/Send.lean ====
section
/-! DEFINITION. Sending to hosts and tiles: response ports, load feedback, tag records and the final responses of
requests (R346 to R361, R203). -/

namespace Sys2Proof.Machine

/-- A packet with every field zero. -/
def pkt0 : Pkt where
  port := 0
  opc := 0
  len := 2
  host := 0
  tag := 0
  ccx := 0
  lf := 0
  poison := false
  status := 0
  seq := 0
  addr := 0
  snpid := 0
  way := 0
  binv := false
  data := false
  loc := false
  vsel := false
  aop := 0
  size := 0
  fwdhost := 0
  fwdtag := 0
  set := 0
  body := 0

/-- Lease of a host. -/
def State.leaseOf (s : State) (h : Nat) : Lease := SMap.get ⟨0, 0, 0, none⟩ s.hosts.lease h

/-- Change a host's lease. -/
def State.setLease (s : State) (h : Nat) (l : Lease) : State :=
  { s with hosts := { s.hosts with lease := SMap.set ⟨0, 0, 0, none⟩ s.hosts.lease h l } }

/-- Does the host hold a live lease? -/
def State.leased (s : State) (h : Nat) : Bool := (s.leaseOf h).state == 1

/-- Response port of a host (R360). -/
def State.rport (s : State) (h : Nat) : Nat := SMap.get 0 s.hosts.rport h % 64

/-- Is the response port pinned? -/
def State.pinned (s : State) (h : Nat) : Bool := 64 ≤ SMap.get 0 s.hosts.rport h

/-- Set a host's response port, kept where it is pinned. -/
def State.moveRport (s : State) (h p : Nat) : State :=
  if s.pinned h then s else { s with hosts := { s.hosts with rport := SMap.set 0 s.hosts.rport h (p % 64) } }

/-- Queue a packet at a port. -/
def State.sendPort (s : State) (p : Nat) (k : Pkt) : State :=
  { s with out := s.out ++ [{ k with port := Fin.ofNat 64 p }] }

/-- Queue a packet for a host at its response port. -/
def State.sendHost (s : State) (h : Nat) (k : Pkt) : State :=
  s.sendPort (s.rport h) { k with host := BitVec.ofNat 12 h }

/-! ## Carillon (R365, R366) -/

/-- A carillon slot of the source's die takes the packet; the source waits while all 64 are in use (R365). -/
def State.carFill (s : State) (c : Carillon) : State :=
  if c.mask = 0 then s
  else if (s.hosts.carillon.filter fun x => x.die == c.die).length < 64 then
    { s with hosts := { s.hosts with carillon := s.hosts.carillon ++ [c] } }
  else { s with hosts := { s.hosts with carWait := s.hosts.carWait ++ [c] } }

/-- The first waiting source of a die fills a slot that has come free. -/
def State.carNext (s : State) (die : Nat) : State :=
  match s.hosts.carWait.find? fun c => c.die == die with
  | none => s
  | some c => ({ s with hosts := { s.hosts with carWait := s.hosts.carWait.erase c } }).carFill c

/-- A port is done with every slot that names it; slots whose ports have all delivered are freed (R366). -/
def State.carDone (s : State) (p : Nat) : State :=
  let cs := s.hosts.carillon.map fun (c : Carillon) => { c with mask := setBits c.mask p p 0 }
  let freed := (cs.filter fun c => c.mask == 0).map (·.die)
  each freed (fun d s => s.carNext d) { s with hosts := { s.hosts with carillon := cs.filter fun c => c.mask ≠ 0 } }

/-- A port delivers: one copy to each host of a delivery set whose response port it is now, or one Knell (R366). -/
def State.carDeliver (s : State) (p : Nat) : State :=
  let mine := s.hosts.carillon.filter fun c => tst c.mask p
  let s := each mine (fun c s =>
    let copies := if c.hosts.isEmpty then [c.pkt]
      else (c.hosts.filter fun h => s.rport h == p).map fun h => { c.pkt with host := BitVec.ofNat 12 h }
    each copies (fun k s => (s.sendPort p k).tel (blkXbar (p / 32)) 0x06 0 1) s) s
  if mine.isEmpty then s else s.carDone p

/-- Pending-queue entries of a home slice in use (R80): waiting requests, and faults that wait for a record (R64).  The T7's own
back-invalidations wait outside the 2,048 entries (DESIGN CHOICE, log entry 11). -/
def State.pendUsed (s : State) (hm : Nat) : Nat :=
  (s.homes.pendq.filter fun e => e.1 == hm && e.2.op < 0x200).length + (s.homes.faultWait.filter fun f => f.src == hm).length

/-- Pending-queue entries in use by the share of a tenant (R475). -/
def State.pendOf (s : State) (hm t : Nat) : Nat :=
  (s.homes.pendq.filter fun e => e.1 == hm && e.2.op < 0x200 && s.strictOf e.2.tenant == s.strictOf t).length +
  (s.homes.faultWait.filter fun f => f.src == hm && match f.waiter with
    | .req r => s.strictOf r.tenant == s.strictOf t
    | _ => (s.strictOf t).isNone).length

/-- Load of a home slice in 1/4,096 as a tenant sees it: the larger of open / 1,024 and pending / 2,048 (R361), under strict
partition over its partition's share (Table SEC-2). -/
def State.homeLoad (s : State) (hm t : Nat) : Nat :=
  let o := (s.homes.txns.filter fun x => x.home == hm && s.strictOf x.req.tenant == s.strictOf t).length
  max (o * 4096 / s.shareOf 1024 t) (s.pendOf hm t * 4096 / s.shareOf 2048 t)

/-- LF[3:2] for a load in 1/4,096 (Table TRN-10). -/
def loadCode (l : Nat) : Nat :=
  if l < 2048 then 0 else if l ≤ 3072 then 1 else if l ≤ 3686 then 2 else 3

/-- May the tenant see device load (R361)? -/
def State.lfPerm (s : State) (t : Nat) : Bool := tst (s.rd (F.xbarLfPermTen (t / 64))) (t % 64)

/-- LF of a home's response (R361): the host's policer and, where permitted, the home's load. -/
def State.lfHome (s : State) (hm lf tenant : Nat) : Nat :=
  let hi := if s.homes.starve.any fun e => e.1 == hm then 3 else loadCode (s.homeLoad hm tenant)
  lf + (if s.lfPerm tenant then hi * 4 else 0)

/-- Add to a tenant counter (Table TEL-4). -/
def State.ten (s : State) (t i n : Nat) : State :=
  { s with tenCnt := SMap.set 0 s.tenCnt (t * 16 + i) ((SMap.get 0 s.tenCnt (t * 16 + i) + n) % 2 ^ 48) }

/-- A request that waits for no one: the zero request. -/
def req0 : HomeReq where
  op := 0
  host := 0
  tag := 0
  seq := 0
  ccx := 0
  epoch := 0
  addr := 0
  way := 0
  aop := 0
  size := 0
  vsel := false
  version := 0
  mask := 0
  data := 0
  poison := false
  operands := 0
  atts := []
  arrive := 0
  port := 0
  lf := 0
  rewalk := false
  prio := false
  tile := none
  tenant := 0
  drop := false
  peerOk := true
  job := 0
  marked := false

/-- The dynamic response to a tile's request (R198, R203): source and destination exchanged, CLS 1, CE echoed as CEE. -/
def meshReply (m : MPkt) (status : Nat) (inl : BitVec 256) (po : Bool) (flits : List (Flit × BitVec 2)) : MPkt :=
  { m with dx := m.sx, dy := m.sy, sx := m.dx, sy := m.dy, cls := true, ce := false, cee := m.ce,
           status := BitVec.ofNat 8 status, inl := inl, inlPoison := po, flits := flits,
           len := BitVec.ofNat 5 flits.length }

/-- Completion status (Table OPS-9) of an access of an operator that ends with a status of Table TRN-4. -/
def opStatus : Nat → Nat
  | 0x05 => 0x0F | 0x06 => 0x10 | 0x07 => 0x0D | 0x08 => 0x0E | 0x09 => 0x11 | 0x0C => 0x12 | _ => 0x13

/-- Change an instance. -/
def State.setInst (s : State) (i : Nat) (f : Inst → Inst) : State :=
  { s with disp := { s.disp with insts := s.disp.insts.map fun x => if x.idx = i then f x else x } }

/-- The instance with this entry. -/
def State.inst? (s : State) (i : Nat) : Option Inst := s.disp.insts.find? fun x => x.idx == i

/-- An event ends an instance early (R284 to R287): a WAITING one at once, a RUNNING one at the next mesh-bar boundary;
the first such event fixes the status. -/
def State.stopInst (s : State) (i status : Nat) : State :=
  s.setInst i fun x =>
    if x.state = 0 then { x with state := 2, status := status, endBeat := s.beat }
    else if x.state = 1 && x.stopping.isNone then { x with stopping := some status } else x

/-- The OP value, reserved on the mesh, that marks an access which DISP makes itself, from the west edge; its JOB field is the instance
entry, or 0x1000 + the descriptor read it is for. -/
def opDisp : BitVec 8 := 0xFE

/-- Put a dynamic response on its way.  The answer to an access of DISP stays there: data are kept for the instance, an
error ends it. -/
def State.sendMesh (s : State) (m : MPkt) : State :=
  if m.op = opDisp && m.dx = 62 then
    let s := if m.status = 0 then s else s.stopInst m.job.toNat (opStatus m.status.toNat)
    match m.flits, m.job.toNat < 0x1000 && m.status ≠ 0 with
    | [], false => if m.job.toNat < 0x1000 then s
      else { s with disp := { s.disp with reads := s.disp.reads ++ [(m.job.toNat, m.addr.toNat, 0, true)] } }
    | fs, _ =>
      let a := fs.getD 0 (0, 0)
      let b := fs.getD 1 (0, 0)
      if fs.length < 2 then s
      else { s with disp := { s.disp with
        reads := s.disp.reads ++ [(m.job.toNat, m.addr.toNat, b.1 ++ a.1, a.2 ≠ 0 || b.2 ≠ 0)] } }
  else ({ s with meshResp := s.meshResp ++ [m] } : State).netQueue (s.outgoing m)

/-- Has the requesting host's lease ended since the request passed ingress?  Its response is then not sent (R95). -/
def State.silent (s : State) (r : HomeReq) : Bool :=
  !(s.leased r.host) || (s.leaseOf r.host).epoch ≠ r.epoch

/-- Header of a response from a home to a request's host; ADDR is the line in every coherence message but RspAtomic (R73). -/
def State.replyPkt (s : State) (hm : Nat) (r : HomeReq) (opc len : Nat) : Pkt :=
  { pkt0 with opc := BitVec.ofNat 6 opc, len := BitVec.ofNat 5 len, host := BitVec.ofNat 12 r.host,
              tag := BitVec.ofNat 15 r.tag, ccx := BitVec.ofNat 4 r.ccx, seq := BitVec.ofNat 32 r.seq,
              addr := BitVec.ofNat 64 (if opc = 0x25 || 9 < r.op then r.addr else r.addr / 128 * 128), lf := BitVec.ofNat 4 (s.lfHome hm r.lf r.tenant) }

/-- Send a response to a host, with which the data of a tagged request are present (R495), unless its lease has ended; a tile gets its status as a dynamic response. -/
def State.reply (s : State) (r : HomeReq) (k : Pkt) : State :=
  match r.tile with
  | some m => s.sendMesh (meshReply m k.status.toNat 0 false [])
  | none =>
    let s := s.track r.host r.tag fun x => { x with
      status := k.status.toNat, flags := if k.poison then setBits x.flags 3 3 1 else x.flags }
    let s := (s.stage r.host r.tag 6).stage r.host r.tag 7
    if s.silent r then s else s.sendHost r.host k

/-- A Cmp with a status; one that admission refused carries no load (R361). -/
def State.replyCmpPkt (s : State) (hm : Nat) (r : HomeReq) (st : Nat) : Pkt :=
  let k := s.replyPkt hm r 0x26 2
  { k with status := BitVec.ofNat 8 st, lf := if st = 1 then BitVec.ofNat 4 r.lf else k.lf }

/-- Cmp with a status, or the tile's error response. -/
def State.replyCmp (s : State) (hm : Nat) (r : HomeReq) (st : Nat) : State :=
  match r.tile with
  | some m => s.sendMesh (meshReply m st 0 false [])
  | none => s.reply r (s.replyCmpPkt hm r st)

/-- Data for a host or a tile. -/
def State.replyData (s : State) (hm : Nat) (r : HomeReq) (d : Line) (po : Bool) : State :=
  let s := if po && r.tile.isNone then s.ten r.tenant 13 1 else s
  match r.tile with
  | some m =>
    if r.op = 0x121 then
      let sub := r.addr % 128 / 32
      s.sendMesh (meshReply m 0 (d.extractLsb' (256 * sub) 256) po [])
    else
      let q : BitVec 2 := if po then 3#2 else 0#2
      s.sendMesh (meshReply m 0 0 false [(lineFlit d 0, q), (lineFlit d 1, q)])
  | none => s.reply r { s.replyPkt hm r 0x24 10 with poison := po, body := d.zeroExtend 2048 }

/-! ## Tag records (R354 to R357) -/

/-- Are tag records kept? -/
def State.idemOn (s : State) : Bool := s.on F.xbarIdemEn

/-- DPA of the tag record of a host and tag (R354). -/
def State.recDpa (s : State) (h t : Nat) : Nat := s.rd F.xbarIdemBase * 0x10000 + 32 * (32768 * h + t)

/-- Home of a tag record (R354). -/
def recHome (h t : Nat) : Nat := (h + t / 4) % 64

/-- AHASH of an address (Table TRN-6). -/
def ahash (a : Nat) : Nat := (crc64 (natLe 8 a)).toNat % 65536

/-- Write a tag record (Table TRN-6). -/
def State.recPut (s : State) (h t seq opc st status addr epoch result : Nat) : State :=
  if !s.idemOn then s
  else
    let w := seq + opc * 2 ^ 32 + st * 2 ^ 38 + status * 2 ^ 40 + ahash addr * 2 ^ 48 +
      (s.beat / 256 % 2 ^ 32) * 2 ^ 64 + epoch * 2 ^ 96 + result % 2 ^ 128 * 2 ^ 128
    s.writeBytes (s.recDpa h t) (natLe 32 w) (recHome h t)

/-- What a tag record decides for a recorded request (Table TRN-7). -/
inductive RecOut where
  | fresh
  | cmp (st : Nat)
  | drop
  | regrant
  /-- The recorded final response: STATUS and RESULT. -/
  | again (st result : Nat)
  /-- The record lies in a line held for a fenced channel (R149). -/
  | held (k : Nat)
  deriving DecidableEq, Repr

/-- Judge a recorded request against its record (R356, Table TRN-7).  `waitAck`: a grant has been sent for it and its
GrantAck is awaited. -/
def State.recJudge (s : State) (hm h t seq opc addr epoch : Nat) (waitAck : Bool) : RecOut × State :=
  if !s.idemOn then (.fresh, s)
  else
    let (w, rd, s) := s.readBytes (s.recDpa h t) 32 (recHome h t)
    match rd.held with
    | some k => (.held k, s)
    | none =>
    if rd.poison then
      (.cmp stBusError, (s.writeBytes (s.recDpa h t) (natLe 32 0) (recHome h t)).raise (blkHome hm) 6 none)
    else
      let rs := bits w 31 0
      let ro := bits w 37 32
      let st := if bits w 103 96 = epoch then bits w 39 38 else 0
      let behind := (seq + 2 ^ 32 - rs) % 2 ^ 32
      let ahead := (rs + 2 ^ 32 - seq) % 2 ^ 32
      let age := (s.beat + 2 ^ 40 - bits w 95 64 * 256 % 2 ^ 40) % 2 ^ 40
      let granted := (ro = 1 || ro = 2 || ro = 3) && bits w 47 40 = 0 || s.hosts.recGrant.contains (h, t)
      let res := fun (o : RecOut) (row : Nat) => (o, s.tel (blkHome hm) 0x06 row 1)
      if st = 1 && rs ≠ seq then res (.cmp stProtocol) 0
      else if st = 0 || (1 ≤ behind && behind ≤ 2 ^ 31) then res .fresh 1
      else if 1 ≤ ahead && ahead ≤ 2 ^ 31 - 1 then res (.cmp stReplayStale) 2
      else if ro ≠ opc || bits w 63 48 ≠ ahash addr then res (.cmp stProtocol) 3
      else if st = 1 && waitAck then res .regrant 4
      else if st = 1 then res .drop 5
      else if granted then res (.cmp stProtocol) 6
      else if 312756 ≤ age then res (.cmp stReplayStale) 9
      else if st = 2 then res (.again (bits w 47 40) (bits w 255 128)) 7
      else res (.cmp stResultLost) 8

/-- The record of a host's request becomes in progress. -/
def State.recOpen (s : State) (r : HomeReq) : State :=
  if r.tile.isSome || r.op = 4 || 0x40 ≤ r.op then s
  else
    let s := { s with hosts := { s.hosts with recGrant := s.hosts.recGrant.filter fun e => e ≠ (r.host, r.tag) } }
    s.recPut r.host r.tag r.seq r.op 1 0 r.addr r.epoch 0

/-- The record of a host's request becomes complete with a status and result. -/
def State.recDone (s : State) (r : HomeReq) (st status result : Nat) : State :=
  if r.tile.isSome || r.op = 4 || 0x40 ≤ r.op then s
  else s.recPut r.host r.tag r.seq r.op st status r.addr r.epoch result

/-- Complete a request with an error status (R349): Cmp, and the record written with it. -/
def State.failReq (s : State) (hm : Nat) (r : HomeReq) (st : Nat) : State :=
  (s.recDone r 2 st 0).replyCmp hm r st

/-- A recorded final response (Table TRN-7). -/
def State.replyAgainPkt (s : State) (hm : Nat) (r : HomeReq) (st result : Nat) : Pkt :=
  if st ≠ 0 && !(0x30 ≤ r.op && r.op ≤ 0x35) then s.replyCmpPkt hm r st
  else if r.op = 6 then { s.replyPkt hm r 0x25 3 with body := BitVec.ofNat 2048 result }
  else if 0x30 ≤ r.op && r.op ≤ 0x35 then
    { s.replyPkt hm r 0x37 3 with
        status := BitVec.ofNat 8 st, body := BitVec.ofNat 2048 (r.job + result % 2 ^ 64 * 2 ^ 64) }
  else s.replyCmpPkt hm r st

/-- Send a recorded final response again. -/
def State.replyAgain (s : State) (hm : Nat) (r : HomeReq) (st result : Nat) : State := s.reply r (s.replyAgainPkt hm r st result)

/-! ## Responses that may wait for the partner (R120) -/

/-- Is an order stamp of this request sent and not yet acknowledged? -/
def State.stampOut (s : State) (r : HomeReq) : Bool :=
  s.mir.sent.any fun m => m.host == r.host && m.tag == r.tag && m.seq == r.seq

/-- Send a response and update the tag record where it changes, or hold both for the stamp's acknowledgement. -/
def State.holdReply (s : State) (hm : Nat) (r : HomeReq) (done : Option (Nat × Nat × Nat)) (k : Pkt) : State :=
  if s.stampOut r && !s.on F.homeMirCtlAlone then
    { s with mir := { s.mir with waits := s.mir.waits ++ [(⟨hm, r, [k], done⟩ : MirWait)] } }
  else
    match done with
    | some d => (s.recDone r d.1 d.2.1 d.2.2).reply r k
    | none => s.reply r k

/-- Finish a request outside a line transaction: record and response, or hold both for the acknowledgement. -/
def State.finishReq (s : State) (hm : Nat) (r : HomeReq) (k : Pkt) (st status result : Nat) : State :=
  s.holdReply hm r (some (st, status, result)) k

/-- Finish a request with an error status: Cmp for a host, now or once its stamp is acknowledged; a tile's error response. -/
def State.finishCmp (s : State) (hm : Nat) (r : HomeReq) (st : Nat) : State :=
  match r.tile with
  | some _ => s.failReq hm r st
  | none => s.finishReq hm r (s.replyCmpPkt hm r st) 2 st 0

end Sys2Proof.Machine
end

