-- ==== Sys2Proof/Machine/Home.lean ====
section
/-! DEFINITION. The home slice: admission at home, transactions and chains, the snoop filter, grants, writes, atomics
and back-invalidations (R55, R59, R66 to R99, R100 to R102, R537, R538). -/

namespace Sys2Proof.Machine

/-! ## Violations and admission at home -/

/-- Freeze state of a host. -/
def State.frz (s : State) (h : Nat) : Freeze := SMap.get ⟨0, 0, 0⟩ s.hosts.freeze h

/-- Set a host's freeze state. -/
def State.setFrz (s : State) (h : Nat) (f : Freeze) : State :=
  { s with hosts := { s.hosts with freeze := SMap.set ⟨0, 0, 0⟩ s.hosts.freeze h f } }

/-- An admission violation of a host on a port with a cause of Table ADR-10 (R59): the count, the event with what it carries, and
the freeze.  A further violation of a frozen host changes the count alone (R60). -/
def State.violate (s : State) (blk h port tenant cause : Nat) : State :=
  let s := { s with hosts := { s.hosts with viol := SMap.set 0 s.hosts.viol h (SMap.get 0 s.hosts.viol h + 1) } }
  if (s.frz h).state ≠ 0 then s
  else
    let s := { s with hosts := { s.hosts with violEvt := s.hosts.violEvt ++ [(⟨s.beat, blk, h, port, cause⟩ : Viol)] } }
    ((s.raise blk 9 none).setFrz h { s.frz h with state := 1, cause := cause }).ten tenant 14 1

/-- Rights of R55 that an operation needs, as a mask of RD 1, WR 2, AT 4, OP 8, PB 16, TC 32. -/
def rightsOf (op : Nat) : Nat :=
  match op with
  | 1 => 1 | 2 => 3 | 3 => 3 | 4 => 1 | 5 => 2 | 6 => 4 | _ => 0

/-- Is the region named by an enabled tenant counter page (R499)? -/
def State.isTpage (s : State) (g : Nat) : Bool :=
  s.regs.any fun e => 672 * 0x100000 + 0x1000 ≤ e.1 && e.1 < 672 * 0x100000 + 0x1800 &&
    tst e.2.toNat 16 && bits e.2.toNat 15 0 == g

/-- Judge attachments against a region (R55, R59): the cause of the violation, if any. -/
def judgeAtts (atts : List Attach) (g : Rgn) (need : Nat) : Option Nat :=
  let c := atts.filter fun a => a.regLo ≤ g.id && g.id ≤ a.regHi
  if c.isEmpty then some 3
  else
    let t := c.filter fun a => a.tenant == g.tenant
    if t.isEmpty then some 6
    else if t.any fun a => a.rights &&& need == need then none else some 2

/-! ## The snoop filter -/

/-- Index of a filter entry: home, slot, set within the slice, way. -/
def fKey (hm slot set way : Nat) : Nat := ((hm * 256 + slot) * 64 + set) * 8 + way

/-- A filter entry. -/
def State.fGet (s : State) (k : Nat) : FEnt := SMap.get ⟨0, 0, 0, none⟩ s.homes.filter k

/-- Set a filter entry. -/
def State.fSet (s : State) (k : Nat) (e : FEnt) : State :=
  { s with homes := { s.homes with filter := SMap.set ⟨0, 0, 0, none⟩ s.homes.filter k e } }

/-- Clear a filter entry. -/
def State.fClr (s : State) (k : Nat) : State := s.fSet k ⟨0, 0, 0, none⟩

/-- DPA of the line an entry tracks: TAG above, DPA[13:7] from the offset (R81). -/
def FEnt.dpa (e : FEnt) : Nat := e.tag * 2 ^ 14 + bits e.ptr 13 7 * 128

/-- Slot of a filter key. -/
def keySlot (k : Nat) : Nat := k / 512 % 256

/-- Home of a filter key. -/
def keyHome (k : Nat) : Nat := k / 0x20000

/-- The entries that hold a line at its home: key and entry. -/
def State.holders (s : State) (hm ptr : Nat) : List (Nat × FEnt) :=
  s.homes.filter.filter fun e => keyHome e.1 == hm && e.2.st ≠ 0 && e.2.ptr == ptr

/-- Host that holds an adapter slot. -/
def State.slotHost (s : State) (slot : Nat) : Option Nat :=
  (s.hosts.slots.find? fun e => e.1 == slot).map (·.2)

/-! ## The contention predictor (R87 to R89) -/

/-- Predictor index of a line. -/
def predIndex (dpa : Nat) : Nat := bits dpa 18 7 ^^^ bits dpa 30 19 ^^^ bits dpa 42 31 ^^^ bit dpa 43

/-- A line's counter; 0b10 at reset. -/
def State.predGet (s : State) (hm dpa : Nat) : Nat := SMap.get 2 s.homes.pred (hm * 4096 + predIndex dpa)

/-- Move a line's counter up or down, saturating. -/
def State.predMove (s : State) (hm dpa : Nat) (up : Bool) : State :=
  let c := s.predGet hm dpa
  let c' := if up then min 3 (c + 1) else c - 1
  { s with homes := { s.homes with pred := SMap.set 2 s.homes.pred (hm * 4096 + predIndex dpa) c' } }

/-! ## Transactions -/

/-- The pool pointer of a request's line. -/
def HomeReq.line (r : HomeReq) : Nat := r.addr / 128 * 128

/-- Is the line's transaction open? -/
def State.txnOf (s : State) (hm line : Nat) : Option Txn :=
  s.homes.txns.find? fun t => t.home == hm && t.line == line

/-- Keep a transaction as it now stands. -/
def State.putTxn (s : State) (t : Txn) : State :=
  { s with homes := { s.homes with
    txns := (s.homes.txns.filter fun u => !(u.home == t.home && u.idx == t.idx)) ++ [t] } }

/-- Close a transaction. -/
def State.closeTxn (s : State) (t : Txn) : State :=
  { s with homes := { s.homes with txns := s.homes.txns.filter fun u => !(u.home == t.home && u.idx == t.idx) } }

/-- Transaction entries of a home that are free for a tenant, within the share of its partition (R80, R475). -/
def State.entriesFree (s : State) (hm tenant : Nat) : Nat :=
  s.shareOf 1024 tenant - (s.homes.txns.filter fun t => t.home == hm && s.strictOf t.req.tenant == s.strictOf tenant).length

/-- Lowest free transaction entry of a home, within the share of the tenant's partition. -/
def State.freeEntry (s : State) (hm tenant : Nat) : Option Nat :=
  if s.entriesFree hm tenant = 0 then none
  else findLow 1024 fun i => !(s.homes.txns.any fun t => t.home == hm && t.idx == i)

/-- Is the request one whose order the pair fixes (R118, R119)? -/
def mirrored (g : Rgn) (r : HomeReq) : Bool := g.mirror && r.tile.isNone && r.host ≠ 0xFFF && (r.op == 5 || r.op == 6 || r.op == 0x30 || r.op == 0x31)

/-- Does this chip order mirrored requests, and do the responses wait for the partner? -/
def State.orderer (s : State) : Bool := s.on F.homeMirSyncOrderer
def State.alone (s : State) : Bool := s.on F.homeMirCtlAlone

/-- Send a stamp for a request (R119): the next mirror sequence of the home. -/
def State.stampReq (s : State) (hm : Nat) (r : HomeReq) : State :=
  let n := (SMap.get 0 s.mir.mseq hm + 1) % 2 ^ 48
  let s := { s with mir := { s.mir with mseq := SMap.set 0 s.mir.mseq hm n } }
  if s.alone && s.mir.copyTotal = 0 then s
  else
    let p := s.rd F.homeMirCtlPportA
    let q := if s.rd (F.fportLstatState p) = 3 then p else s.rd F.homeMirCtlPportB
    let e := hm + n * 2 ^ 6 + r.host * 2 ^ 54 + r.tag * 2 ^ 66 + r.seq * 2 ^ 81
    let s := { s with mir := { s.mir with sent := s.mir.sent ++ [(⟨hm, n, r.host, r.tag, r.seq, s.beat⟩ : Stamp)] } }
    s.sendPort q { pkt0 with opc := 0x2E, len := 4, host := 0xFFF, body := BitVec.ofNat 2048 (1 + e * 2 ^ 128) }

/-- Stamp a mirrored request at the chip that orders (R119). -/
def State.stampMir (s : State) (g : Rgn) (hm : Nat) (r : HomeReq) : State :=
  if mirrored g r && s.orderer then s.stampReq hm r else s

/-- Partner port in use: A while it is ACTIVE, else B (R121). -/
def State.partnerPort (s : State) : Nat :=
  let p := s.rd F.homeMirCtlPportA
  if s.rd (F.fportLstatState p) = 3 then p else s.rd F.homeMirCtlPportB

/-- Send the copy of a line of a resynchronisation with its stamp (R430). -/
def State.sendCopy (s : State) (hm : Nat) (r : HomeReq) (d : Line) (po : Bool) : State :=
  let n := (s.mir.copySeq + 1) % 2 ^ 32
  let s := s.tel (blkHome hm) 0x0D 0 1
  let s := { s with mir := { s.mir with copySeq := n } }
  let q := { r with host := 0xFFF, tag := n % 0x7FFF, seq := n }
  let s := s.sendPort s.partnerPort { pkt0 with
    opc := 5, len := 11, host := 0xFFF, tag := BitVec.ofNat 15 q.tag, seq := BitVec.ofNat 32 n,
    addr := BitVec.ofNat 64 r.line, poison := po, body := BitVec.ofNat 2048 (2 ^ 128 - 1 + d.toNat * 2 ^ 128) }
  s.stampReq hm q

/-- Finish a request with its final response: at once, or held for the stamp acknowledgement of a mirrored request. -/
def State.complete (s : State) (t : Txn) (k : Pkt) (st status result : Nat) : State :=
  if s.mir.sent.any fun m => m.home == t.home && m.host == t.req.host && m.tag == t.req.tag && m.seq == t.req.seq &&
      t.req.tile.isNone && !s.alone
  then s.putTxn { t with stage := .stamp, reply := [k], done := (st, status, result) }
  else ((s.recDone t.req st status result).reply t.req k).closeTxn t

/-- Hold a transaction for a fenced channel (R149). -/
def State.holdTxn (s : State) (t : Txn) (k : Nat) : State := s.putTxn { t with stage := .chan k }

/-- The filter entry of a transaction's requester becomes a state (R83): S 1, F 2, E or M 3. -/
def State.install (s : State) (t : Txn) (slot st : Nat) : State :=
  let set := setOf (ptrSpace t.line) (ptrOff t.line) % 64
  s.fSet (fKey t.home slot set t.req.way) ⟨st, t.dpa / 2 ^ 14, t.line, if t.inCache then some s.beat else none⟩

/-- The slot into which a transaction's grant goes; none once the host's lease has ended or its slot is gone. -/
def State.grantSlot (s : State) (t : Txn) : Option Nat := if s.silent t.req then none else (s.leaseOf t.req.host).slot

/-- Send a grant (R77): the requester's filter entry, the grant packet, and Data when data follow.  A host whose lease has ended
gets none, and the transaction closes (R95). -/
def State.sendGrant (s : State) (t : Txn) (opc : Nat) (withData : Bool) (d : Line) (po : Bool) : State :=
  match s.grantSlot t with
  | none => (s.recDone t.req 2 0 0).closeTxn t
  | some slot =>
  let s := s.install t slot (if opc = 0x20 then 1 else if opc = 0x21 then 2 else 3)
  let s := s.reply t.req { s.replyPkt t.home t.req opc 2 with data := withData, loc := t.inCache,
                                                                way := BitVec.ofNat 3 t.req.way }
  let s := if withData then
      (s.reply t.req { s.replyPkt t.home t.req 0x24 10 with poison := po, body := d.zeroExtend 2048 }).ten t.req.tenant 13
        (if po then 1 else 0)
    else s
  s.putTxn { t with stage := .ack, grant := some (opc, withData, t.inCache) }

/-- Old value of an atomic's operand in a line. -/
def atomOld (d : Line) (addr size : Nat) : Nat := bits d.toNat (8 * (addr % 128 + 2 ^ size) - 1) (8 * (addr % 128))

/-- Put an operand of 2^size bytes into a line. -/
def atomPut (d : Line) (addr size v : Nat) : Line :=
  BitVec.ofNat 1024 (setBits d.toNat (8 * (addr % 128 + 2 ^ size) - 1) (8 * (addr % 128)) v)

/-- Byte mask of an operand. -/
def atomMask (addr size : Nat) : BitVec 128 := BitVec.ofNat 128 ((2 ^ 2 ^ size - 1) * 2 ^ (addr % 128))

/-- RspAtomic, or the tile's response with the old value at RADDR (Table TIL-13). -/
def State.atomReply (s : State) (hm : Nat) (r : HomeReq) (old : Nat) (po : Bool) : Pkt :=
  { s.replyPkt hm r 0x25 (2 + max 1 (2 ^ r.size / 16)) with
      poison := po, body := BitVec.ofNat 2048 old, size := BitVec.ofNat 3 r.size, aop := BitVec.ofNat 8 r.aop }

/-- Perform an atomic on a line at `dpa` (R304, R305): the response's old value and poison, and the write, which carries
the poison of its operands (DEDUCED, log entry 47). -/
def State.atomAt (s : State) (dpa hm : Nat) (r : HomeReq) (rd : LineRd) : Nat × Bool × State :=
  let old := atomOld rd.data r.addr r.size
  if rd.poison then (old, true, s)
  else
    let d := atomPut rd.data r.addr r.size (atomNew r.aop r.size old r.operands.toNat)
    (old, false, (s.writeLine dpa d (atomMask r.addr r.size) r.poison hm).noteWrite r.addr)

/-- The last stage of a transaction once every answer is in (Table COH-5). -/
def State.finishTxn (s : State) (t : Txn) : State :=
  let r := t.req
  let hm := t.home
  match r.op with
  | 0x01 =>
    if t.fwd then
      match s.grantSlot t with
      | none => (s.recDone r 2 0 0).closeTxn t
      | some slot => (s.install t slot 2).putTxn { t with stage := .ack, grant := some (0x21, true, false) }
    else
      let (rd, s) := s.readLine t.dpa 0 hm
      match rd.held with
      | some k => s.holdTxn t k
      | none => s.sendGrant t t.plan.1 t.plan.2 rd.data rd.poison
  | 0x02 =>
    let (rd, s) := s.readLine t.dpa 0 hm
    match rd.held with
    | some k => s.holdTxn t k
    | none => s.sendGrant t 0x22 true rd.data rd.poison
  | 0x03 =>
    if !t.plan.2 then s.sendGrant t 0x22 false 0 false
    else
      let (rd, s) := s.readLine t.dpa 0 hm
      match rd.held with
      | some k => s.holdTxn t k
      | none => s.sendGrant t 0x22 true rd.data rd.poison
  | 0x04 =>
    let (rd, s) := s.readLine t.dpa 0 hm
    match rd.held with
    | some k => s.holdTxn t k
    | none => (s.replyData hm r rd.data rd.poison).closeTxn t
  | 0x05 =>
    match s.writeHeld t.dpa with
    | some k => s.holdTxn t k
    | none =>
      let s := (s.writeLine t.dpa r.data r.mask r.poison hm).noteWrite t.line
      s.complete t (s.replyPkt hm r 0x26 2) 2 0 0
  | 0x06 =>
    if t.inCache then
      if !t.plan.2 then s.sendGrant t 0x22 false 0 false
      else
        let (rd, s) := s.readLine t.dpa 0 hm
        match rd.held with
        | some k => s.holdTxn t k
        | none => s.sendGrant t 0x22 true rd.data rd.poison
    else
      let (rd, s) := s.readLine t.dpa 0 hm
      match rd.held.or (s.partFull t.dpa) with
      | some k => s.holdTxn t k
      | none =>
        let (old, po, s) := s.atomAt t.dpa hm r rd
        let s := if po then s.ten r.tenant 13 1 else s
        s.complete t (s.atomReply hm r old po) (if 4 < r.size then 3 else 2) 0 old
  | 0x122 =>
    match s.writeHeld t.dpa with
    | some k => s.holdTxn t k
    | none => (((s.writeLine t.dpa r.data r.mask r.poison hm).noteWrite t.line).replyCmp hm r 0).closeTxn t
  | 0x200 =>
    let s := if r.drop then s.lcDrop t.dpa
      else if 0x10000 ≤ r.job && r.job < 0x20000 then s.lcClean t.dpa hm else s
    s.closeTxn t
  | 0x201 => s.closeTxn t
  | 0x300 =>
    let (rd, s) := s.readLine t.dpa 0 hm
    match rd.held with
    | some k => s.holdTxn t k
    | none => (s.sendCopy hm r rd.data rd.poison).closeTxn t
  | 0x301 =>
    match s.writeHeld t.dpa with
    | some k => s.holdTxn t k
    | none =>
      let s := ((s.writeLine t.dpa r.data (BitVec.allOnes 128) r.poison hm).noteWrite t.line).closeTxn t
      { s with mir := { s.mir with gotLines := if s.mir.gotLines.contains t.line then s.mir.gotLines
                                               else s.mir.gotLines ++ [t.line] } }
  | op =>
    let (rd, s) := s.readLine t.dpa 0 hm
    match rd.held with
    | some k => s.holdTxn t k
    | none =>
      if op = 0x120 || op = 0x121 then (s.replyData hm r rd.data rd.poison).closeTxn t
      else match s.partFull t.dpa with
      | some k => s.holdTxn t k
      | none =>
        let (old, po, s) := s.atomAt t.dpa hm r rd
        let q : BitVec 2 := if po then 3#2 else 0#2
        match r.tile with
        | some m => (s.sendMesh (meshReply m 0 0 false [(BitVec.ofNat 512 old, q)])).closeTxn t
        | none => s.closeTxn t

/-- Does the way a grant will fill still hold another line whose eviction has not arrived (R77)? -/
def State.wayBusy (s : State) (t : Txn) : Bool :=
  if t.plan.1 = 0 then false
  else match s.grantSlot t with
    | none => false
    | some slot =>
      let set := setOf (ptrSpace t.line) (ptrOff t.line) % 64
      let e := s.fGet (fKey t.home slot set t.req.way)
      e.st ≠ 0 && e.ptr ≠ t.line

/-- Go on with a transaction when nothing it waits for is missing. -/
def State.advance (s : State) (t : Txn) : State :=
  if t.snoops.isEmpty && t.absent.isEmpty && !s.wayBusy t then s.finishTxn t else s.putTxn t

/-- Send a snoop (R73, R77) and note it as outstanding. -/
def State.sendSnoop (s : State) (t : Txn) (slot opc : Nat) (binv : Bool) : Txn × State :=
  match s.slotHost slot with
  | none => (t, s)
  | some h =>
    let k : Pkt := { pkt0 with opc := BitVec.ofNat 6 opc, addr := if opc = 0x13 then 0 else BitVec.ofNat 64 t.line,
                               snpid := BitVec.ofNat 16 (t.home * 1024 + t.idx), binv := binv,
                               set := if opc = 0x13 then BitVec.ofNat 12 (t.home * 64 + t.req.version) else 0,
                               way := if opc = 0x13 then BitVec.ofNat 3 t.req.way else 0,
                               fwdhost := if opc = 0x12 then BitVec.ofNat 12 t.req.host else 0,
                               fwdtag := if opc = 0x12 then BitVec.ofNat 15 t.req.tag else 0 }
    let s := (s.sendHost h k).tel (blkHome t.home) 0x01 opc 1
    let s := if binv then s.tel (blkHome t.home) 0x03 0 1 else s
    let s := if opc = 0x12 then s.tel (blkHome t.home) 0x02 0 1 else s
    let s := if t.req.tile.isNone && t.req.op < 0x100 then s.trackFlag t.req.host t.req.tag 1 else s
    ({ t with snoops := t.snoops ++ [⟨h, slot, opc, s.beat⟩] }, s)

/-- Snoop each of a list of holders. -/
def State.snoopAll (s : State) (t : Txn) (slots : List Nat) (opc : Nat) (binv : Bool) : Txn × State :=
  slots.foldl (fun (acc : Txn × State) sl => acc.2.sendSnoop acc.1 sl opc binv) (t, s)

/-- A transaction as it opens. -/
def newTxn (hm idx dpa : Nat) (r : HomeReq) (beat : Nat) : Txn where
  home := hm
  idx := idx
  line := r.line
  dpa := dpa
  req := r
  stage := .snoop
  snoops := []
  absent := []
  gotDirty := false
  fwd := false
  ownerSnooped := false
  grant := none
  plan := (0, false)
  inCache := false
  opened := beat
  reply := []
  done := (0, 0, 0)

/-- Job numbers of back-invalidations (Table COH-7). -/
def jobBinv : Nat := 1
def jobRevoke (slot : Nat) : Nat := 0x1000 + slot
def jobClose (h : Nat) : Nat := 0x2000 + h
def jobRegion (g : Nat) : Nat := 0x10000 + g
def jobTenant (t : Nat) : Nat := 0x20000 + t
def jobPage (g page : Nat) : Nat := 0x100000000 * (g + 1) + page

/-- Is the host's slot being taken from it, by a revocation or a lease close (R68, R537)? -/
def State.slotEnding (s : State) (h : Nat) : Bool :=
  match (s.leaseOf h).slot with
  | none => false
  | some x => s.homes.jobs.any fun j => j % 0x2000000000000 == jobRevoke x || j % 0x2000000000000 == jobClose h

/-- The slot with which a host's request is coherent. -/
def State.cohSlot (s : State) (h : Nat) : Option Nat := if s.slotEnding h then none else (s.leaseOf h).slot

/-- Table COH-5 for a line of a COHERENT region: what the home sends and waits for.  R88 names AtomicReq alone; a tile's atomic,
which is always placed at home (R306), moves the line's counter too (DESIGN CHOICE, log entry 12). -/
def State.openCoherent (s : State) (t : Txn) : State :=
  let r := t.req
  let hs := s.holders t.home t.line
  let mySlot := if r.tile.isSome || 0x200 ≤ r.op then none else (s.leaseOf r.host).slot
  let mine (e : Nat × FEnt) : Bool := some (keySlot e.1) = mySlot
  let others := hs.filter fun e => !mine e
  let own := (hs.find? mine).map fun e => e.2.st
  let slots := others.map fun e => keySlot e.1
  let allSlots := hs.map fun e => keySlot e.1
  let owner := others.find? fun e => e.2.st == 3
  let fh := others.find? fun e => e.2.st == 2
  let hit := (s.lcGet t.dpa).isSome
  let contention := !others.isEmpty || s.homes.chain.any fun c => c.1 == t.home && c.2.line == t.line
  match r.op with
  | 0x01 =>
    match owner with
    | some o =>
      let (t, s) := s.sendSnoop { t with plan := (0x21, true) } (keySlot o.1) 0x11 false
      s.advance t
    | none =>
      if others.isEmpty then s.advance { t with plan := (if s.on F.homeCohCtlEonread then 0x22 else 0x21, true) }
      else if hit then s.advance { t with plan := (0x20, true) }
      else match fh with
        | some f =>
          if s.on F.homeCohCtlFwdEn then
            let (t, s) := s.sendSnoop { t with plan := (0x21, true) } (keySlot f.1) 0x12 false
            s.advance t
          else s.advance { t with plan := (0x20, true) }
        | none => s.advance { t with plan := (0x21, true) }
  | 0x02 =>
    let (t, s) := s.snoopAll { t with plan := (0x22, true) } slots 0x10 false
    s.advance t
  | 0x03 =>
    let (t, s) := s.snoopAll { t with plan := (0x22, own.isNone) } slots 0x10 false
    s.advance t
  | 0x04 =>
    match owner with
    | some o =>
      let (t, s) := s.sendSnoop t (keySlot o.1) 0x11 false
      s.advance t
    | none => s.advance t
  | 0x06 =>
    let c := s.predGet t.home t.dpa
    let pol := s.rd F.homeCohCtlAtomPol
    let cache := (s.cohSlot r.host).isSome && (pol == 2 || (pol == 0 && decide (c ≤ 1)))
    let s := (s.predMove t.home t.dpa contention).tel (blkHome t.home) 0x05 (if cache then 1 else 0) 1
    if cache then
      let (t, s) := s.snoopAll { t with plan := (0x22, own.isNone), inCache := true } slots 0x10 false
      s.advance t
    else
      let (t, s) := s.snoopAll t allSlots 0x10 false
      s.advance t
  | 0x120 => s.advance t
  | 0x121 => s.advance t
  | 0x200 =>
    let (t, s) := s.snoopAll t (if r.way = 8 then slots.filter fun x => x == r.tag else allSlots) 0x10 true
    s.advance t
  | 0x201 =>
    let (t, s) := s.sendSnoop t r.tag 0x13 true
    s.advance t
  | op =>
    -- WrCur of a host, WR and atomics of a tile: every holder is invalidated first
    let s := if 0x101 ≤ op && op ≤ 0x10C then
        (s.predMove t.home t.dpa contention).tel (blkHome t.home) 0x05 0 1 else s
    let (t, s) := s.snoopAll t allSlots 0x10 false
    s.advance t

/-- R75: a request that the requester's own filter entry does not allow.  The rule does not name an AtomicReq from E or M, which
is served (DESIGN CHOICE, log entry 13). -/
def State.protocolBad (s : State) (hm : Nat) (r : HomeReq) : Bool :=
  match (s.leaseOf r.host).slot with
  | none => false
  | some sl =>
    match (s.holders hm r.line).find? fun e => keySlot e.1 == sl with
    | none => false
    | some e => (r.op == 5 || r.op == 3) && e.2.st == 3 || r.op == 1 || r.op == 2

/-- Forward a page fault to its fault home (R62). -/
def State.forwardFault (s : State) (sp o cause size src : Nat) (w : Waiter) : State :=
  let lg := if cause = 0 then 16 else if size = 0 then 16 else if size = 1 then 26 else 37
  let b := o / 2 ^ lg * 2 ^ lg
  let g := ((s.rgnAt sp o).map (·.id)).getD 0
  { s with homes := { s.homes with
    faults := s.homes.faults ++ [⟨faultHome sp b, sp, b / 0x10000, if cause = 0 then 0 else size, cause, g, w, src⟩] } }

/-- Page rights a request needs (R41): RD, WR. -/
def needBits (op : Nat) : Bool × Bool :=
  match op with
  | 1 => (true, false) | 2 => (true, true) | 3 => (true, true) | 4 => (true, false) | 5 => (false, true)
  | 0x120 => (true, false) | 0x121 => (true, false) | 0x122 => (false, true) | _ => (true, true)

/-- Does the leaf give the rights (R41)?  An operator's access also needs OP. -/
def leafAllows (e op : Nat) : Bool :=
  let n := needBits op
  0x300 ≤ op || ((!n.1 || leafRd e) && (!n.2 || leafWr e) && (op < 0x100 || leafOp e))

/-- Send a request through a peer window (R51): the access goes to the window's range on the peer as PRES_HOST.  The spec names
neither port nor TAG; the model uses the lowest ACTIVE port whose peer's END_ID carries PEER_ID in bits [19:8], else the lowest
ACTIVE port, else port 0, and the lowest free TAG, 0 where none is free (DESIGN CHOICE, log entry 23). -/
def State.sendPeer (s : State) (w : PeerWin) (r : HomeReq) : State :=
  let o := ptrOff r.addr
  let a := ptrOf w.pspace (w.pbase * 0x10000 + (o - w.lbase * 0x10000))
  let tag := (findLow 32768 fun t => !(s.peers.any fun p => p.tag == t)).getD 0
  let opc := if r.op = 0x120 || r.op = 0x121 then 4 else if r.op = 0x122 then 5 else if 0x100 ≤ r.op then 6 else r.op
  let up (p : Nat) : Bool := s.rd (F.fportLstatState p) == 3
  let port := ((findLow 64 fun p => up p && bits (s.rd (F.fportPeerIdId p)) 19 8 == w.peerId).getD
    ((findLow 64 up).getD 0))
  let body : Nat := if opc = 5 then r.mask.toNat + r.data.toNat * 2 ^ 128 else if opc = 6 then r.operands.toNat else 0
  let len := if opc = 5 then 11 else if opc = 6 then 2 + ceilDiv (2 ^ r.size * (if r.aop = 4 then 2 else 1)) 16 else 2
  let s := if s.hosts.peerLease.contains w.presHost then s
    else
      ({ s with hosts := { s.hosts with peerLease := s.hosts.peerLease ++ [w.presHost] } }).sendPort port { pkt0 with
        opc := 0x28, len := 3, host := BitVec.ofNat 12 w.presHost }
  let s := { s with peers := s.peers ++ [(⟨tag, r, w.presHost, port⟩ : PeerReq)], peerSeq := (s.peerSeq + 1) % 2 ^ 32 }
  s.sendPort port { pkt0 with
    opc := BitVec.ofNat 6 opc, len := BitVec.ofNat 5 len, host := BitVec.ofNat 12 w.presHost, tag := BitVec.ofNat 15 tag,
    seq := BitVec.ofNat 32 s.peerSeq, addr := BitVec.ofNat 64 a, aop := BitVec.ofNat 8 r.aop,
    size := BitVec.ofNat 3 r.size, poison := r.poison, body := BitVec.ofNat 2048 body }

/-! ## Pinned versions (R115, R116) -/

/-- Frame that a version of a PUBLISHED region maps at a page, when it is not the current one. -/
def State.versionFrame (s : State) (g v page : Nat) : Option Nat :=
  let os := sortBy (fun o => o.version) (s.pub.olds.filter fun o => o.region == g && v ≤ o.version)
  (os.findSome? fun o => (o.pages.find? fun p => p.1 == page).map (·.2))

/-- The leaf of a page as an instance sees it: with the frame of the version that it pins, where that is not the current one. -/
def State.pinLeaf (s : State) (inst sp o e : Nat) : Nat :=
  match s.rgnAt sp o with
  | none => e
  | some g =>
    match s.pub.pins.find? fun p => p.region == g.id && p.holder == 0x10000 + inst && p.version ≠ g.version with
    | none => e
    | some p => match s.versionFrame g.id p.version (o / 0x10000) with
      | some f => setBits e 47 16 f
      | none => e

/-- Version of a region that an operator instance of the job pins, when it is not the current one. -/
def State.jobPin (s : State) (g : Nat) (r : HomeReq) : Option Nat :=
  match r.tile with
  | none => none
  | some _ => (s.pub.pins.find? fun p => p.region == g && p.holder == 0x10000 + r.job).map (·.version)

/-! ## Opening a request's transaction -/

/-- The answer to a tile's translation walk: the leaf entry inline, and above it the size of its page (Table TIL-13; the
place of the size is the model's, log entry 51). -/
def State.walkReply (s : State) (r : HomeReq) (e lg : Nat) : State :=
  match r.tile with
  | some m => s.sendMesh (meshReply m 0 (BitVec.ofNat 256 (e % 2 ^ 128 + lg * 2 ^ 128)) false [])
  | none => s

/-- The home serialises a request whose line has no open transaction: record, translation, rights, and the line's
transaction (R78).  `staging` performs a write to a PUBLISHED region. -/
def State.openReq (s : State) (staging : Rgn → HomeReq → Nat → Nat → State → State) (hm : Nat) (r : HomeReq) : State :=
  let sp := ptrSpace r.addr
  let o := ptrOff r.addr
  match s.rgnAt sp o with
  | none => s.failReq hm r stGone
  | some g =>
    if r.vsel && !(s.pub.pins.any fun p => p.region == g.id && p.version == r.version && p.holder == r.host) then
      s.replyCmp hm r stVersionGone
    else
    let recorded := r.tile.isNone && r.op ≠ 4 && r.op < 0x40
    let s := if r.tile.isNone then s.stage r.host r.tag 4 else s
    let (rec, s) := if recorded then s.recJudge hm r.host r.tag r.seq r.op r.addr r.epoch false else (.fresh, s)
    match rec with
    | .held k => { s with homes := { s.homes with chanWait := s.homes.chanWait ++ [(k, r)] } }
    | .cmp c => if r.tile.isSome then s.replyCmp hm r c else
        let s := s.stampMir g hm r
        s.holdReply hm r none (s.replyCmpPkt hm r c)
    | .drop => s.stampMir g hm r
    | .regrant => s
    | .again st res =>
        let s := (s.stampMir g hm r).trackFlag r.host r.tag 4
        s.holdReply hm r none (s.replyAgainPkt hm r st res)
    | .fresh =>
      let peerHost := r.atts.any (·.peer)
      let (w, s) := s.translate hm sp o (r.tile.isNone && !r.rewalk) peerHost hm
      match w with
      | .violation => (s.violate (blkHome hm) r.host r.port g.tenant 4).failReq hm r stAdmission
      | .error c => (s.stampMir g hm r).finishCmp hm r c
      | .held k => { s with homes := { s.homes with chanWait := s.homes.chanWait ++ [(k, r)] } }
      | .fault cause size =>
        let s := if r.tile.isNone then s.trackFlag r.host r.tag 2 else s
        s.forwardFault sp o cause size hm (.req { r with rewalk := true })
      | .peer w e lg =>
        if r.op = 0x123 then s.walkReply r e lg
        else if !r.peerOk then (s.stopInst r.job 0x14).failReq hm r stDenied
        else if leafAllows e r.op then (s.recOpen r).sendPeer w r
        else (s.stampMir g hm r).finishCmp hm r stDenied
      | .leaf e lg =>
        if r.op = 0x123 then s.walkReply r e lg
        else
        let s := s.touchSend hm g o
        if g.mode = 2 && (r.op = 5 || r.op = 6) && r.host ≠ 0xFFF then staging g r e lg s
        else if !leafAllows e r.op || (g.mode = 2 && (r.op = 0x122 || (0x101 ≤ r.op && r.op ≤ 0x10C))) then
          (s.stampMir g hm r).finishCmp hm r stDenied
        else if (r.op = 1 || r.op = 2 || r.op = 3) && (g.mode ≠ 0 || (s.cohSlot r.host).isNone) then s.failReq hm r stNotCoherent
        else if g.mode = 0 && r.tile.isNone && s.protocolBad hm r then s.failReq hm r stProtocol
        else
          let ver := if r.vsel then some r.version else s.jobPin g.id r
          let fr := match ver with
            | some v => if v = g.version then none else s.versionFrame g.id v (o / 0x10000)
            | none => none
          let dpa := (match fr with
            | some f => f * 0x10000 + o % 0x10000
            | none => leafDpa e lg o) / 128 * 128
          let s := if s.zone dpa ≠ g.pcode then
              { s with homes := { s.homes with zoneMis := SMap.set 0 s.homes.zoneMis hm (SMap.get 0 s.homes.zoneMis hm + 1) } }.raise
                (blkHome hm) 9 none
            else s
          match s.freeEntry hm r.tenant with
          | none => { s with homes := { s.homes with pendq := s.homes.pendq ++ [(hm, r)] } }
          | some idx =>
            let s := s.recOpen r
            let s := s.stampMir g hm r
            let s := if r.tile.isNone && (s.lcGet dpa).isSome then s.trackFlag r.host r.tag 0 else s
            let t := newTxn hm idx dpa r s.beat
            if g.mode = 0 then s.openCoherent t
            else s.advance t

end Sys2Proof.Machine
end

