-- ==== Sys2Proof/Machine/Publish.lean ====
section
/-! DEFINITION. Requests as they leave ingress, and published regions: staging, publish messages, commits, pins,
subscriptions (R54 to R57, R103 to R117, R535). -/

namespace Sys2Proof.Machine

/-! ## Attachments and requests -/

/-- The fields of an admission entry (Table ADR-9) as an attachment. -/
def attachOf (idx w : Nat) : Attach :=
  ⟨idx, bits w 34 25, bits w 44 35, bits w 79 64, bits w 95 80, bits w 52 45, bits w 58 53, tst w 59⟩

/-- Valid entries whose host range covers the host, and whose space range covers the space when one is named (R55),
lowest index first. -/
def State.attach (s : State) (h : Nat) (sp : Option Nat) : List Attach :=
  s.hosts.adm.filterMap fun e =>
    let w := e.2.toNat
    if tst w 0 && bits w 12 1 ≤ h && h ≤ bits w 24 13 &&
        (match sp with
         | some x => bits w 34 25 ≤ x && x ≤ bits w 44 35
         | none => true)
    then some (attachOf e.1 w) else none

/-- Is the packet one of the publish messages of Table MOD-2? -/
def isPublishOp (o : Nat) : Bool := 0x30 ≤ o && o ≤ 0x35

/-- Packets that the policer charges (Table TRF-1). -/
def charged (o : Nat) : Bool := (1 ≤ o && o ≤ 6) || isPublishOp o || o == 0x38

/-- Publish home of a region (R104). -/
def pubHome (g : Nat) : Nat := g % 64

/-! ## Virtual output queues (R359, R386, R388) -/

/-- The crossbar output of a packet past ingress (Table TRN-9): a home slice, or 64 the dispatcher. -/
def voqOut (p : Pkt) : Nat :=
  let o := p.opc.toNat
  if o = 0x38 || o = 0x39 || o = 0x2D then 64
  else if isPublishOp o then pubHome (bits p.body.toNat 15 0)
  else if o = 0x2E || o = 0x2F then bits p.body.toNat 133 128
  else homeOfPtr p.addr.toNat

/-- Mark a host for congestion (R389): its slowdown step rises by one, once in a refill period, up to SMAX. -/
def State.congMark (s : State) (h : Nat) : State :=
  let p := SMap.get ⟨false, 0, 1, 0, 0, 0, 0, 0, false, 0⟩ s.hosts.pol h
  if !s.on F.xbarCongEn || !p.en then s
  else
    let t := (((s.attach h none).head?).map (·.tenant)).getD 0
    let s := s.ten t 9 1
    let p := if p.marked then p else { p with marked := true, quiet := 0, slow := min (p.slow + 1) (max p.slow (s.rd F.xbarCongSmax)) }
    { s with hosts := { s.hosts with pol := SMap.set ⟨false, 0, 1, 0, 0, 0, 0, 0, false, 0⟩ s.hosts.pol h p } }

/-- Packets in the queue of an input for an output. -/
def State.voqLen (s : State) (port out : Nat) : Nat :=
  (s.hosts.routed.filter fun e => e.pkt.port.val == port && voqOut e.pkt == out).length

/-- A packet enters its virtual output queue; a charged one is marked where the queue is at the threshold (R388). -/
def State.voqPut (s : State) (e : Routed) : State :=
  let mark := charged e.pkt.opc.toNat && s.rd F.xbarCongThresh * 4 ≤ s.voqLen e.pkt.port.val (voqOut e.pkt)
  let s := if mark then s.congMark e.pkt.host.toNat else s
  { s with hosts := { s.hosts with routed := s.hosts.routed ++ [{ e with marked := mark }] } }

/-- A packet past ingress: into its queue of 64, or held at its input while that is full (R386). -/
def State.voqEnter (s : State) (e : Routed) : State :=
  if s.voqLen e.pkt.port.val (voqOut e.pkt) < 64 then s.voqPut e
  else { s with hosts := { s.hosts with inHold := s.hosts.inHold ++ [(e, 0, 0)] } }

/-- A packet left a queue: the first one held for it enters, and its credit is freed (R386). -/
def State.voqNext (s : State) (port out : Nat) : State :=
  match s.hosts.inHold.find? fun e => e.1.pkt.port.val == port && voqOut e.1.pkt == out with
  | none => s
  | some e =>
    ({ s with hosts := { s.hosts with inHold := s.hosts.inHold.erase e } }.freeFlits port e.2.1 e.2.2).voqPut e.1

/-- What a packet takes with it from ingress: the attachments and LF[1:0] it was given there, or, for a request whose
ingress the command leaves out, those of the present beat (log entry 40). -/
def State.takeRouted (s : State) (p : Pkt) : Routed × State :=
  match s.hosts.routed.find? fun e => decide (e.pkt = p) with
  | some e => (e, (({ s with hosts := { s.hosts with routed := s.hosts.routed.erase e } }).voqNext p.port.val (voqOut p)).stage
      p.host.toNat p.tag.toNat 3)
  | none =>
    (⟨p, s.attach p.host.toNat (if isPublishOp p.opc.toNat || p.opc = 0x38 || p.opc = 0x39 then none else some (ptrSpace p.addr.toNat)),
      0, s.beat, false⟩, s)

/-- The request in a packet of a host, as its unit sees it. -/
def State.homeReqOf (s : State) (p : Pkt) (e : Routed) : HomeReq :=
  let o := p.opc.toNat
  let b := p.body.toNat
  { req0 with
    op := o, host := p.host.toNat, tag := p.tag.toNat, seq := p.seq.toNat, ccx := p.ccx.toNat,
    epoch := (s.leaseOf p.host.toNat).epoch, addr := p.addr.toNat, way := p.way.toNat, aop := p.aop.toNat,
    size := p.size.toNat, vsel := p.vsel,
    version := if isPublishOp o then bits b 127 64 else bits b 63 0,
    mask := if o = 5 then p.body.extractLsb' 0 128 else 0,
    data := if o = 5 then p.body.extractLsb' 128 1024 else p.body.extractLsb' 0 1024,
    poison := p.poison, operands := p.body.extractLsb' 0 512, atts := e.atts, arrive := s.beat, port := p.port.val,
    lf := e.lf, tenant := ((e.atts.head?).map (·.tenant)).getD 0, marked := e.marked, job := if isPublishOp o then bits b 15 0 else 0 }

/-! ## Shadow frames (R109, R115, R130, R163, R164) -/

/-- Frames of the staging pool or, for an SRAM-pinned region, of the SRAM-tier reserve, that are free. -/
def State.freeFrames (s : State) (sram : Bool) : List Nat :=
  let own := if sram then
      let b := s.rd F.percSramCtlBase
      let n := s.rd F.percSramCtlFrames
      (List.range (s.rd F.percSramCtlStgRes)).map fun i => b + n - s.rd F.percSramCtlStgRes + i
    else
      let b := s.rd F.homePubCtlStgBase
      if b = 0 then [] else (List.range (s.rd F.homePubCtlStgCount)).map fun i => b + i
  let more := s.pub.joined.filter fun f => s.inSram f == sram && (sram || s.rd F.homePubCtlStgBase ≠ 0)
  (own ++ more.filter fun f => !own.contains f).filter fun f =>
    !s.pub.taken.contains f && !(s.zeroq.any fun z => z.pushed.isNone && z.frame == f)

/-- Take a shadow frame of the region's strength (R130): the lowest free frame (DESIGN CHOICE, log entry 24). -/
def State.takeFrame (s : State) (g : Rgn) : Option Nat × State :=
  let fs := (s.freeFrames (g.tier == 0)).filter fun f => s.zone (f * 0x10000) == g.pcode &&
    (match s.strictOf g.tenant with
     | some x => bits f 27 25 == x
     | none => true)
  match minBy? id fs with
  | some f => (some f, { s with pub := { s.pub with taken := s.pub.taken ++ [f] } })
  | none => (none, s)

/-- Return a frame to its pool: it is zeroed before reuse (R110, R115, R414). -/
def State.returnFrame (s : State) (f : Nat) : State :=
  { s with pub := { s.pub with taken := s.pub.taken.filter (· ≠ f),
                               joined := if s.pub.joined.contains f then s.pub.joined else s.pub.joined ++ [f] },
           zeroq := s.zeroq ++ [⟨f, none⟩] }

/-! ## Stagings (R106 to R110) -/

/-- Hosts with an open staging of a region, copies under way included. -/
def State.stagers (s : State) (g : Nat) : List Nat :=
  dedup (((s.pub.stagings.filter fun x => x.region == g).map (·.host)) ++
    ((s.pub.copies.filter fun x => x.region == g).map (·.host)))

/-- Stagings held at a publish home. -/
def State.stagingsAt (s : State) (hm : Nat) : Nat :=
  (dedup (((s.pub.stagings.filter fun x => pubHome x.region == hm).map fun x => (x.region, x.host)) ++
    ((s.pub.copies.filter fun x => pubHome x.region == hm).map fun x => (x.region, x.host)))).length

/-- Versions retained: the current one and every other that a pin holds (R115). -/
def State.retained (s : State) (g v : Nat) : Nat :=
  1 + (dedup ((s.pub.pins.filter fun p => p.region == g && p.version ≠ v).map (·.version))).length

/-- Keep STAGINGS and RETAINED of a region's record (Table MOD-3). -/
def State.pubSync (s : State) (g : Nat) : State :=
  match s.rgn? g with
  | some r =>
    let n := (s.stagers g).length
    let k := s.retained g r.version
    let s := if r.stagings = n then s else s.setRgnBits g 204 192 n
    if r.retained = k then s else s.setRgnBits g 207 205 k
  | none => s

/-- A host's staging of a region. -/
def State.stagingOf (s : State) (g h : Nat) : Option Staging :=
  s.pub.stagings.find? fun x => x.region == g && x.host == h

/-- Perform a write or atomic of a host on a line of its staging (R106, R305), and answer it. -/
def State.stagedWrite (s : State) (hm frame : Nat) (r : HomeReq) : State :=
  let dpa := frame * 0x10000 + r.addr % 0x10000 / 128 * 128
  if r.op = 5 then
    (s.writeLine dpa r.data r.mask r.poison hm).finishReq hm r (s.replyPkt hm r 0x26 2) 2 0 0
  else
    let (rd, s) := s.readLine dpa 0 hm
    let (old, po, s) := s.atomAt dpa hm r rd
    s.finishReq hm r (s.atomReply hm r old po) (if 4 < r.size then 3 else 2) 0 old

/-- A WrCur or AtomicReq of a host to a PUBLISHED region, its page mapped by `leaf` with page size `lg` (R106, R108,
R109, R112). -/
def State.stagingWrite (s : State) (g : Rgn) (r : HomeReq) (leaf lg : Nat) : State :=
  let hm := homeOfPtr r.addr
  let page := ptrOff r.addr / 0x10000
  let st := s.stagingOf g.id r.host
  let mine := (s.pub.copies.filter fun c => c.region == g.id && c.host == r.host)
  let at_ := st.bind fun x => x.pages.find? fun p => p.1 == page
  match at_.bind fun p => s.writeHeld ((p.2 * 0x10000 + r.addr % 0x10000) / 128 * 128) with
  | some k => { s with homes := { s.homes with chanWait := s.homes.chanWait ++ [(k, r)] } }
  | none =>
  let s := s.stampMir g hm r
  if !leafAllows leaf r.op then s.finishCmp hm r stDenied
  else if lg ≠ 16 then (s.raise (blkHome hm) 9 none).finishCmp hm r stDenied
  else
    let s := s.recOpen r
    match at_ with
    | some p => s.stagedWrite hm p.2 r
    | none =>
      if mine.any fun c => c.page == page then
        { s with pub := { s.pub with copies := s.pub.copies.map fun c =>
            if c.region = g.id ∧ c.host = r.host ∧ c.page = page then { c with waiting := c.waiting ++ [r] } else c } }
      else
        let held := ((st.map fun x => x.pages.length).getD 0) + mine.length
        let new := st.isNone && mine.isEmpty
        if 4096 ≤ held || (new && 64 ≤ s.stagingsAt (pubHome g.id)) then
          s.finishCmp hm r stStagingFull
        else
          match s.takeFrame g with
          | (none, s) =>
            s.finishCmp hm r stStagingFull
          | (some f, s) =>
            ({ s with pub := { s.pub with copies := s.pub.copies ++ [(⟨g.id, r.host, page, f, [r]⟩ : StagingCopy)] } }).pubSync g.id

/-- Copy the 512 lines of a frame to another, poison included. -/
def State.copyFrame (s : State) (src dst hm : Nat) : State :=
  each (List.range 512) (fun i s =>
    let (rd, s) := s.readLine (src * 0x10000 + i * 128) 1 hm
    s.writeLine (dst * 0x10000 + i * 128) rd.data (BitVec.allOnes 128) rd.poison hm) s

/-- Is a line of a frame held for a fenced channel (R149)? -/
def State.frameHeld (s : State) (f : Nat) : Bool := (List.range 512).any fun i => (s.lineHeld (f * 0x10000 + i * 128)).isSome

/-- A staging copy completes: the page joins the host's staging and the waiting writes are performed in order.  It waits for lines
that a fence holds.  A page that has left its leaf meanwhile gives the writes XLATE_ERROR and the frame back (DESIGN CHOICE, log
entry 18). -/
def State.stagingCopyDone (s : State) (g h page : Nat) : State :=
  match s.pub.copies.find? fun c => c.region == g && c.host == h && c.page == page with
  | none => s
  | some c =>
    let s := { s with pub := { s.pub with copies := s.pub.copies.filter fun x => decide (x ≠ c) } }
    match s.rgn? g with
    | none => s.returnFrame c.frame
    | some r =>
      let hm := pubHome g
      let (w, s) := s.translate hm r.space (page * 0x10000) false false hm
      match w with
      | .leaf e _ =>
        if s.frameHeld (bits e 47 16) || s.frameHeld c.frame then
          { s with pub := { s.pub with copies := s.pub.copies ++ [c] } }
        else
        let s := s.copyFrame (bits e 47 16) c.frame hm
        let s := match s.stagingOf g h with
          | some x => { s with pub := { s.pub with stagings := s.pub.stagings.map fun y =>
              if y = x then { y with pages := y.pages ++ [(page, c.frame)] } else y } }
          | none => { s with pub := { s.pub with stagings := s.pub.stagings ++ [(⟨g, h, [(page, c.frame)]⟩ : Staging)] } }
        (each c.waiting (fun q s => s.stagedWrite (homeOfPtr q.addr) c.frame q) s).pubSync g
      | _ =>
        (each c.waiting (fun q s => s.finishCmp (homeOfPtr q.addr) q stXlate) (s.returnFrame c.frame)).pubSync g

/-- End a host's staging of a region and return its frames (R110); writes that wait for a copy are answered with
`status`, or dropped with the host. -/
def State.dropStaging (s : State) (g h : Nat) (status : Option Nat) : State :=
  let st := s.stagingOf g h
  let cs := s.pub.copies.filter fun c => c.region == g && c.host == h
  let s := { s with pub := { s.pub with
    stagings := s.pub.stagings.filter (fun x => !(x.region == g && x.host == h)),
    copies := s.pub.copies.filter (fun c => !(c.region == g && c.host == h)) } }
  let s := each ((st.map fun x => x.pages).getD []) (fun p s => s.returnFrame p.2) s
  let s := each cs (fun c s =>
    let s := s.returnFrame c.frame
    match status with
    | some x => each c.waiting (fun q s => s.finishCmp (homeOfPtr q.addr) q x) s
    | none => s) s
  s.pubSync g

/-! ## Versions (R113 to R116) -/

/-- Free the frames of versions that neither are current nor pinned (R115). -/
def State.freeOld (s : State) (g : Nat) : State :=
  let os := sortBy (fun o => o.version) (s.pub.olds.filter fun o => o.region == g)
  let pinned := (s.pub.pins.filter fun p => p.region == g).map (·.version)
  let need (o : OldPages) (page : Nat) : Bool :=
    let lower := ((os.filter fun x => x.version < o.version && x.pages.any fun p => p.1 == page).map (·.version)).getLast?
    pinned.any fun v => v ≤ o.version && (match lower with | some w => w < v | none => true)
  let gone := os.flatMap fun o => (o.pages.filter fun p => !need o p.1).map (·.2)
  let keep := (os.map fun o => { o with pages := o.pages.filter fun p => need o p.1 }).filter fun o => !o.pages.isEmpty
  let s := { s with pub := { s.pub with olds := (s.pub.olds.filter fun o => o.region ≠ g) ++ keep } }
  each gone (fun f s => s.returnFrame f) s

/-- Release pins of a region that satisfy `p`. -/
def State.unpin (s : State) (g : Nat) (p : Pin → Bool) : State :=
  ({ s with pub := { s.pub with pins := s.pub.pins.filter fun x => !(x.region == g && p x) } }.freeOld g).pubSync g

/-- RspPub to the host of a publish message (Table MOD-4). -/
def State.rspPub (s : State) (r : HomeReq) (st v : Nat) : State :=
  let hm := pubHome r.job
  s.finishReq hm r { s.replyPkt hm r 0x37 3 with
    status := BitVec.ofNat 8 st, body := BitVec.ofNat 2048 (r.job + v * 2 ^ 64) } 2 st v

/-- RspPub RETAINED_FULL, PIN_FULL or SUB_FULL: Table MOD-4 states no VERSION beside these, so that it is a free value. -/
def State.rspRefused (s : State) (r : HomeReq) (st : Nat) : State :=
  ({ s with free := s.free + 1 }).rspPub r st (Config.refusedVersion s.free).toNat

/-- One Notify by carillon to the response ports of the region's subscribers (R114, R365). -/
def State.notify (s : State) (g v : Nat) : State :=
  let hs := (s.pub.subs.filter fun e => e.1 == g).map (·.2)
  let mask := (dedup (hs.map s.rport)).foldl (fun m p => m + 2 ^ p) 0
  s.carFill ⟨pubHome g / 32,
    { pkt0 with opc := 0x36, len := 4, body := BitVec.ofNat 2048 (g + v * 2 ^ 64 + s.beat * 2 ^ 128) }, hs, mask⟩

/-- Commit beat of an accepted publish with `n` staged pages (R111). -/
def commitBeat (beat n : Nat) : Nat := beat + 8 + ceilDiv n 16

/-- The last accepted version of a region (R111): each accepted publish still pending counts one (DESIGN CHOICE for more than one, log
entry 19). -/
def State.lastAccepted (s : State) (g : Rgn) : Nat :=
  g.version + (s.pub.commits.filter fun c => c.region == g.id).length

/-- Versions that are retained or accepted, which a further publish may not make five (R111, Table MOD-4). -/
def State.versionsTaken (s : State) (g : Rgn) : Nat :=
  s.retained g.id g.version + (s.pub.commits.filter fun c => c.region == g.id).length

/-- What a publish message does once admitted to an active PUBLISHED region (R110 to R116).  StageDiscard answers the writes that
wait for its staging's copies with REGION_GONE (DESIGN CHOICE, log entry 17). -/
def State.publishMsg (s : State) (g : Rgn) (r : HomeReq) : State :=
  match r.op with
  | 0x30 =>
    let last := s.lastAccepted g
    let st := s.stagingOf g.id r.host
    let pages := (st.map fun x => x.pages).getD []
    if r.version ≠ last then
      match (s.pub.commits.filter fun c => c.region == g.id).getLast? with
      | some c => { s with pub := { s.pub with commits := s.pub.commits.map fun x =>
          if x = c then { x with stale := x.stale ++ [r] } else x } }
      | none => s.rspPub r 2 last
    else if pages.isEmpty then s.rspPub r 1 g.version
    else if 4 ≤ s.versionsTaken g then s.rspRefused r 3
    else
      ({ s with pub := { s.pub with
        stagings := s.pub.stagings.filter (fun x => !(x.region == g.id && x.host == r.host)),
        commits := s.pub.commits ++ [(⟨g.id, r.host, last + 1, commitBeat s.beat pages.length, pages, r, []⟩ : Commit)] } }).pubSync g.id
  | 0x31 =>
    if (s.stagers g.id).contains r.host then (s.dropStaging g.id r.host (some stGone)).rspPub r 0 g.version
    else s.rspPub r 5 g.version
  | 0x32 =>
    if 16 ≤ (s.pub.pins.filter fun p => p.holder == r.host).length then s.rspRefused r 4
    else
      (({ s with pub := { s.pub with pins := s.pub.pins ++ [(⟨g.id, g.version, r.host, s.beat⟩ : Pin)] } }).pubSync g.id).rspPub
        r 0 g.version
  | 0x33 =>
    match s.pub.pins.find? fun p => p.region == g.id && p.version == r.version && p.holder == r.host with
    | some p =>
      ((({ s with pub := { s.pub with pins := s.pub.pins.erase p } }).freeOld g.id).pubSync g.id).rspPub r 0 g.version
    | none => s.rspPub r 5 g.version
  | 0x34 =>
    if s.pub.subs.contains (g.id, r.host) then s.rspPub r 0 g.version
    else if 4096 ≤ (s.pub.subs.filter fun e => pubHome e.1 == pubHome g.id).length then s.rspRefused r 6
    else ({ s with pub := { s.pub with subs := s.pub.subs ++ [(g.id, r.host)] } }).rspPub r 0 g.version
  | _ =>
    if s.pub.subs.contains (g.id, r.host) then
      ({ s with pub := { s.pub with subs := s.pub.subs.filter (· ≠ (g.id, r.host)) } }).rspPub r 0 g.version
    else s.rspPub r 5 g.version

/-- Rights that a publish message needs (R55): alternatives, as masks. -/
def publishRights : Nat → List Nat
  | 0x30 => [16] | 0x31 => [2, 16] | _ => [1]

/-- Serve an admitted publish message: its stamp, its tag record and its effect; one whose record a fence holds waits (R149). -/
def State.publishServe (s : State) (g : Rgn) (r : HomeReq) : State :=
  let hm := pubHome r.job
  match s.recJudge hm r.host r.tag r.seq r.op r.addr r.epoch false with
  | (.held k, _) => { s with homes := { s.homes with chanWait := s.homes.chanWait ++ [(k, r)] } }
  | _ =>
    let s := s.stampMir g hm r
    match s.recJudge hm r.host r.tag r.seq r.op r.addr r.epoch false with
    | (.cmp c, s) => s.holdReply hm r none (s.replyCmpPkt hm r c)
    | (.again st res, s) => s.holdReply hm r none (s.replyAgainPkt hm r st res)
    | (.fresh, s) =>
      let s := s.recOpen r
      if g.mode ≠ 2 then s.rspPub r 7 0 else s.publishMsg g r
    | (_, s) => s

/-- A publish message at its publish home: region, admission, tag record, mode and effect (R535, R356).  `mirrorHold`
takes a message that must wait for its stamp. -/
def State.publishArrive (s : State) (mirrorHold : Rgn → HomeReq → State → Option State) (r : HomeReq) : State :=
  let hm := pubHome r.job
  match s.rgn? r.job with
  | none => s.reply r { s.replyPkt hm r 0x37 3 with status := 7, body := BitVec.ofNat 2048 r.job }
  | some g =>
    let atts := r.atts.filter fun a => a.spaceLo ≤ g.space && g.space ≤ a.spaceHi
    let js := (publishRights r.op).map fun n => judgeAtts atts g n
    if js.all fun j => j.isSome then
      (s.violate (blkHome hm) r.host r.port g.tenant ((js.headD none).getD 3)).replyCmp hm r stAdmission
    else
      let r := { r with tenant := g.tenant }
      let s := s.ten g.tenant 3 1
      match mirrorHold g r s with
      | some s => s
      | none => s.publishServe g r

/-- The commit of a region's oldest accepted publish, at its commit beat (R113, R114, R115). -/
def State.commitNow (s : State) (c : Commit) : State :=
  match s.rgn? c.region with
  | none => each (c.pages) (fun p s => s.returnFrame p.2)
      { s with pub := { s.pub with commits := s.pub.commits.filter fun x => decide (x ≠ c) } }
  | some g =>
    let s := { s with pub := { s.pub with commits := s.pub.commits.filter fun x => decide (x ≠ c) } }
    let old := c.pages.filterMap fun p =>
      (s.entryDpa g.space (p.1 * 0x10000)).bind fun a =>
        let e := (s.readBytes a.1 16 0).1
        if tst e 0 && tst e 1 && (bits e 4 2 = 0 || bits e 4 2 = 1) then some (p.1, bits e 47 16) else none
    let kept := s.homes.tlb.filter fun t => match t.lock with
      | some l => s.pub.pins.any fun p => p.region == g.id && p.holder == 0x10000 + l.1
      | none => false
    let s := each c.pages (fun p s => s.setLeaf g.space (p.1 * 0x10000) (if g.tier = 0 then 1 else 0) p.2 |>.noteWrite (ptrOf g.space (p.1 * 0x10000))) s
    -- an instance goes on with the frames of the version it pins (R115)
    let s := { s with homes := { s.homes with tlb := s.homes.tlb ++ kept.filter fun t => !s.homes.tlb.contains t } }
    let s := { s with pub := { s.pub with olds := s.pub.olds ++ [(⟨g.id, g.version, old⟩ : OldPages)] } }
    let s := s.setRgnBits g.id 191 128 c.version
    let s := (s.freeOld g.id).pubSync g.id
    let s := s.rspPub c.rsp 0 c.version
    let s := each c.stale (fun r s => s.rspPub r 2 c.version) s
    s.notify g.id c.version

/-- Commit the publishes of a region whose commit beat has come, in the order of their versions: one whose predecessor is still
pending waits for it (DESIGN CHOICE, log entry 19), and so does one that must rewrite a leaf which a fence holds (R149). -/
def State.publishCommit (s : State) (g : Nat) : State :=
  let sp := ((s.rgn? g).map (·.space)).getD 0
  each ((s.pub.commits.filter fun c => c.region == g).takeWhile fun c =>
    c.at_ ≤ s.beat && !(c.pages.any fun p => s.leafHeld sp (p.1 * 0x10000))) (fun c s => s.commitNow c) s

/-- A host's stagings, pins and subscriptions are dropped (R117, R364); an accepted publish still commits. -/
def State.dropPublisher (s : State) (h : Nat) : State :=
  let gs := dedup ((s.pub.stagings.filter fun x => x.host == h).map (·.region) ++
    (s.pub.copies.filter fun c => c.host == h).map (·.region))
  let s := each gs (fun g s => s.dropStaging g h none) s
  let ps := dedup ((s.pub.pins.filter fun p => p.holder == h).map (·.region))
  let s := each ps (fun g s => s.unpin g fun p => p.holder == h) s
  { s with pub := { s.pub with subs := s.pub.subs.filter fun e => e.2 ≠ h } }

/-- Release a host's pins held for PIN_TMO (R116). -/
def State.pinTimeout (s : State) (g h : Nat) : State :=
  s.unpin g fun p => p.holder == h && p.holder < 0x10000 && p.since + s.rd F.homePubCtlPinTmo * 31250 ≤ s.beat

end Sys2Proof.Machine
end

