-- ==== Sys2Proof/Machine/HomeFlow.lean ====
section
/-! DEFINITION. The home slice as a whole: arrival of requests, chains and the pending queue, snoop answers and
evictions, back-invalidation jobs, lease expiry, and page faults (R55, R59 to R65, R69 to R96, R116 to R123). -/

namespace Sys2Proof.Machine

/-! ## Opening, chains and the pending queue (R78, R80, R90, R91) -/

/-- The filter entry that a SnpInvWay names: its slot in the request's TAG, its set in VERSION, its way. -/
def State.wayEntry (s : State) (hm : Nat) (r : HomeReq) : FEnt := s.fGet (fKey hm r.tag r.version r.way)

/-- Open the transaction of a back-invalidation; a line that no entry tracks any more needs none, but for a SnpInvWay, which asks
what the way holds (R85). -/
def State.openBinv (s : State) (hm : Nat) (r : HomeReq) : State :=
  if r.op = 0x201 then
    match s.freeEntry hm r.tenant with
    | none => { s with homes := { s.homes with pendq := s.homes.pendq ++ [(hm, r)] } }
    | some idx => s.openCoherent (newTxn hm idx (s.wayEntry hm r).dpa r s.beat)
  else
  match s.holders hm r.line with
  | [] => s
  | e :: _ =>
    match s.freeEntry hm r.tenant with
    | none => { s with homes := { s.homes with pendq := s.homes.pendq ++ [(hm, r)] } }
    | some idx => s.openCoherent (newTxn hm idx e.2.dpa r s.beat)

/-- Serve a request whose line has no open transaction. -/
def State.openAny (s : State) (hm : Nat) (r : HomeReq) : State :=
  if 0x200 ≤ r.op then s.openBinv hm r else s.openReq (fun g r e lg s => s.stagingWrite g r e lg) hm r

/-- Requests that wait in fault records, in the faults on their way, and in those that wait for a record. -/
def State.faultReqs (s : State) : List HomeReq :=
  (s.homes.recs.flatMap (·.waiters) ++ (s.homes.faults ++ s.homes.faultWait).map (·.waiter)).filterMap fun w => match w with
    | .req r => some r
    | _ => none

/-- Requests of a home that no transaction serves yet: in chains, the pending queue, fault records and held for a channel. -/
def State.unopened (s : State) (hm : Nat) : List HomeReq :=
  ((s.homes.chain ++ s.homes.pendq ++ (s.homes.chanWait.filter fun e => !isPublishOp e.2.op).map fun e =>
      (homeOfPtr e.2.addr, e.2)).filterMap fun e =>
    if e.1 = hm then some e.2 else none) ++ s.faultReqs.filter fun r => homeOfPtr r.addr == hm

/-- Is the request one that a STARVE mark of its home is for (R91)? -/
def State.starving (s : State) (hm : Nat) (r : HomeReq) : Bool :=
  s.homes.starve.any fun m => m.1 == hm && m.2.1 == r.line && m.2.2.1 == r.host && m.2.2.2 == r.tag

/-- Rank of a waiting request: a starving request first, then priority, then arrival by beat and port (R78, R90, R91). -/
def State.rank (s : State) (hm : Nat) (r : HomeReq) : Nat :=
  (if s.starving hm r then 0 else 2 ^ 76) + (if r.prio then 0 else 2 ^ 75) + r.arrive * 1024 + r.port

/-- Does a STARVE mark of the line keep this request back: one that arrived later, or that would be granted ownership without a mark
of its own (R91)? -/
def State.starveBlocks (s : State) (hm : Nat) (r : HomeReq) : Bool :=
  (s.unopened hm).any fun q => q.line == r.line && s.starving hm q &&
    (!s.starving hm r && (r.op == 2 || r.op == 3 || r.op == 6) || q.arrive * 1024 + q.port < r.arrive * 1024 + r.port)

/-- Chain slots in use at a home by the share of a tenant (R80, R475). -/
def State.chainAt (s : State) (hm tenant : Nat) : List (Nat × HomeReq) :=
  s.homes.chain.filter fun c => c.1 == hm && s.strictOf c.2.tenant == s.strictOf tenant

/-- Put a request into a home's pending queue (R80), marked when the queue is at the threshold (R388). -/
def State.toPend (s : State) (hm : Nat) (r : HomeReq) : State :=
  let n := s.pendUsed hm
  let mark := decide (s.rd F.xbarCongThresh * 128 ≤ n) && r.tile.isNone && charged r.op && !r.marked
  let s := if mark then (s.tel (blkHome hm) 0x10 0 1).congMark r.host else s
  { s with homes := { s.homes with pendq := s.homes.pendq ++ [(hm, { r with marked := r.marked || mark })] } }

/-- Does the buddy of a returning home slice open no new transaction for its range (R425)? -/
def State.returning (s : State) (hm : Nat) : Bool := s.rd (F.homeHavlState hm) == 3

/-- Must a request of the line join its chain: a transaction is open, the chain waits, or a STARVE mark keeps it back? -/
def State.lineBusy (s : State) (hm : Nat) (r : HomeReq) : Bool :=
  (s.txnOf hm r.line).isSome || (s.homes.chain.any fun c => c.1 == hm && c.2.line == r.line) || s.starveBlocks hm r

/-- Requests ranking ahead of `r` for which a freed resource of their home and share is kept (R80, R90, R91): those of the pending
queue that could take it, `want` telling whether one waits for it, and every starving request. -/
def State.keptFor (s : State) (hm : Nat) (r : HomeReq) (want : HomeReq → Bool) : Nat :=
  let same (q : HomeReq) : Bool := s.strictOf q.tenant == s.strictOf r.tenant && s.rank hm q < s.rank hm r
  (s.homes.pendq.filter fun e => e.1 == hm && same e.2 && !s.starving hm e.2 && want e.2).length +
    ((s.unopened hm).filter fun q => same q && s.starving hm q).length

/-- Is a transaction entry free for the request, past those kept for requests ahead of it? -/
def State.entryFor (s : State) (hm : Nat) (r : HomeReq) : Bool :=
  s.keptFor hm r (fun q => !s.lineBusy hm q) < s.entriesFree hm r.tenant

/-- Is a chain slot free for the request, past those kept for requests ahead of it? -/
def State.slotFor (s : State) (hm : Nat) (r : HomeReq) : Bool :=
  s.keptFor hm r (fun q => s.lineBusy hm q) + (s.chainAt hm r.tenant).length < s.shareOf 2048 r.tenant

/-- Can a request leave or pass by the pending queue now: no older request of its line waits there, and the entry or the chain slot
that it needs is free for it? -/
def State.canEnter (s : State) (hm : Nat) (r : HomeReq) : Bool :=
  !s.returning hm && (if s.lineBusy hm r then s.slotFor hm r else s.entryFor hm r) &&
    !(s.homes.pendq.any fun e => e.1 == hm && e.2.line == r.line && s.rank hm e.2 < s.rank hm r)

/-- Open a request's transaction or put it into the line's chain (R78). -/
def State.enter (s : State) (hm : Nat) (r : HomeReq) : State :=
  if s.lineBusy hm r then { s with homes := { s.homes with chain := s.homes.chain ++ [(hm, r)] } } else s.openAny hm r

/-- Take a request at its home: open, join the line's chain, or wait (R78, R80, R91, R425). -/
def State.submit (s : State) (hm : Nat) (r : HomeReq) : State :=
  let older := s.homes.pendq.any fun e => e.1 == hm && e.2.line == r.line && s.rank hm e.2 ≤ s.rank hm r
  if s.canEnter hm r && !older then s.enter hm r else s.toPend hm r

/-- Can the home take one more request of a host or tile: directly, or into its pending queue of 2,048 entries (R80)? -/
def State.homeRoom (s : State) (hm : Nat) (r : HomeReq) : Bool :=
  s.canEnter hm r || s.pendOf hm r.tenant < s.shareOf 2048 r.tenant

/-- The chain entry of a home that may open next: its line has no open transaction, no STARVE mark keeps it back and an entry is
free for it; the first by rank (R78, R90, R91). -/
def State.nextChain (s : State) (hm : Nat) : Option (Nat × HomeReq) :=
  minBy? (fun (c : Nat × HomeReq) => s.rank hm c.2)
    (s.homes.chain.filter fun c => c.1 == hm && !s.returning hm && (s.txnOf hm c.2.line).isNone && !s.starveBlocks hm c.2 &&
      s.entryFor hm c.2)

/-- Serve chains until every line with waiting requests has an open transaction. -/
def State.serveChains (s : State) (hm : Nat) : Nat → State
  | 0 => s
  | n + 1 =>
    match s.nextChain hm with
    | none => s
    | some c =>
      let s := { s with homes := { s.homes with chain := s.homes.chain.erase c } }
      (s.openAny hm c.2).serveChains hm n

/-- Is a request still somewhere in its home: waiting, in a fault record, or open? -/
def State.unserved (s : State) (hm h t : Nat) : Bool :=
  ((s.unopened hm).any fun q => q.host == h && q.tag == t) ||
  (s.homes.txns.any fun x => x.home == hm && x.req.host == h && x.req.tag == t)

/-- Has a back-invalidation job lines that are not finished? -/
def State.jobBusy (s : State) (j : Nat) : Bool :=
  (s.homes.chain.any fun c => 0x200 ≤ c.2.op && c.2.job == j) ||
  (s.homes.pendq.any fun c => 0x200 ≤ c.2.op && c.2.job == j) ||
  (s.homes.txns.any fun x => 0x200 ≤ x.req.op && x.req.job == j)

/-- LeaseRsp to a host (Table TRN-3). -/
def State.leaseRsp (s : State) (h tag seq ccx status : Nat) : State :=
  let l := s.leaseOf h
  let body := (match l.slot with | some x => 1 + x * 2 | none => 0) + l.epoch * 2 ^ 9 + l.renew * 2 ^ 64
  s.sendHost h { pkt0 with
    opc := 0x29, len := 3, tag := BitVec.ofNat 15 tag, seq := BitVec.ofNat 32 seq,
    ccx := BitVec.ofNat 4 ccx, status := BitVec.ofNat 8 status, body := BitVec.ofNat 2048 body }

/-- Free a slot: its host goes on without coherent service. -/
def State.freeSlot (s : State) (slot : Nat) : State :=
  let s := match s.slotHost slot with
    | some h => s.setLease h { s.leaseOf h with slot := none }
    | none => s
  { s with hosts := { s.hosts with slots := SMap.erase s.hosts.slots slot } }

/-- A LeaseClose whose slot has been back-invalidated (R364): the slot is freed, the lease ends, LeaseRsp answers. -/
def State.leaseEnd (s : State) (h tag seq ccx : Nat) : State :=
  let s := match (s.leaseOf h).slot with
    | some x => s.freeSlot x
    | none => s
  let s := s.leaseRsp h tag seq ccx 0
  s.setLease h { s.leaseOf h with state := 0 }

/-- The back-invalidation request of one line for a job; `slot` limits it to one slot. -/
def binvReq (ptr job : Nat) (drop : Bool) (slot : Option Nat) : HomeReq :=
  { req0 with op := 0x200, addr := ptr, job := job, drop := drop,
              tag := slot.getD 0, way := if slot.isSome then 8 else 0 }

/-- Is an address in a region that is leaving? -/
def Leaving.covers (l : Leaving) (ptr : Nat) : Bool :=
  ptrSpace ptr == l.space && decide (l.base * 0x10000 ≤ ptrOff ptr) && decide (ptrOff ptr < (l.base + l.len) * 0x10000)

/-- The slot whose lines a revocation or a lease close empties. -/
def State.jobSlot (s : State) (n : Nat) : Option Nat :=
  if 0x1000 ≤ n && n < 0x2000 then some (n - 0x1000)
  else if 0x2000 ≤ n && n < 0x3000 then (s.leaseOf (n - 0x2000)).slot
  else none

/-- Is a line, held in a slot or, with none, by an open transaction of a slot's host, one that a job empties (R38, R68, R85)? -/
def State.jobTakes (s : State) (n : Nat) (slot : Option Nat) (ptr : Nat) : Bool :=
  match s.jobSlot n with
  | some x => slot == some x
  | none => s.homes.leaving.any fun l => l.job == n && l.covers ptr

/-- Lines that transactions still open may leave held against a job. -/
def State.jobOpen (s : State) (n : Nat) : Bool :=
  s.homes.txns.any fun t => (t.req.op == 1 || t.req.op == 2 || t.req.op == 3 || t.inCache) && t.req.tile.isNone &&
    s.jobTakes n (s.leaseOf t.req.host).slot t.line

/-- Lines that became held after a job first took what was held: they are back-invalidated for it too. -/
def State.rescan (s : State) (j : Nat) : State :=
  let n := j % 0x2000000000000
  let es := s.homes.filter.filter fun e => e.2.st ≠ 0 && s.jobTakes n (some (keySlot e.1)) e.2.ptr
  let drop := s.homes.leaving.any fun l => l.job == n && l.drop
  each (dedup (es.map fun e => (keyHome e.1, e.2.ptr))) (fun l s =>
    s.submit l.1 { binvReq l.2 n drop (s.jobSlot n) with arrive := s.beat }) s

/-- Finish the jobs that have no line left: a revocation frees the slot and tells the adapter (R537), a lease close
ends the lease (R364). -/
def State.finishJobs (s : State) : State :=
  let idle := s.homes.jobs.filter fun j => j ≠ jobBinv && !s.jobBusy (j % 0x2000000000000)
  let s := each idle (fun j s => s.rescan j) s
  let ended := idle.filter fun j => !s.jobBusy (j % 0x2000000000000) && !s.jobOpen (j % 0x2000000000000)
  let s := { s with homes := { s.homes with
    jobs := s.homes.jobs.filter (fun j => !ended.contains j),
    leaving := s.homes.leaving.filter fun l => !ended.any fun j => j % 0x2000000000000 == l.job } }
  each ended (fun j s =>
    let n := j % 0x2000000000000
    if 0x1000 ≤ n && n < 0x2000 then
      match s.slotHost (n - 0x1000) with
      | some h => (s.freeSlot (n - 0x1000)).leaseRsp h 0 0 0 0
      | none => s
    else if 0x2000 ≤ n && n < 0x3000 then
      let m := j / 0x2000000000000
      s.leaseEnd (n - 0x2000) (bits m 14 0) (bits m 50 19) (bits m 18 15)
    else s) s

/-- After a change at a home: chains go on, STARVE marks of served requests clear, finished jobs end. -/
def State.settle (s : State) (hm : Nat) : State :=
  let ready := s.mir.readHeld.filter fun e => e.1 == hm && e.2.op == 4 && s.mir.gotLines.contains e.2.line
  let s := each ready (fun e s =>
    ({ s with mir := { s.mir with readHeld := s.mir.readHeld.erase e } }).submit e.1 e.2) s
  let s := s.serveChains hm (s.homes.chain.length + 1)
  let s := { s with homes := { s.homes with
    starve := s.homes.starve.filter fun m => m.1 ≠ hm || s.unserved hm m.2.2.1 m.2.2.2 } }
  s.finishJobs

/-- Let the pending queue of a home offer its first eligible entry by rank to what has freed (R80, R90, R91). -/
def State.pendOffer (s : State) (hm : Nat) : State :=
  match minBy? (fun (e : Nat × HomeReq) => s.rank hm e.2) (s.homes.pendq.filter fun e => e.1 == hm && s.canEnter hm e.2) with
  | some e => (({ s with homes := { s.homes with pendq := s.homes.pendq.erase e } }).enter hm e.2).settle hm
  | none => s

/-! ## Re-issues that meet a waiting grant (Table TRN-7) -/

/-- The error that a new access to the request's line would meet, if any. -/
def State.newAccess (s : State) (hm : Nat) (r : HomeReq) : Option Nat :=
  let sp := ptrSpace r.addr
  match s.rgnAt sp (ptrOff r.addr) with
  | none => some stAdmission
  | some g =>
    if (judgeAtts r.atts g (rightsOf r.op)).isSome then some stAdmission
    else if g.mode ≠ 0 then some stNotCoherent
    else
      match (s.walk hm sp (ptrOff r.addr) true false hm).1 with
      | .violation => some stAdmission
      | .error c => some c
      | .leaf e _ => if leafAllows e r.op then none else some stDenied
      | _ => none

/-- End a transaction that waits for GrantAck with the error that its re-issue meets: as if its GrantAck had arrived, the requester's
filter entry cleared and the record complete. -/
def State.endGrant (s : State) (t : Txn) (r : HomeReq) (c : Nat) : State :=
  let set := setOf (ptrSpace t.line) (ptrOff t.line) % 64
  let s := match (s.leaseOf r.host).slot with
    | some slot => s.fClr (fKey t.home slot set t.req.way)
    | none => s
  (((s.recDone r 2 c 0).replyCmp t.home r c).closeTxn t).settle t.home

/-- Send the grant of a transaction that waits for GrantAck again, or end it with the error of a new access. -/
def State.regrant (s : State) (t : Txn) (r : HomeReq) : State :=
  match s.newAccess t.home r with
  | some c => s.endGrant t r c
  | none =>
    match t.grant with
    | none => s
    | some (opc, withData, loc) =>
      let s := s.reply r { s.replyPkt t.home r opc 2 with data := withData, loc := loc, way := BitVec.ofNat 3 r.way }
      if withData then
        let (rd, s) := s.readLine t.dpa 0 t.home
        s.reply r { s.replyPkt t.home r 0x24 10 with poison := rd.poison, body := rd.data.zeroExtend 2048 }
      else s

/-- The open transaction of which a request is the re-issue. -/
def State.reissueOf (s : State) (hm : Nat) (r : HomeReq) : Option Txn :=
  s.homes.txns.find? fun t => t.home == hm && t.req.tile.isNone && t.req.op == r.op && t.req.host == r.host &&
    t.req.tag == r.tag && t.req.seq == r.seq && t.line == r.line && r.op ≠ 4 && s.idemOn

/-- Refuse a request before it is judged against its record: a re-issue whose grant waits for GrantAck ends its transaction with the
status, any other request is answered as `answer` says. -/
def State.refuseArrival (s : State) (hm : Nat) (r : HomeReq) (c : Nat) (answer : State → State) : State :=
  match s.reissueOf hm r with
  | some t => if t.stage = .ack then (s.tel (blkHome hm) 0x06 4 1).endGrant t r c else answer s
  | none => answer s

/-! ## Arrival of a host's request -/

/-- Tenant counter of a request (Table TEL-4). -/
def tenClass : Nat → Nat
  | 5 => 1 | 6 => 2 | _ => 0

/-- Is a mirrored request of a home waiting in a fault, which holds later stamps of the home (R173)? -/
def State.mirBlocked (s : State) (hm : Nat) : Bool :=
  s.faultReqs.any fun r => homeOfPtr r.addr == hm && r.tile.isNone &&
    ((s.rgnAt (ptrSpace r.addr) (ptrOff r.addr)).map fun g => mirrored g r || r.op == 0x301).getD false

/-- Perform a mirrored request at its home (R121). -/
def State.performHeld (s : State) (hm : Nat) (r : HomeReq) : State :=
  if isPublishOp r.op then s.publishArrive (fun _ _ _ => none) r else (s.submit hm r).settle hm

/-- The held request that a stamp orders. -/
def State.heldFor (s : State) (m : Stamp) : Option (Nat × HomeReq) :=
  s.mir.held.find? fun e => e.1 == m.home && e.2.host == m.host && e.2.tag == m.tag && e.2.seq == m.seq

/-- Perform the next stamped request of a home whose request has arrived, in stamp order, as long as there is one. -/
def State.performStamped (s : State) (hm : Nat) : Nat → State
  | 0 => s
  | n + 1 =>
    let next := (SMap.get 0 s.mir.perf hm + 1) % 2 ^ 48
    match s.mir.got.find? fun m => m.home == hm && m.mseq == next with
    | none => s
    | some m =>
      match s.heldFor m with
      | none => s
      | some e =>
        if s.mirBlocked hm then s
        else
          let s := { s with mir := { s.mir with
            got := s.mir.got.erase m, held := s.mir.held.erase e, perf := SMap.set 0 s.mir.perf hm next } }
          (s.performHeld hm e.2).performStamped hm n

/-- Perform what stamps allow at every home. -/
def State.performAll (s : State) : State :=
  if s.mir.got.isEmpty then s else each (List.range 64) (fun hm s => s.performStamped hm (s.mir.held.length + 1)) s

/-- Are holding entries of a home's die free (R121)? -/
def State.holdRoom (s : State) (hm : Nat) : Bool :=
  (s.mir.held.filter fun e => e.1 / 32 == hm / 32).length + (s.mir.got.filter fun m => m.home / 32 == hm / 32).length < 4096

/-- A mirrored request at a chip that does not order it: out of step it is dropped, otherwise held for its stamp, which may have
come first (R121);
at the orderer it is held while the ordering role is handed over (R432).  On the returning chip of a resynchronisation
a read or a pin waits for the line's copy, which it asks the survivor for (R431). -/
def State.mirrorHold (g : Rgn) (r : HomeReq) (s : State) : Option State :=
  let hm := if isPublishOp r.op then pubHome r.job else homeOfPtr r.addr
  if mirrored g r && (!s.orderer || s.mir.handoff) then
    if s.mir.outOfStep then some s
    else
      let s := { s with mir := { s.mir with held := s.mir.held ++ [(hm, r)] } }
      some (s.performStamped hm (s.mir.held.length + 1))
  else if g.mirror && s.mir.outOfStep && !s.mir.returning && r.host ≠ 0xFFF then some s
  else if g.mirror && s.mir.returning && (r.op = 4 || r.op = 0x32) && !s.mir.gotLines.contains r.line then
    let s := { s with mir := { s.mir with readHeld := s.mir.readHeld ++ [(hm, r)] } }
    some (if r.op = 4 then
      s.sendPort s.partnerPort { pkt0 with opc := 4, len := 2, host := 0xFFF, addr := BitVec.ofNat 64 r.line }
    else s)
  else none

/-- A request of a host arrives at its home: region and admission, coherent service, version, re-issue, mirror, and
then its line (R43, R55, R59, R69, R116, R121, R304, R499). -/
def State.arriveHost (s : State) (r : HomeReq) : State :=
  let hm := homeOfPtr r.addr
  match s.rgnAt (ptrSpace r.addr) (ptrOff r.addr) with
  | none =>
    if s.goneAt (ptrSpace r.addr) (ptrOff r.addr) then s.refuseArrival hm r stGone fun s => s.failReq hm r stGone
    else (s.violate (blkHome hm) r.host r.port r.tenant 3).refuseArrival hm r stAdmission fun s => s.replyCmp hm r stAdmission
  | some g =>
    let need := if r.op = 4 && s.isTpage g.id then 33 else rightsOf r.op
    match judgeAtts r.atts g need with
    | some c =>
      (s.violate (blkHome hm) r.host r.port g.tenant c).refuseArrival hm r stAdmission fun s => s.replyCmp hm r stAdmission
    | none =>
      let r := { r with tenant := g.tenant }
      let s := s.ten g.tenant (tenClass r.op) 1
      if (r.op = 1 || r.op = 2 || r.op = 3) && ((s.cohSlot r.host).isNone || g.mode ≠ 0) then
        s.refuseArrival hm r stNotCoherent fun s => s.failReq hm r stNotCoherent
      else if r.op = 6 && !atomOk r.aop r.size r.addr then s.failReq hm r stBadAtomic
      else if r.vsel && g.mode ≠ 2 then s.replyCmp hm r stProtocol
      else if r.vsel && !(s.pub.pins.any fun p => p.region == g.id && p.version == r.version && p.holder == r.host) then
        s.replyCmp hm r stVersionGone
      else
        match s.reissueOf hm r with
        | some t =>
          if t.stage = .ack then (s.tel (blkHome hm) 0x06 4 1).regrant t r else s.tel (blkHome hm) 0x06 5 1
        | none =>
          match State.mirrorHold g r s with
          | some s => s
          | none => (s.submit hm r).settle hm

/-- Is there a holding entry for a request, where it needs one at a chip that does not order it? -/
def State.mirRoom (s : State) (hm : Nat) (r : HomeReq) : Bool :=
  s.orderer || s.holdRoom hm || !(match s.rgnAt (ptrSpace r.addr) (ptrOff r.addr) with | some g => mirrored g r | none => false)

/-- A host's request row: the packet with what ingress attached to it.  A packet that finds its home's pending queue full waits
where it is (R80). -/
def State.hostRequest (s : State) (p : Pkt) (op : Nat) : State :=
  let p := { p with opc := BitVec.ofNat 6 op }
  let (e, s') := s.takeRouted p
  let r := s'.homeReqOf p e
  if s'.homeRoom (homeOfPtr r.addr) r && s'.mirRoom (homeOfPtr r.addr) r then s'.arriveHost r else s

/-- A publish message row. -/
def State.publishRequest (s : State) (p : Pkt) (op : Nat) : State :=
  let p := { p with opc := BitVec.ofNat 6 op }
  let (e, s) := s.takeRouted p
  s.publishArrive State.mirrorHold (s.homeReqOf p e)

/-! ## Snoop answers and evictions (R74, R76, R77, R93, R94) -/

/-- What a snoop answer says. -/
inductive Answer where
  | inv | invWb | shr | shrWb | fwd | evicting
  deriving DecidableEq, Repr

/-- Where the dirty data of a snoop answer go: the transaction's line, or, for a SnpInvWay whose entry names none, the line that the
answer carries. -/
def State.answerPlace (s : State) (p : Pkt) (t : Txn) (n : Snoop) (known : Bool) : Option (Nat × Nat) :=
  if n.opc = 0x13 && !known then
    let a := p.addr.toNat / 128 * 128
    match (s.walk t.home (ptrSpace a) (ptrOff a) false false t.home).1 with
    | .leaf e lg => some (leafDpa e lg (ptrOff a), a)
    | _ => none
  else some (t.dpa, t.line)

/-- A snoop answer of a holder arrives (R76, R77, R93). -/
def State.snoopAnswer (s : State) (p : Pkt) (a : Answer) : State :=
  let hm := p.snpid.toNat / 1024
  let h := p.host.toNat
  match s.homes.txns.find? fun t => t.home == hm && t.idx == p.snpid.toNat % 1024 && t.snoops.any fun n => n.host == h with
  | none => s.tel (blkHome hm) 0x11 0 1
  | some t =>
    match t.snoops.find? fun n => n.host == h with
    | none => s
    | some n =>
      let e := (s.holders hm t.line).find? fun e => keySlot e.1 == n.slot
      let t := { t with snoops := t.snoops.erase n }
      let s := if t.req.tile.isNone && t.req.op < 0x100 then s.stage t.req.host t.req.tag 5 else s
      match a with
      | .evicting =>
        let t := if e.isSome then { t with absent := t.absent ++ [n.slot] } else t
        (s.advance t).settle hm
      | _ =>
        let wrong := if e.isNone then n.opc ≠ 0x13 else a == Answer.inv && (n.opc == 0x11 || n.opc == 0x12)
        let s := if wrong then (s.tel (blkHome hm) 0x04 0 1).raise (blkHome hm) 9 none else s
        let s := match e with
          | some (k, f) =>
            let s := match f.localAt with
              | some b => if n.sent ≤ b + 64 then s.predMove hm t.dpa true else s
              | none => s
            if a == Answer.inv || a == Answer.invWb then s.fClr k else s.fSet k { f with st := 1, localAt := none }
          | none => s
        let dirty := a == Answer.invWb || a == Answer.shrWb
        let lost := t.ownerSnooped && !dirty && !t.gotDirty && a ≠ Answer.fwd && (match e with | some (_, f) => f.st == 3 | none => false)
        let s := if lost && !t.req.drop then s.poisonLine t.dpa hm else s
        let t := if lost || dirty then { t with ownerSnooped := false } else t
        let s := if dirty && !t.req.drop then match s.answerPlace p t n e.isSome with
            | some (dpa, line) => (s.sinkDirty dpa line (p.body.extractLsb' 0 1024) p.poison).noteWrite line
            | none => s
          else s
        let t := { t with gotDirty := t.gotDirty || dirty, fwd := t.fwd || a == Answer.fwd }
        (s.advance t).settle hm

/-- Go on with every transaction of a home that waited for an eviction. -/
def State.retryTxns (s : State) (hm : Nat) : State :=
  each (s.homes.txns.filter fun t => t.home == hm && t.stage == .snoop) (fun t s => s.advance t) s

/-- What an eviction's line lies in (R69): an active region or one whose lines are still being back-invalidated, whose data are kept
or dropped; or neither. -/
inductive EvictPlace where
  | kept | dropped | outside
  deriving DecidableEq, Repr

/-- Sink an eviction: data to the line cache where its region keeps them, the named way's entry cleared, Cmp; then every
transaction that waited for it goes on (R69, R77, R93). -/
def State.sink (s : State) (hm : Nat) (r : HomeReq) (k : Nat) (e : FEnt) (dirty : Bool) (pl : EvictPlace) (t : Option Txn) : State :=
  let held := e.st ≠ 0 && e.ptr == r.line
  let keep := dirty && held && pl == .kept && !((t.map fun t => t.req.drop).getD false)
  let s := if keep then (s.sinkDirty e.dpa r.line r.data r.poison).noteWrite r.line else s
  let s := if held || (pl == .outside && e.st ≠ 0) then s.fClr k else s
  let s := if pl == .outside then s.raise (blkHome hm) 9 none
    else if !held then (s.tel (blkHome hm) 0x04 0 1).raise (blkHome hm) 9 none
    else s
  let s := s.failReq hm r stOk
  let s := match t with
    | some t =>
      if t.absent.contains (keySlot k) then
        s.advance { t with absent := t.absent.erase (keySlot k), gotDirty := t.gotDirty || keep }
      else s
    | none => s
  (s.retryTxns hm).settle hm

/-- An eviction arrives: WbM with data, or EvictClean (R69, R74, R77, R93, R94, R356).  One whose tag record a fence holds waits
where it is (R149). -/
def State.eviction (s : State) (p : Pkt) (dirty : Bool) : State :=
  let p := { p with opc := if dirty then 8 else 9 }
  let s0 := s
  let (e, s) := s.takeRouted p
  let r := { s.homeReqOf p e with data := p.body.extractLsb' 0 1024 }
  let hm := homeOfPtr r.addr
  if !s.leased r.host then s
  else
    match s.recJudge hm r.host r.tag r.seq r.op r.addr r.epoch false with
    | (.held _, _) => s0
    | (.cmp c, s) => s.replyCmp hm r c
    | (.drop, s) => s
    | (.regrant, s) => s
    | (.again st res, s) => s.replyAgain hm r st res
    | (.fresh, s) =>
      match (s.leaseOf r.host).slot with
      | none => s.failReq hm r stNotCoherent
      | some slot =>
        let g := s.rgnAt (ptrSpace r.addr) (ptrOff r.addr)
        let k := fKey hm slot (setOf (ptrSpace r.line) (ptrOff r.line) % 64) r.way
        let e := s.fGet k
        let t := s.txnOf hm r.line
        match g, s.homes.leaving.find? fun l => l.covers r.line with
        | some g, _ =>
          if g.mode ≠ 0 then s.failReq hm r stNotCoherent
          else s.sink hm r k e dirty .kept t
        | none, some l => s.sink hm r k e dirty (if l.drop then .dropped else .kept) t
        | none, none => s.sink hm r k e dirty .outside t

/-- GrantAck closes the transaction it acknowledges (R79, R356). -/
def State.grantAck (s : State) (p : Pkt) : State :=
  let hm := homeOfPtr p.addr.toNat
  match s.homes.txns.find? fun t => t.home == hm && t.line == p.addr.toNat / 128 * 128 && t.stage == .ack &&
      t.req.host == p.host.toNat && t.req.tag == p.tag.toNat with
  | none => s
  | some t =>
    let s := s.recDone t.req 2 0 0
    let s := if t.req.op = 6 && !s.hosts.recGrant.contains (t.req.host, t.req.tag) then
        { s with hosts := { s.hosts with recGrant := s.hosts.recGrant ++ [(t.req.host, t.req.tag)] } } else s
    (s.closeTxn t).settle hm

/-- FwdData passes to the reader's response port (R77, R359). -/
def State.fwdData (s : State) (p : Pkt) : State := s.sendHost p.host.toNat { p with opc := 0x1E }

/-! ## Back-invalidation (R85, R86, R537) -/

/-- Start a job that back-invalidates every held line that satisfies `p` (by filter key and entry). -/
def State.binvJob (s : State) (job : Nat) (drop : Bool) (slot : Option Nat) (p : Nat × FEnt → Bool) : State :=
  let es := s.homes.filter.filter fun e => e.2.st ≠ 0 && p e
  let lines := dedup (es.map fun e => (keyHome e.1, e.2.ptr))
  let s := { s with homes := { s.homes with jobs := s.homes.jobs ++ [job] } }
  let s := each lines (fun l s =>
    s.submit l.1 { binvReq l.2 (job % 0x2000000000000) drop slot with arrive := s.beat }) s
  s.finishJobs

/-- Is an entry's line in a range of 64 KiB units of a space? -/
def inRange (sp base count : Nat) (e : Nat × FEnt) : Bool :=
  ptrSpace e.2.ptr == sp && base * 0x10000 ≤ ptrOff e.2.ptr && ptrOff e.2.ptr < (base + count) * 0x10000

/-! ## Lease expiry at the homes (R95, R96) -/

/-- One transaction when a host's lease has expired: its missing answers are taken as given. -/
def State.expireTxn (s : State) (slot : Option Nat) (h : Nat) (t : Txn) : State :=
  let waits := (t.snoops.filter fun n => n.host == h).map (·.slot) ++
    (match slot with | some x => t.absent.filter fun a => a == x | none => [])
  let s := each waits (fun sl s =>
    match (s.holders t.home t.line).find? fun e => keySlot e.1 == sl with
    | some (k, f) =>
      let s := if f.st = 3 then
          let (rd, s) := s.readLine t.dpa 0 t.home
          if t.req.drop then s else s.sinkDirty t.dpa t.line rd.data true
        else s
      s.fClr k
    | none => s) s
  let t := { t with snoops := t.snoops.filter (fun n => n.host ≠ h),
                    absent := match slot with | some x => t.absent.filter (· ≠ x) | none => t.absent }
  if t.stage = .ack && t.req.host = h && t.req.tile.isNone then (s.recDone t.req 2 0 0).closeTxn t
  else if t.stage = .snoop then s.advance t else s.putTxn t

/-- A host's lease expires: what the homes do (R95, R96). -/
def State.homesExpire (s : State) (h : Nat) : State :=
  let l := s.leaseOf h
  let s := s.setLease h { l with state := 2 }
  let mine (r : HomeReq) : Bool := r.host == h && r.tile.isNone && r.op < 0x200
  let s := { s with
    hosts := { s.hosts with
      routed := s.hosts.routed.filter (fun e => e.pkt.host.toNat ≠ h),
      inHold := s.hosts.inHold.filter fun e => e.1.pkt.host.toNat ≠ h },
    homes := { s.homes with
      chain := s.homes.chain.filter (fun c => !mine c.2), pendq := s.homes.pendq.filter (fun c => !mine c.2),
      chanWait := s.homes.chanWait.filter (fun c => !mine c.2),
      faults := s.homes.faults.filter (fun f => match f.waiter with | .req r => !mine r | _ => true),
      faultWait := s.homes.faultWait.filter (fun f => match f.waiter with | .req r => !mine r | _ => true),
      recs := s.homes.recs.map fun (f : FaultRec) => { f with
        waiters := f.waiters.filter fun w => match w with | .req r => !mine r | _ => true } },
    mir := { s.mir with held := s.mir.held.filter (fun c => !mine c.2), readHeld := s.mir.readHeld.filter fun c => !mine c.2 } }
  let s := each (s.homes.txns.filter fun t => (t.req.host == h && t.req.tile.isNone) || (t.snoops.any fun n => n.host == h) ||
      (match l.slot with | some x => t.absent.contains x | none => false)) (fun t s => s.expireTxn l.slot h t) s
  let s := match l.slot with
    | none => s
    | some x =>
      let s := each (s.homes.filter.filter fun (e : Nat × FEnt) => e.2.st ≠ 0 && keySlot e.1 == x) (fun (e : Nat × FEnt) (s : State) =>
        let s := if e.2.st = 3 then s.poisonLine e.2.dpa (keyHome e.1) else s
        s.fClr e.1) s
      s.freeSlot x
  let s := each (List.range 64) (fun hm s => (s.retryTxns hm).settle hm) s
  s.dropPublisher h

/-! ## Page faults (R62 to R65) -/

/-- Waiter slots in use at a fault home. -/
def State.waitersAt (s : State) (hm : Nat) : Nat :=
  ((s.homes.recs.filter fun f => f.home == hm && f.state == 1).map fun f => f.waiters.length).foldl (· + ·) 0

/-- A fault at its fault home: join, open the lowest free record (DESIGN CHOICE, log entry 14), or stay pending (R63, R64). -/
def State.faultArrive (s : State) (f : PageFault) : State :=
  let rs := s.homes.recs.filter fun x => x.home == f.home && x.state == 1
  if 4096 ≤ s.waitersAt f.home then { s with homes := { s.homes with faultWait := s.homes.faultWait ++ [f] } }
  else
    match rs.find? fun x => x.space == f.space && x.page == f.page && x.size == f.size && x.cause == f.cause with
    | some x => { s with homes := { s.homes with recs := s.homes.recs.map fun y =>
        if y = x then { y with waiters := y.waiters ++ [f.waiter] } else y } }
    | none =>
      match findLow 256 fun i => !(rs.any fun x => x.idx == i) with
      | none => { s with homes := { s.homes with faultWait := s.homes.faultWait ++ [f] } }
      | some i =>
        { s with homes := { s.homes with
          recs := (s.homes.recs.filter fun x => !(x.home == f.home && x.idx == i)) ++
            [(⟨f.home, i, f.space, f.page, f.size, f.cause, s.beat, f.region, 1, [f.waiter], false⟩ : FaultRec)] } }

/-- A waiter walks again after its record has closed as filled (R65). -/
def State.rewalk (s : State) (w : Waiter) : State :=
  match w with
  | .req r => (s.submit (homeOfPtr r.addr) { r with rewalk := true }).settle (homeOfPtr r.addr)
  | .stream inst tile stream ptr =>
    let hm := homeOfPtr ptr
    let (x, s) := s.translate (64 + tile) (ptrSpace ptr) (ptrOff ptr) false false hm
    match x with
    | .leaf e lg => s.tlbPut (64 + tile) (ptrSpace ptr) (ptrOff ptr) (s.pinLeaf inst (ptrSpace ptr) (ptrOff ptr) e) lg (some (inst, stream))
    | .fault c z => s.forwardFault (ptrSpace ptr) (ptrOff ptr) c z hm (.stream inst tile stream ptr)
    | .error c => s.stopInst inst (opStatus c)
    | .violation => s.stopInst inst 0x0F
    -- the next gate bar asks for the page again
    | .peer _ _ _ => s
    | .held _ => s
  | .inst _ => s

/-- Close a record with a state, releasing or failing its waiters (R65); stamps that a waiting mirrored request held back go on
(R173). -/
def State.closeRec (s : State) (x : FaultRec) (state status : Nat) : State :=
  let s := { s with homes := { s.homes with recs := s.homes.recs.map fun y =>
    if y = x then { y with state := state, waiters := [] } else y } }
  (each x.waiters (fun w s =>
    if state = 2 then s.rewalk w
    else match w with
      | .req r => s.failReq (homeOfPtr r.addr) r status
      | .stream i _ _ _ => s.stopInst i (opStatus status)
      | .inst i => s.stopInst i (opStatus status)) s).performAll

/-- A fault record of a home. -/
def State.recOf (s : State) (hm i : Nat) : Option FaultRec :=
  s.homes.recs.find? fun x => x.home == hm && x.idx == i && x.state == 1

/-- Close every record of a region with REGION_GONE, and fail the faults still on their way. -/
def State.faultsGone (s : State) (g : Nat) : State :=
  let s := each (s.homes.recs.filter fun x => x.state == 1 && x.region == g) (fun x s => s.closeRec x 4 stGone) s
  let gone := (s.homes.faults ++ s.homes.faultWait).filter fun f => f.region == g
  let s := { s with homes := { s.homes with
    faults := s.homes.faults.filter (fun f => f.region ≠ g),
    faultWait := s.homes.faultWait.filter (fun f => f.region ≠ g) } }
  each gone (fun f s => match f.waiter with
    | .req r => s.failReq (homeOfPtr r.addr) r stGone
    | .stream i _ _ _ => s.stopInst i (opStatus stGone)
    | .inst i => s.stopInst i (opStatus stGone)) s

end Sys2Proof.Machine
end

