-- ==== Sys2Proof/Machine/Tile.lean ====
section
/-! DEFINITION. Tiles as cores and routers share them: core registers, scratchpad, landing buffers, mesh plans, pattern
flits on their way, and the tile clock (R176 to R195, R222 to R231). -/

namespace Sys2Proof.Machine

/-- A core by 128 × tile + core, and a change of it. -/
def State.core (s : State) (k : Nat) : CoreSt := SMap.get CoreSt.reset s.tiles.cores k
def State.setCore (s : State) (k : Nat) (f : CoreSt → CoreSt) : State :=
  s.setTiles fun t => { t with cores := SMap.set CoreSt.reset t.cores k (f (s.core k)) }

/-- Scalar register; s0 reads as zero and discards writes (R179). -/
def CoreSt.sreg (c : CoreSt) (r : Nat) : SReg := if r = 0 then ⟨0, false⟩ else SMap.get ⟨0, false⟩ c.sregs r
def CoreSt.setSreg (c : CoreSt) (r : Nat) (v : Word) (p : Bool) : CoreSt :=
  if r = 0 then c else { c with sregs := SMap.set ⟨0, false⟩ c.sregs r ⟨v, p⟩ }

/-- Vector register. -/
def CoreSt.vreg (c : CoreSt) (r : Nat) : VReg := SMap.get ⟨0, 0⟩ c.vregs r
def CoreSt.setVreg (c : CoreSt) (r : Nat) (v : VReg) : CoreSt := { c with vregs := SMap.set ⟨0, 0⟩ c.vregs r v }

/-- Lane of an exact accumulator. -/
def CoreSt.acc (c : CoreSt) (a lane : Nat) : AccLane := SMap.get acc0 c.accs (8 * a + lane)
def CoreSt.setAcc (c : CoreSt) (a lane : Nat) (v : AccLane) : CoreSt :=
  { c with accs := SMap.set acc0 c.accs (8 * a + lane) v }

/-- Set sticky flags of a core and of its tile (R256, R268). -/
def State.flag (s : State) (k f : Nat) : State :=
  if f = 0 then s
  else
    let a := F.tileAriFlagsIv (k / 128)
    (s.setCore k fun c => { c with flags := c.flags ||| f }).setReg a.csa (s.reg a.csa ||| f)

/-! ## Scratchpad (R184 to R186, R394) -/

/-- A scratchpad byte; one that nothing has written reads zero (DESIGN CHOICE, log entry 50). -/
def State.spadByte (s : State) (tile a : Nat) : Byte := SMap.get 0#8 s.tiles.spad (tile * 2 ^ 20 + a % 2 ^ 20)

/-- Upset bits of the 64-bit word of an address, which eight check bits protect (R186). -/
def State.spadFlips (s : State) (tile a : Nat) : Nat := SMap.get 0 s.tiles.flips (tile * 2 ^ 17 + a % 2 ^ 20 / 8)

/-- Does the 64-bit word of an address read poisoned: written so, or uncorrectable (R186)? -/
def State.spadPois (s : State) (tile a : Nat) : Bool :=
  SMap.get false s.tiles.spois (tile * 2 ^ 17 + a % 2 ^ 20 / 8) || 2 ≤ s.spadFlips tile a

/-- An error that counts toward Table TIL-6: 0 a corrected word and 1 an uncorrectable word of a bank, 2 an uncorrectable quarter on
a port.  Two uncorrectable words or 16 corrected ones in a bank, or two quarters on a port, within 1 ms (31,250 beats) meet a
criterion. -/
def State.tileErr (s : State) (tile kind unit : Nat) : State :=
  let es := (s.tiles.errs ++ [(tile, kind, unit, s.beat)]).filter fun e => s.beat < e.2.2.2 + 31250
  let n := (es.filter fun e => e.1 == tile && e.2.1 == kind && e.2.2.1 == unit).length
  let f := (tile, if kind = 2 then 4 else 2)
  s.setTiles fun x => { x with
    errs := es,
    faulty := if (if kind = 0 then 16 else 2) ≤ n && !x.faulty.contains f then x.faulty ++ [f] else x.faulty }

/-- The words of a read are checked: corrected and uncorrectable ones are counted (R186). -/
def State.spadCheck (s : State) (tile a n : Nat) : State :=
  each (dedup ((List.range n).map fun i => (a + i) % 2 ^ 20 / 8)) (fun w s =>
    match s.spadFlips tile (8 * w) with
    | 0 => s
    | 1 => (s.tel tile 0x04 (bits (8 * w) 8 7) 1).tileErr tile 0 (bits (8 * w) 8 7)
    | _ => (s.tel tile 0x05 (bits (8 * w) 8 7) 1).tileErr tile 1 (bits (8 * w) 8 7)) s

/-- `n` bytes from an address on, addresses taken modulo 2^20. -/
def State.spadRead (s : State) (tile a n : Nat) : List Byte := (List.range n).map fun i => s.spadByte tile (a + i)

/-- Is any of `n` bytes from an address on in a poisoned word? -/
def State.spadBad (s : State) (tile a n : Nat) : Bool := (List.range n).any fun i => s.spadPois tile (a + i)

/-- Write bytes with their poison: a word takes the poison of any byte written into it, and keeps its own unless every
byte of it is written; a word written whole has valid check bits. -/
def State.spadWrite (s : State) (tile a : Nat) (bs : List (Byte × Bool)) : State :=
  let at_ (i : Nat) : Nat := (a + i) % 2 ^ 20
  let ws := dedup ((List.range bs.length).map fun i => at_ i / 8)
  let spad := (List.range bs.length).foldl (fun m i =>
    SMap.set 0#8 m (tile * 2 ^ 20 + at_ i) (bs.getD i (0#8, false)).1) s.tiles.spad
  let spois := ws.foldl (fun m w =>
    let mine := findAll bs.length fun i => at_ i / 8 == w
    let bad := mine.any fun i => (bs.getD i (0#8, false)).2
    SMap.set false m (tile * 2 ^ 17 + w) (bad || (mine.length < 8 && SMap.get false m (tile * 2 ^ 17 + w)))) s.tiles.spois
  let flips := ws.foldl (fun m w =>
    if ((List.range bs.length).filter fun i => at_ i / 8 == w).length < 8 then m else SMap.set 0 m (tile * 2 ^ 17 + w) 0) s.tiles.flips
  s.setTiles fun t => { t with spad := spad, spois := spois, flips := flips }

/-- The 64 bytes of a flit with the poison of its two halves. -/
def flitBytes (f : Flit) (p : BitVec 2) : List (Byte × Bool) :=
  (List.range 64).map fun i => (f.extractLsb' (8 * i) 8, p.getLsbD (i / 32))

/-- A flit read from scratchpad, and its poison bits. -/
def State.spadFlit (s : State) (tile a : Nat) : Flit × BitVec 2 :=
  (BitVec.ofNat 512 (leNat (s.spadRead tile a 64)),
   BitVec.ofNat 2 ((if s.spadBad tile a 32 then 1 else 0) + (if s.spadBad tile (a + 32) 32 then 2 else 0)))

/-! ## Sites and instances (R207, R208, R242) -/

/-- The tile that serves a site. -/
def State.server (s : State) (site : Nat) : Option Nat :=
  findLow 672 fun t => s.tileState t = 0 && s.rd (F.tileStateSite t) = site

/-- Site that an ACTIVE tile serves. -/
def State.siteOf (s : State) (t : Nat) : Option Nat := if s.tileState t = 0 then some (s.rd (F.tileStateSite t)) else none

/-- A placement by number. -/
def State.place? (s : State) (n : Nat) : Option Placement := s.disp.places.find? fun p => p.num == n

/-- The placement to which a core of a tile belongs. -/
def State.placeAt (s : State) (tile core : Nat) : Option Placement :=
  match s.siteOf tile with
  | some site => s.disp.places.find? fun p => p.sites.any fun e => e.1 == site && e.2.contains core
  | none => none

/-- The running instance of a placement. -/
def State.instOn (s : State) (p : Nat) : Option Inst := s.disp.insts.find? fun i => i.state == 1 && i.place == some p

/-- The running instance whose code a core runs. -/
def State.instAt (s : State) (tile core : Nat) : Option Inst := (s.placeAt tile core).bind fun p => s.instOn p.num

/-- A phase of a placement, the end of the image beyond its list. -/
def Placement.phase (p : Placement) (n : Nat) : Phase := p.phases.getD n ⟨2, 0, 0, 0, 0, 0, 0⟩

/-- Does the core run the body of a pattern phase? -/
def State.inPattern (s : State) (tile core : Nat) : Bool :=
  match s.placeAt tile core with
  | none => false
  | some p => match s.instOn p.num with
    | none => false
    | some i => i.bodyAt.isSome && (p.phase i.phase).kind == 0

/-- A pattern slot fault of a tile: counted, an event of class 9 (R185, R191). -/
def State.slotFault (s : State) (tile : Nat) : State := (s.tel tile 0x06 0 1).raise tile 9 none

/-! ## Home port plans (R230) -/

/-- Home port plan entry at a home cycle of the home bar (R230). -/
def State.homeEntry (s : State) (active : Bool) (k cyc : Nat) : Nat :=
  let a := blkHome k * 0x100000 + (if active then 0x8000 else 0x4000) + 2 * cyc / 8 * 8
  bits (s.reg a) (16 * (cyc % 4) + 15) (16 * (cyc % 4))
def State.setHomeEntry (s : State) (active : Bool) (k cyc v : Nat) : State :=
  let a := blkHome k * 0x100000 + (if active then 0x8000 else 0x4000) + 2 * cyc / 8 * 8
  s.setReg a (setBits (s.reg a) (16 * (cyc % 4) + 15) (16 * (cyc % 4)) v)

/-- Are a placement's mesh and home-port slots in force: the active plans as DISP has written them? -/
def State.slotsServe (s : State) (p : Placement) : Bool :=
  (p.mesh.all fun e => s.meshEntry true e.tile e.port e.cyc == s.meshEntry false e.tile e.port e.cyc) &&
    p.home.all fun e => s.homeEntry true 0 e.2 == s.homeEntry false 0 e.2

/-- Beats of a mesh bar at the present step, rounded up: 1,024 tile cycles at 4.0, 3.6, 3.2 or 2.4 GHz. -/
def State.barBeats (s : State) : Nat := [8, 9, 10, 14].getD (s.rd F.pwrFstepCtlCur) 8

/-- The placement that holds a slot group. -/
def State.groupPlace (s : State) (g : Nat) : Option Placement :=
  s.disp.places.find? fun p => p.groups.any fun e => e.2 == g

/-! ## Landing buffers (R189 to R191) -/

/-- A flit whose release has passed, or whose entry is taken, is counted, a slot fault (R191); its release delivers a poisoned one. -/
def State.lateFlit (s : State) (tile : Nat) : State := ((s.inc (F.tileLbLate tile)).tel tile 0x07 0 1).slotFault tile

/-- Release cycles that the landing schedule gives an entry of a tile while its instance's phase runs. -/
def State.releases (s : State) (tile entry : Nat) : List Nat :=
  s.disp.places.flatMap fun p => match (s.instOn p.num).bind (·.bodyAt) with
    | some b => (p.landing.filter fun l => l.1 == tile && l.2.1 == entry).map fun l => ((b + l.2.2.1) * 1024 + l.2.2.2).toNat
    | none => []

/-- The release of a flit whose ownership of an entry begins in a cycle: the schedule's next release of the entry. -/
def State.ownRelease (s : State) (tile entry from_ : Nat) : Option Nat :=
  minBy? id ((s.releases tile entry).filter fun r => from_ ≤ r)

/-- A release waits for its flit. -/
def State.owe (s : State) (tile entry : Nat) (r : Option Nat) : State :=
  match r with
  | some r => s.setTiles fun t => { t with owed := t.owed ++ [(tile, entry, r)] }
  | none => s

/-- A pattern flit is written into a landing entry at a cycle and held until its own release; one that comes after it, or finds the
entry taken, is late (R189, R191). -/
def State.land (s : State) (tile entry at_ : Nat) (rel : Option Nat) (f : Flit) (p : BitVec 2) : State :=
  match rel with
  | none => s.lateFlit tile
  | some r =>
    if r < at_ || s.tiles.landing.any fun e => e.1 == tile * 256 + entry then s.lateFlit tile
    else s.setTiles fun t => { t with
      landing := SMap.insert t.landing (tile * 256 + entry) ⟨f, p, some r⟩, owed := t.owed.erase (tile, entry, r) }

/-- Crossing offset X at a frequency step (Table PAT-2): a crossing flit is in its landing entry X cycles after it left the router. -/
def crossX (step : Nat) : Nat := [32, 31, 29, 26].getD step 32

/-- A flit leaves a router's output over an island boundary, the die bridges among them (R12, R226). -/
def State.cross (s : State) (tile entry c : Nat) (f : Flit) (p : BitVec 2) : State :=
  let r := s.ownRelease tile entry c
  (s.owe tile entry r).setTiles fun t => { t with crosses := t.crosses ++ [⟨tile, entry, r, c + crossX (s.rd F.pwrFstepCtlCur), f, p⟩] }

/-! ## Slots (R227 to R231) -/

/-- Fields of a slot entry (Table PAT-3). -/
def slotKind (f : Flit) : Nat := bits f.toNat 1 0
def slotTgt (f : Flit) : Nat := bit f.toNat 2
def slotUnit (f : Flit) : Nat := bits f.toNat 8 3
def slotSub (f : Flit) : Nat := bit f.toNat 9
def slotSet (f : Flit) : Nat := bits f.toNat 12 10
def slotGroup (f : Flit) : Nat := bits f.toNat 20 13
def slotDpa (f : Flit) : Nat := bits f.toNat 57 21 * 128
def slotRrow (f : Flit) : Nat := bits f.toNat 62 58
def slotRlb (f : Flit) : Nat := bits f.toNat 70 63

/-- Edge tile of a row on the side of an I/O die. -/
def edgeTile (die row : Nat) : Nat := 28 * row + (if die = 0 then 0 else 27)

/-- Both data flits of a slot read arrive at the landing buffer of the edge tile of RROW (R227); `again` repeats the
phase when the data are poisoned for want of the channel (R219). -/
def State.slotData (s : State) (e : SlotEnt) (d : Line) (po : Bool) : State :=
  let t := edgeTile e.edge (slotRrow e.entry)
  let q : BitVec 2 := if po then 3 else 0
  if 24 ≤ slotRrow e.entry then s
  else (s.land t (slotRlb e.entry) s.tiles.clock e.rel.1 (lineFlit d 0) q).land t (slotRlb e.entry + 1) s.tiles.clock e.rel.2
    (lineFlit d 1) q

/-- The line and poison of a slot write's data. -/
def SlotEnt.line (e : SlotEnt) : Line × Bool :=
  let a := e.data.getD 0 (0, 0)
  let b := e.data.getD 1 (0, 0)
  (flitLine a.1 b.1, a.2 ≠ 0 || b.2 ≠ 0)

/-- A slot write is performed: the line in DRAM, and any clean copy of it in its home's line cache gone (R229); the page's flash
slot no longer holds its content (R157). -/
def State.slotWrite (s : State) (e : SlotEnt) : State :=
  let (l, po) := e.line
  let s := (s.slotStore (slotDpa e.entry) l po).sramDrop (slotDpa e.entry) 128
  let s := match s.ptrOfDpa (slotDpa e.entry) with
    | some p => s.noteWrite p
    | none => s
  match s.lcGet (slotDpa e.entry) with
  | some c => if c.dirty then s else s.lcDrop (slotDpa e.entry)
  | none => s

/-- A home-port slot entry is served (R231): only lines in SRAM frames, for a group with slots of its direction; a failed slice serves none
(R424). -/
def State.homeSlot (s : State) (e : SlotEnt) : State :=
  let k := slotUnit e.entry
  let a := slotDpa e.entry
  let wr := if slotKind e.entry = 2 then 1 else 0
  let owns := (List.range 1024).any fun c =>
    let w := s.homeEntry true k c
    (bits w 1 0 == 1 || bits w 1 0 == 2) && bit w 2 == wr && bits w 10 3 == slotGroup e.entry
  if slotKind e.entry = 0 || slotGroup e.entry = 0 || !owns || s.rd (F.homeHavlState k) ≠ 0 then s
  else if s.dramTop ≤ a || !s.inSram (a / 0x10000) then
    let s := s.slotFault (edgeTile e.edge (slotRrow e.entry % 24))
    if wr = 1 then s
    else
      let (n, s) := s.draw
      s.slotData e (Config.poisonedLine n) true
  else
    let s := s.tel blkDisp 0x05 0 1
    if wr = 1 then
      let (l, po) := e.line
      s.writeLine a l (BitVec.allOnes 128) po k
    else
      let (rd, s) := s.readLine a 0 k
      s.slotData e rd.data rd.poison

/-- Shortest time from the edge-send cycle to a slot read's data, by the 2.4 GHz column of Table PAT-2 (R236). -/
def minRead (tgt : Nat) : Nat := if tgt = 1 then 72 else 120

/-- A read entry leaves the edge: its two landing entries are owned from now on, and their releases wait (R227, R236). -/
def State.slotOwn (s : State) (e : SlotEnt) : SlotEnt × State :=
  if slotKind e.entry ≠ 1 || 24 ≤ slotRrow e.entry then (e, s)
  else
    let t := edgeTile e.edge (slotRrow e.entry)
    let l := slotRlb e.entry
    let c := s.tiles.clock + minRead (slotTgt e.entry)
    let a := s.ownRelease t l c
    let b := s.ownRelease t (l + 1) c
    ({ e with rel := (a, b) }, (s.owe t l a).owe t (l + 1) b)

/-- The edge port forwards an entry to the named unit on its own die (R227); an entry that names no unit of the die
reaches none, and a write whose position has passed is not issued (R134). -/
def State.slotSend (s : State) (e : SlotEnt) : State :=
  let (e, s) := if e.late then (e, s) else s.slotOwn e
  if e.late then s
  else if slotTgt e.entry = 1 then (if slotUnit e.entry / 32 = e.edge then s.homeSlot e else s)
  else if slotUnit e.entry / 16 = e.edge then s.setDc (slotUnit e.entry) fun d => { d with slotq := d.slotq ++ [e] }
  else s

/-- A flit leaves the mesh at an edge: a slot entry, or a data flit of the write entry before it. -/
def State.edgeFlit (s : State) (tile : Nat) (f : Flit) (p : BitVec 2) : State :=
  let die := if tileX tile = 0 then 0 else 1
  let k := 32 * die + tileY tile
  match s.tiles.edges.find? fun e => e.1 == k with
  | some (_, e) =>
    let e : SlotEnt := { e with data := e.data ++ [(f, p)] }
    if e.data.length < 2 then s.setTiles fun t => { t with edges := SMap.insert (SMap.erase t.edges k) k e }
    else (s.setTiles fun t => { t with edges := SMap.erase t.edges k }).slotSend e
  | none =>
    let e : SlotEnt := ⟨f, [], die, (none, none), false⟩
    match slotKind f with
    | 2 => s.setTiles fun t => { t with edges := SMap.insert t.edges k e }
    | 3 => s
    | _ => s.slotSend e

/-! ## Bank ports (R184, R185, R224) -/

/-- Is a bank port kept for pattern phases in a cycle of the bar (R224)? -/
def State.portKept (s : State) (tile port cyc : Nat) : Bool :=
  let mine := s.disp.places.filter fun p => p.ports.any fun e => e.1 == tile
  let runs := mine.any fun p => match s.instOn p.num with
    | some i => i.bodyAt.isSome && (p.phase i.phase).kind == 0
    | none => false
  runs && mine.any fun p => p.ports.any fun e => e.1 == tile && e.2.1 == port && e.2.2 == cyc % 1024

/-- May an access take the port in a cycle: no clear path runs, no other block is taken, and for a write no 32-byte part twice? -/
def State.portFree (s : State) (tile port block parts cyc : Nat) : Bool :=
  !(s.tiles.clears.any fun e => e.1 == tile && cyc < e.2) &&
  s.tiles.ports.all fun u => !(u.tile == tile && u.port == port && u.at_ == cyc) ||
    (u.block == block && (port % 2 == 0 || u.parts &&& parts == 0))

/-- Take a port (bank × 2, one more for its write port) for a cycle. -/
def State.takePort (s : State) (tile port cyc block parts : Nat) : State :=
  s.setTiles fun x => { x with ports := x.ports ++ [⟨tile, port, cyc, block, parts⟩] }

/-- 32-byte parts of its block that an access takes. -/
def partsOf (addr n : Nat) : Nat :=
  (List.range 4).foldl (fun m i => if addr % 128 < 32 * i + 32 && 32 * i < addr % 128 + n then m + 2 ^ i else m) 0

/-! ## Links (R192) -/

/-- A flit passes a router's input port: the poison of its halves after the code has corrected what it can.  An uncorrectable quarter
poisons its half and counts toward Table TIL-6. -/
def State.linkCheck (s : State) (tile inp : Nat) (po : BitVec 2) : BitVec 2 × State :=
  let k := 32 * tile + 4 * inp
  let bad := findAll 4 fun q => 2 ≤ SMap.get 0 s.tiles.noise (k + q)
  let s := s.setTiles fun x => { x with noise := x.noise.filter fun e => e.1 / 4 ≠ k / 4 }
  (bad.foldl (fun p q => p ||| BitVec.ofNat 2 (2 ^ (q / 2))) po, each bad (fun _ s => s.tileErr tile 2 inp) s)

/-! ## Pattern flits (R195, R223, R225, R226) -/

/-- A flit presented at an input in its cycle: every output port whose plan entry names that input carries it; one that
no entry names is lost. -/
def State.carry (s : State) (x : Flight) : State :=
  let c := x.at_ % 1024
  each (List.range 5) (fun o s =>
    let e := s.meshEntry true x.tile o c
    if !(meshPattern e && meshSrc e == x.src) then s
    else
      let s := s.tel x.tile 0x01 o 1
      if o = 4 then
        let a := (Config.localOutputAddr x.tile c).toNat
        (s.takePort x.tile (2 * bits a 8 7 + 1) x.at_ (a / 128) 15).spadWrite x.tile a (flitBytes x.flit x.poison)
      else
        match neighbour x.tile o with
        | none => s.edgeFlit x.tile x.flit x.poison
        | some n =>
          let inp := (o + 2) % 4
          if crossing x.tile o then
            match s.groupPlace (meshGroup e) with
            | some p =>
              let (q, s) := s.linkCheck n inp x.poison
              s.cross n (Config.landingSlot p.digest n inp c) x.at_ x.flit q
            | none => s
          else
            let (q, s) := s.linkCheck n inp x.poison
            s.setTiles fun t => { t with flights := t.flights ++ [⟨n, inp, x.at_ + 2, x.flit, q⟩] }) s

/-! ## Dynamic packets (R197 to R205) -/

/-- A poisoned value is used as an address, a slot-entry field, a branch condition or a counter target: the instance of
the core ends with POISONED (Table INT-2). -/
def State.poisonEnd (s : State) (k : Nat) : State :=
  match s.instAt (k / 128) (k % 128) with
  | some i => s.stopInst i.idx 0x13
  | none => s

/-- A dynamic packet from its 32-byte header (Table TIL-3), inline data and flits. -/
def mpktOf (h : Nat) (inl : BitVec 256) (po : Bool) (flits : List (Flit × BitVec 2)) : MPkt where
  dx := BitVec.ofNat 6 (bits h 5 0)
  dy := BitVec.ofNat 5 (bits h 10 6)
  sx := BitVec.ofNat 6 (bits h 16 11)
  sy := BitVec.ofNat 5 (bits h 21 17)
  vn := tst h 22
  cls := tst h 23
  mc := BitVec.ofNat 2 (bits h 25 24)
  mlo := BitVec.ofNat 6 (bits h 31 26)
  mhi := BitVec.ofNat 6 (bits h 37 32)
  len := BitVec.ofNat 5 (bits h 42 38)
  ce := tst h 43
  cee := tst h 44
  cc := BitVec.ofNat 4 (bits h 48 45)
  seq := BitVec.ofNat 16 (bits h 64 49)
  op := BitVec.ofNat 8 (bits h 72 65)
  size := BitVec.ofNat 3 (bits h 75 73)
  addr := BitVec.ofNat 64 (bits h 143 80)
  job := BitVec.ofNat 16 (bits h 159 144)
  status := BitVec.ofNat 8 (bits h 167 160)
  raddr := BitVec.ofNat 20 (bits h 187 168)
  inl := inl
  inlPoison := po
  flits := flits

/-- Send a tile's request with its next SEQ, within the window W, or hold it at injection (R203, R205). -/
def State.request (s : State) (tile : Nat) (m : MPkt) : State :=
  let n := SMap.get 0 s.tiles.seqs tile
  let m : MPkt := { m with sx := BitVec.ofNat 6 (tileX tile), sy := BitVec.ofNat 5 (tileY tile), cls := false, ce := false,
                           cee := false, seq := BitVec.ofNat 16 n }
  let s := s.setTiles fun t => { t with seqs := SMap.set 0 t.seqs tile ((n + 1) % 65536) }
  let out := (s.tiles.sent.filter fun e => e.1 == tile).length
  if s.rd (F.tileCongW tile) ≤ out then s.setTiles fun t => { t with inject := t.inject ++ [m] }
  else
    let k := max 1 (mTargets m).length
    (s.setTiles fun t => { t with sent := t.sent ++ (List.range k).map fun _ => (tile, n) }).meshSend m

/-- The answer of one tile to a request it received. -/
def State.tileAnswer (s : State) (m : MPkt) (t status : Nat) : State :=
  s.sendMesh (meshReply { m with dx := BitVec.ofNat 6 (tileX t), dy := BitVec.ofNat 5 (tileY t) } status 0 false [])

/-- Requests with a reserved OP that have come to their ends are answered, by each tile they reach: BAD_OP, or TILE_RETIRED for one
that is off (R198, R201). -/
def State.answerBad (s : State) : State :=
  each (s.tiles.mesh.filter fun m => !meshOp m.op.toNat && !s.inNet m) (fun m s =>
    let s := s.setTiles fun t => { t with mesh := t.mesh.erase m }
    match mTargets m with
    | [] => s.sendMesh (meshReply m 0x21 0 false [])
    | ts => each ts (fun t s => s.tileAnswer m t (if s.tileOff t then 0x20 else 0x21)) s) s

/-! ## The dynamic network (R195, R199 to R201, R205, R224) -/

/-- Is an output open to dynamic traffic in a cycle of the bar: OPEN, unassigned, or lent because its source presents no flit? -/
def State.portOpen (s : State) (fl : List Flight) (tile o c : Nat) : Bool :=
  let e := s.meshEntry true tile o c
  match bits e 1 0 with
  | 0 => true
  | 3 => false
  | k => !meshPattern e || (k == 2 && !(fl.any fun f => f.tile == tile && f.src == meshSrc e))

/-- Scratchpad address at which flit `i` of a packet is written by a tile's local output, if it is written there. -/
def flitAddr (m : MPkt) (i : Nat) : Option Nat :=
  if i = 0 then (if m.op = 0x24 && !m.cls then some m.addr.toNat else none)
  else if m.cls then some (m.raddr.toNat + 64 * (i - 1))
  else if m.op = 0x24 then some (m.addr.toNat + 32 + 64 * (i - 1))
  else if m.op = 0x25 || (m.op = 0x26 && !m.addr.getLsbD 63) then some (m.addr.toNat + 64 * (i - 1))
  else none

/-- Write port and block of an address. -/
def wrPort (a : Nat) : Nat := 2 * bits a 8 7 + 1

/-- Packets in a router's relay buffer of a class, with one that is entering (R201). -/
def State.relayFill (s : State) (t v : Nat) : Nat :=
  (s.tiles.net.queue.filter fun e => e.relayed && e.tile == t && e.of_.pkt.cls == (v / 2 == 1)).length +
    (if (SMap.get none s.tiles.net.holds (28 * t + 4 * 5 + v)).isNone then 0 else 1)

/-- Is there room behind an output for a flit of a channel? -/
def State.netRoom (s : State) (t o v cyc : Nat) (f : NetFlit) : Bool :=
  match o with
  | 4 => match flitAddr f.of_.pkt f.idx with
    | some a => !s.portKept t (wrPort a) cyc
    | none => true
  | 5 => f.idx ≠ 0 || s.relayFill t v < 2
  | 6 => true
  | _ => match s.beyond o 28 t with
    | some u => s.vcFill u ((o + 2) % 4) v < 16
    | none => true

/-- May the head flit of buffer `b` (4 × input + channel) pass an output: it goes there, has not passed it, holds it or, a header, finds
it free, and there is room (R199)? -/
def State.netMay (s : State) (t o b cyc : Nat) : Bool :=
  let n := s.tiles.net
  match SMap.get [] n.bufs (20 * t + b) with
  | [] => false
  | f :: _ =>
    (s.routes t (b / 4) f.of_).contains o && !tst (SMap.get 0 n.passed (20 * t + b)) o &&
      decide (SMap.get none n.holds (28 * t + 4 * o + b % 4) = if f.idx = 0 then none else some (b / 4, f.of_)) && s.netRoom t o (b % 4) cyc f

/-- The buffer that an output serves, in round robin. -/
def State.netPick (s : State) (t o cyc : Nat) : Option Nat :=
  let last := SMap.get 19 s.tiles.net.turn (7 * t + o)
  ((List.range 20).map fun i => (last + 1 + i) % 20).find? fun b => s.netMay t o b cyc

/-- Change a request or response under way, wherever it is listed. -/
def State.markPkt (s : State) (m : MPkt) (f : MPkt → MPkt) : State :=
  let g (x : MPkt) : MPkt := if mKey x = mKey m then f x else x
  { s.setTiles (fun t => { t with mesh := t.mesh.map g }) with meshResp := s.meshResp.map g }

/-- A flit enters a virtual-channel buffer: a request's header takes the congestion mark where the buffer holds THRESH flits or more
(R205), and what the link spoilt is poisoned (R192). -/
def State.vcPut (s : State) (t inp v : Nat) (f : NetFlit) : State :=
  let m := f.of_.pkt
  let s := if f.idx = 0 && !m.cls && s.rd (F.tileCongThresh t) ≤ s.vcFill t inp v then s.markPkt m fun x => { x with ce := true } else s
  let (q, s) := s.linkCheck t inp 0
  let s := if q = 0 then s
    else if f.idx = 0 then (if q.getLsbD 1 then s.markPkt m fun x => { x with inlPoison := true } else s)
    else s.markPkt m fun x => { x with flits := x.flits.modify (f.idx - 1) fun y => (y.1, y.2 ||| q) }
  let k := 20 * t + 4 * inp + v
  s.setNet fun n => { n with bufs := SMap.set [] n.bufs k (SMap.get [] n.bufs k ++ [f]) }

/-- The head flit of a buffer passes an output, which it holds until the packet's last flit has passed; it leaves the buffer once it
has passed every output it goes to. -/
def State.netMove (s : State) (t o b cyc : Nat) : State :=
  match SMap.get [] s.tiles.net.bufs (20 * t + b) with
  | [] => s
  | f :: rest =>
    let last := f.idx = f.of_.pkt.flits.length
    let h := 28 * t + 4 * o + b % 4
    let done := SMap.get 0 s.tiles.net.passed (20 * t + b) + 2 ^ o
    let left := (s.routes t (b / 4) f.of_).all fun x => tst done x
    let s := s.setNet fun n => { n with
      bufs := if left then SMap.set [] n.bufs (20 * t + b) rest else n.bufs
      passed := SMap.set 0 n.passed (20 * t + b) (if left then 0 else done)
      holds := SMap.set none n.holds h (if last then none else some (b / 4, f.of_))
      turn := SMap.set 19 n.turn (7 * t + o) b
      waits := SMap.set 0 n.waits (20 * t + b) 0 }
    let s := if o < 5 then s.tel t 0x01 (o + 8) 1 else s
    match o with
    | 4 => match flitAddr f.of_.pkt f.idx with
      | some a => s.takePort t (wrPort a) cyc (a % 2 ^ 20 / 128) 15
      | none => s
    | 5 => if last then s.setNet fun n => { n with queue := n.queue ++ [⟨{ f.of_ with via := none }, t, 4, 0, true⟩] } else s
    | 6 => s
    | _ => match s.beyond o 28 t with
      | some u => s.vcPut u ((o + 2) % 4) (b % 4) f
      | none => s

/-- Each injection unit sends one flit: of its first packet of a channel for which the router's buffer has room. -/
def State.netInject (s : State) : State :=
  let ch (e : NetSrc) : Nat := 2 * e.of_.pkt.cls.toNat + e.of_.pkt.vn.toNat
  let go := (s.tiles.net.queue.zipIdx.foldl (fun (a : List Nat × List (Nat × Nat) × List (Nat × Nat × Nat)) (e : NetSrc × Nat) =>
    let p := (e.1.tile, e.1.port)
    let k := (e.1.tile, e.1.port, ch e.1)
    if a.2.1.contains p || a.2.2.contains k then a
    else if 16 ≤ s.vcFill e.1.tile e.1.port (ch e.1) then (a.1, a.2.1, a.2.2 ++ [k])
    else (a.1 ++ [e.2], a.2.1 ++ [p], a.2.2)) ([], [], [])).1
  let es := go.filterMap fun i => s.tiles.net.queue[i]?
  let next (e : NetSrc × Nat) : Option NetSrc :=
    if !go.contains e.2 then some e.1
    else if e.1.sent = e.1.of_.pkt.flits.length then none else some { e.1 with sent := e.1.sent + 1 }
  let s := s.setNet fun n => { n with queue := n.queue.zipIdx.filterMap next }
  each es (fun e s => s.vcPut e.tile e.port (ch e) ⟨e.of_, e.sent⟩) s

/-- Occupancies are sampled, and head flits that have stayed are counted; one that has waited 4,096 tile cycles meets the criterion of a router link (Table TIL-6). -/
def State.netWait (s : State) (moved : List Nat) : State :=
  each (s.tiles.net.bufs.map (·.1)) (fun k s =>
    let t := k / 20
    let q := k % 20 / 4 + 8 * (k % 4)
    let fill := (SMap.get [] s.tiles.net.bufs k).length
    let s := (s.telSum t 0x03 q fill).telMax t 0x03 q fill
    if moved.contains k then s
    else
      let n := SMap.get 0 s.tiles.net.waits k + 1
      let f := (t, 4)
      let hd := ((SMap.get [] s.tiles.net.bufs k).head?.map (·.idx)) == some 0
      let s := if hd then s.tel t 0x02 q 1 else s
      let s := s.setNet fun x => { x with waits := SMap.set 0 x.waits k n }
      if n < 4096 || s.tiles.faulty.contains f then s else s.setTiles fun x => { x with faulty := x.faulty ++ [f] }) s

/-- One cycle of the dynamic network: every open output serves one buffer, by what the buffers hold at the cycle's start, and the
injection units send. -/
def State.netStep (s : State) (fl : List Flight) (cyc : Nat) : State :=
  if s.tiles.net.bufs.isEmpty && s.tiles.net.queue.isEmpty then s
  else
    let ts := dedup (s.tiles.net.bufs.map fun e => e.1 / 20)
    let go := ts.flatMap fun t => (List.range 7).filterMap fun o =>
      if o < 5 && !s.portOpen fl t o (cyc % 1024) then none else (s.netPick t o cyc).map fun b => (t, o, b)
    let s0 := s.netInject
    let s := each go (fun x s => s.netMove x.1 x.2.1 x.2.2 cyc) s0
    (s.netWait (go.map fun x => 20 * x.1 + x.2.2)).answerBad

/-! ## The tile clock (R222) -/

/-- A lane-wise load of 32 bytes: poisoned lanes have free value bits. -/
def State.loadLanes (s : State) (tile a : Nat) : VReg × State :=
  let v := BitVec.ofNat 256 (leNat (s.spadRead tile a 32))
  let p := (List.range 8).foldl (fun m j => if s.spadPois tile (a + 4 * j) then m + 2 ^ j else m) 0
  let n := s.free
  let s := s.spadCheck tile a 32
  if p = 0 then (⟨v, 0⟩, s)
  else (⟨BitVec.ofNat 256 ((List.range 8).foldl (fun m j =>
      m + (if tst p j then ((Config.droppedLoad n).extractLsb' (32 * j) 32).toNat
           else bits v.toNat (32 * j + 31) (32 * j)) * 2 ^ (32 * j)) 0), BitVec.ofNat 8 p⟩, { s with free := n + 1 })

/-- Queue an effect of an operation. -/
def State.later (s : State) (k at_ slot : Nat) (e : Effect) : State :=
  s.setTiles fun t => { t with pend := t.pend ++ [⟨k / 128, k % 128, at_, slot, e⟩] }

/-- A granted access at its bank cycle `t` (Table PAT-1). -/
def State.bankDo (s : State) (t : Nat) (p : Pend) (addr n : Nat) (pattern : Bool) (act : Bank) : State :=
  let k := 128 * p.tile + p.core
  match act with
  | .load r =>
    let (v, s) := s.loadLanes p.tile addr
    s.later k (t + 2) p.slot (.vreg r v.val (BitVec.allOnes 256) v.poison 0xFF)
  | .sload r =>
    let bad := s.spadPois p.tile addr
    let v := if bad then (Config.droppedLoad s.free).extractLsb' 0 64 else BitVec.ofNat 64 (leNat (s.spadRead p.tile addr 8))
    let s := s.spadCheck p.tile addr 8
    (if bad then { s with free := s.free + 1 } else s : State).later k (t + 2) p.slot (.sreg r v bad)
  | .store bs => s.spadWrite p.tile addr bs
  | .half =>
    let (f, q) := s.spadFlit p.tile addr
    (s.spadCheck p.tile addr 64).later k (t + 1) p.slot (.send f q)
  | .entry =>
    let (f, q) := s.spadFlit p.tile addr
    let s := s.spadCheck p.tile addr 64
    if q ≠ 0 then s.poisonEnd k else s.later k (t + 1) p.slot (.send f 0)
  | .packet got =>
    let got := got ++ [(BitVec.ofNat 256 (leNat (s.spadRead p.tile addr 32)), s.spadBad p.tile addr 32)]
    let s := s.spadCheck p.tile addr 32
    let h := (got.getD 0 (0, false)).1.toNat
    let len := min 16 (bits h 42 38)
    if (got.getD 0 (0, false)).2 then s.poisonEnd k
    else if got.length < 2 + 2 * len then s.later k (t + 1) p.slot (.bank ((addr + 32) % 2 ^ 20) n pattern (.packet got))
    else
      let i := got.getD 1 (0, false)
      s.request p.tile (mpktOf h i.1 i.2 ((List.range len).map fun j =>
        let a := got.getD (2 + 2 * j) (0, false)
        let b := got.getD (3 + 2 * j) (0, false)
        (b.1 ++ a.1, BitVec.ofNat 2 (a.2.toNat + 2 * b.2.toNat))))

/-- An access dropped in a pattern phase (R185): a read delivers poison, a write is not performed. -/
def State.bankDrop (s : State) (t : Nat) (p : Pend) (act : Bank) : State :=
  let k := 128 * p.tile + p.core
  let s := s.slotFault p.tile
  let n := s.free
  match act with
  | .load r => ({ s with free := n + 1 } : State).later k (t + 2) p.slot (.vreg r (Config.droppedLoad n) (BitVec.allOnes 256) 0xFF 0xFF)
  | .sload r => ({ s with free := n + 1 } : State).later k (t + 2) p.slot (.sreg r ((Config.droppedLoad n).extractLsb' 0 64) true)
  | .store _ => s
  | .half => ({ s with free := n + 1 } : State).later k (t + 1) p.slot (.send (lineFlit (Config.poisonedLine n) 0) 3)
  | .entry => s.poisonEnd k
  | .packet _ => s

/-- An access at its bank cycle: granted; dropped in a pattern phase; else the core stalls for a cycle and tries again (R184, R185,
R224). -/
def State.bankAt (s : State) (t : Nat) (p : Pend) : State :=
  match p.eff with
  | .bank addr n pattern act =>
    let write := match act with
      | .store _ => true
      | _ => false
    let port := bits addr 8 7 * 2 + (if write then 1 else 0)
    if s.portFree p.tile port (addr / 128) (partsOf addr n) t && (pattern || !s.portKept p.tile port t) then
      (s.takePort p.tile port t (addr / 128) (partsOf addr n)).bankDo t p addr n pattern act
    else if pattern then s.bankDrop t p act
    else ((s.tel p.tile 0x08 0 1).setTiles fun x => { x with pend := x.pend ++ [{ p with at_ := t + 1 }] }).setCore
      (128 * p.tile + p.core) fun c => { c with cyc := c.cyc + 1, stallTo := max c.stallTo (t + 1) }
  | _ => s

/-- An operation's effect at its cycle. -/
def State.deliver (s : State) (p : Pend) : State :=
  let k := 128 * p.tile + p.core
  match p.eff with
  | .sreg r v po => s.setCore k fun c => c.setSreg r v po
  | .vreg r v m po pm => s.setCore k fun c =>
      let old := c.vreg r
      c.setVreg r ⟨(old.val &&& ~~~m) ||| (v &&& m), (old.poison &&& ~~~pm) ||| (po &&& pm)⟩
  | .bank .. => s
  | .accz a q po => s.setCore k fun c => (List.range 8).foldl (fun c l => c.setAcc a l { acc0 with q := q, poison := po }) c
  | .terms a l ts po =>
    let (v, f) := ts.foldl (fun (acc : AccLane × Nat) t =>
      let (x, g) := acc.1.term t.1 t.2
      (x, acc.2 ||| g)) ((s.core k).acc a l, 0)
    (s.setCore k fun c => c.setAcc a l { v with poison := v.poison || po }).flag k (if po then 0 else f)
  | .merge a l w po =>
    let (v, f) := ((s.core k).acc a l).merge w.toNat po
    (s.setCore k fun c => c.setAcc a l v).flag k (if po then 0 else f)
  | .send f po => s.setTiles fun t => { t with flights := t.flights ++ [⟨p.tile, 4, p.at_, f, po⟩] }

/-- Does an effect use a bank's read port, or its write port? -/
def Effect.reads : Effect → Bool
  | .bank _ _ _ (.store _) => false
  | .bank .. => true
  | _ => false
def Effect.writes : Effect → Bool
  | .bank _ _ _ (.store _) => true
  | _ => false

/-- The earliest cycle at which something is due; the dynamic network moves in every cycle while it holds a flit. -/
def State.nextDue (s : State) : Option Nat :=
  let x := s.tiles
  minBy? id (x.pend.map (·.at_) ++ x.flights.map (·.at_) ++ x.crosses.map (·.at_) ++ (x.landing.filterMap fun e => e.2.release) ++
    x.owed.map (·.2.2) ++ (if x.net.queue.isEmpty && x.net.bufs.isEmpty then [] else [x.clock + 1]))

/-- Landing releases of a cycle: the flits held for it, and a poisoned one with free data where the flit has not come (R189, R191). -/
def State.release (s : State) (t : Nat) : State :=
  let rel := s.tiles.landing.filter fun e => e.2.release == some t
  let miss := s.tiles.owed.filter fun e => e.2.2 ≤ t
  let n := s.free
  let s := s.setTiles fun x => { x with
    landing := x.landing.filter (fun e => e.2.release ≠ some t),
    owed := x.owed.filter (fun e => t < e.2.2),
    flights := x.flights ++ (rel.map fun e => (⟨e.1 / 256, 5, t, e.2.flit, e.2.poison⟩ : Flight)) ++
      miss.zipIdx.map fun e => ⟨e.1.1, 5, t, lineFlit (Config.poisonedLine (n + e.2)) 0, 3⟩ }
  if miss.isEmpty then s else { s with free := n + miss.length }

/-- Everything that happens in one cycle: bank reads, landing buffers, router outputs with pattern flits and then dynamic ones, bank
writes, cores in ascending index, and the effects of operations by slot (R185, R222). -/
def State.cycle (s : State) (t : Nat) : State :=
  let new := s.tiles.clock < t
  let due := s.tiles.pend.filter fun p => p.at_ ≤ t
  let s := s.setTiles fun x => { x with clock := max x.clock t, pend := x.pend.filter fun p => t < p.at_ }
  let byCore := sortBy fun (p : Pend) => 128 * p.tile + p.core
  let s := each (byCore (due.filter fun p => p.eff.reads)) (fun p s => s.bankAt t p) s
  let cr := s.tiles.crosses.filter fun x => x.at_ ≤ t
  let s := s.setTiles fun x => { x with crosses := x.crosses.filter fun y => t < y.at_ }
  let s := each cr (fun x s => s.land x.tile x.entry x.at_ x.rel x.flit x.poison) s
  let s := s.release t
  let fl := s.tiles.flights.filter fun f => f.at_ ≤ t
  let s := s.setTiles fun x => { x with flights := x.flights.filter fun f => t < f.at_ }
  let s := each fl.zipIdx (fun f s =>
    if (fl.take f.2).any fun g => g.tile == f.1.tile && g.src == f.1.src && g.at_ == f.1.at_ then s.slotFault f.1.tile else s.carry f.1) s
  let s := if new then s.netStep fl t else s
  let s := each (byCore (due.filter fun p => p.eff.writes)) (fun p s => s.bankAt t p) s
  each (sortBy (fun p => p.slot) (due.filter fun p => !p.eff.reads && !p.eff.writes)) (fun p s => s.deliver p) s

/-- Let the tile clock run up to cycle `t`, `fuel` busy cycles at most. -/
def State.runTo (s : State) (t : Nat) : Nat → State
  | 0 => s
  | n + 1 => match s.nextDue with
    | some d => if d ≤ t then (s.cycle d).runTo t n else s
    | none => s

/-- Let the tile clock run up to cycle `t` (a flit crosses at most 51 routers). -/
def State.tick (s : State) (t : Nat) : State :=
  let x := s.tiles
  let n := x.pend.length + x.flights.length + x.crosses.length + x.owed.length + x.landing.length
  let net := if x.net.queue.isEmpty && x.net.bufs.isEmpty && (x.pend.all fun p => !p.eff.reads && !p.eff.writes) then 0 else t - x.clock
  let s := s.runTo t (64 * n + 64 + net)
  s.setTiles fun x => { x with
    clock := max x.clock t, ports := x.ports.filter (fun u => t ≤ u.at_ + 1), clears := x.clears.filter fun e => t < e.2 }

/-- Let the tile clock run until no flit of a packet is on its way, `fuel` cycles at most. -/
def State.flowTo (s : State) (m : MPkt) : Nat → State
  | 0 => s
  | n + 1 => if s.inNet m then (s.tick (s.tiles.clock + 1)).flowTo m n else s

/-- The bar counters restart at zero after a frequency step: held landing entries, phases and what is under way keep
their place counted anew (R188, R237). -/
def State.rebase (s : State) : State :=
  let b := s.mbar
  let c := b * 1024
  let s := s.setTiles fun t => { t with
    clock := t.clock - c,
    pend := t.pend.map (fun p => { p with at_ := p.at_ - c }),
    ports := [],
    clears := t.clears.map (fun e => (e.1, e.2 - c)),
    flights := t.flights.map (fun f => { f with at_ := f.at_ - c }),
    crosses := t.crosses.map (fun x => { x with at_ := x.at_ - c, rel := x.rel.map fun r => r - c }),
    owed := t.owed.map (fun e => (e.1, e.2.1, e.2.2 - c)),
    landing := t.landing.map (fun e => (e.1, { e.2 with release := e.2.release.map fun r => r - c })),
    cores := (t.cores.map fun e =>
      (e.1, { e.2 with cyc := e.2.cyc - c, stallTo := e.2.stallTo - c, branch := e.2.branch.map fun x => (x.1 - c, x.2) })).filter fun e =>
        decide (e.2 ≠ CoreSt.reset) }
  let s := each (List.range 32) (fun k s =>
    if (s.dc k).slotq.isEmpty then s
    else s.setDc k fun d => { d with slotq := d.slotq.map fun e =>
      { e with rel := (e.rel.1.map fun r => r - c, e.rel.2.map fun r => r - c) } }) s
  { s with mbar := 0, disp := { s.disp with insts := s.disp.insts.map fun i => { i with bodyAt := i.bodyAt.map fun x => x - b } } }

end Sys2Proof.Machine
end

