-- ==== Sys2Proof/Machine/OpDesc.lean ====
section
/-! DEFINITION. Operator descriptors: the common head, stream declarations and parameters, and the checks of Table OPS-4
that read them (R269, R270, R274 to R278, R289, R290, R293, R296, R299, R301 to R303). -/

namespace Sys2Proof.Machine

/-- `n` little-endian bytes of a descriptor from byte `lo` on. -/
def dN (d : List Byte) (lo n : Nat) : Nat := leNat (sliceZ d lo n)

/-- Are `n` bytes from byte `lo` on zero? -/
def dZero (d : List Byte) (lo n : Nat) : Bool := dN d lo n == 0

/-- The stream declarations of a descriptor (Table OPS-6). -/
def strmsOf (d : List Byte) : List Strm :=
  (List.range (dN d 0 1)).map fun i =>
    let w := dN d (16 + 16 * i) 16
    ⟨bits w 63 0, bits w 103 64, tst w 105, tst w 106, tst w 104, if tst w 107 then bits w 111 108 else 4⟩

/-- A stream by number. -/
def strm (ss : List Strm) (i : Nat) : Strm := ss.getD i ⟨0, 0, false, false, false, 0⟩

/-- DLEN of each built-in operator (Table OPS-3). -/
def opDlen : Nat → Nat
  | 1 => 144 | 2 => 112 | 3 => 128 | 4 => 112 | 5 => 48 | 6 => 104 | 7 => 56 | _ => 0

/-- OPIDs that are not reserved. -/
def opKnown (o : Nat) : Bool := (1 ≤ o && o ≤ 7) || (0x100 ≤ o && o ≤ 0xFFFE)

/-- Is the operator built in? -/
def opBuiltin (o : Nat) : Bool := 1 ≤ o && o ≤ 7

/-- Streams of the built-in operators: written, gathered. -/
def opStreams : Nat → List (Bool × Bool)
  | 1 => [(false, true), (false, false), (false, false), (false, false), (true, false), (false, true)]
  | 2 => [(true, true), (false, false), (false, false), (true, true)]
  | 3 => [(false, false), (false, false), (false, false), (true, false), (true, false)]
  | 4 => [(true, false), (true, false), (false, false), (false, false)]
  | 5 => [(false, false), (true, false)]
  | 6 => [(true, false)]
  | 7 => [(false, false), (true, false)]
  | _ => []

/-- A row stride of Table OPS-10. -/
def strideOk (n : Nat) : Bool := n == 32 || n == 64 || (0 < n && n % 128 == 0 && n ≤ 2 ^ 24)

/-- A row length of Table OPS-10. -/
def rowlenOk (n : Nat) : Bool := 32 ≤ n && n ≤ 4096 && n % 32 == 0

/-- Parameters in their ranges, required streams present and others absent (check 1). -/
def opParams (o : Nat) (d : List Byte) : Bool :=
  let ss := strmsOf d
  let there (i : Nat) : Bool := (strm ss i).len ≠ 0
  let cacheF (f : Nat) : Bool := 2 ≤ f && f ≤ 4
  match o with
  | 1 =>
    let fmt := dN d 124 1
    let red := dN d 125 1
    let bag := dN d 122 2
    let q := sext 16 (dN d 126 2)
    1 ≤ dN d 112 4 && 1 ≤ dN d 116 4 && dN d 116 4 ≤ 2 ^ 20 && rowlenOk (dN d 120 2) &&
      bits fmt 7 5 == 0 && bits fmt 3 0 ≤ 0xA && bits red 3 0 ≤ 4 && bits red 6 4 ≤ 3 &&
      decide (-512 ≤ q) && decide (q ≤ 511) && strideOk (dN d 128 4) && dZero d 132 12 &&
      there 0 && there 1 && there 4 && (there 2 == (bag == 0)) && (there 3 == (bits red 6 4 == 2))
  | 2 =>
    let fmt := dN d 90 1
    let mode := dN d 91 1
    1 ≤ dN d 80 4 && 1 ≤ dN d 84 4 && dN d 84 4 ≤ 2 ^ 24 && rowlenOk (dN d 88 2) && bits fmt 3 0 ≤ 4 &&
      (bits fmt 7 4 == 0 || bits fmt 7 4 == 2) && bits mode 1 0 ≠ 3 && bits mode 7 3 == 0 && strideOk (dN d 92 4) &&
      dZero d 104 8 && there 0 && there 1 && there 2 && (there 3 == (bits mode 1 0 == 2))
  | 3 =>
    let ntok := dN d 96 4
    let kv := dN d 104 1
    let nq := dN d 105 1
    let kvf := dN d 109 1
    let qof := dN d 110 1
    ntok ≤ 2 ^ 20 && max ntok 1 ≤ dN d 100 4 && 1 ≤ kv && kv ≤ 16 && 1 ≤ nq && nq ≤ 128 && nq % kv == 0 &&
      1 ≤ dN d 106 2 && dN d 106 2 ≤ 256 && dN d 108 1 ≤ 2 && cacheF (bits kvf 3 0) && cacheF (bits kvf 7 4) &&
      (bits qof 3 0 == 2 || bits qof 3 0 == 3) && (bits qof 7 4 == 0 || bits qof 7 4 == 2) && dZero d 111 1 && dZero d 124 4 &&
      (ntok == 0 || (there 0 && there 1)) && there 2 && there 3 && there 4
  | 4 =>
    let kvf := dN d 88 1
    1 ≤ dN d 84 2 && dN d 84 2 ≤ 4096 && 1 ≤ dN d 86 1 && dN d 86 1 ≤ 16 && dN d 87 1 ≤ 2 && cacheF (bits kvf 3 0) &&
      cacheF (bits kvf 7 4) && dN d 89 1 ≤ 2 && dZero d 90 2 && dZero d 104 8 && there 0 && there 1 && there 2 && there 3
  | 5 => true
  | 6 => [1, 2, 4, 8, 16, 32, 64].contains (dN d 32 1) && dZero d 33 7 && there 0
  | 7 => dN d 48 1 ≤ 2 && dZero d 49 7 && there 0 && (there 1 == (dN d 48 1 == 2))
  | _ => true

/-- Check 1 of Table OPS-4 on the descriptor: head, streams and parameters. -/
def descOk (o : Nat) (d : List Byte) (dlen : Nat) : Bool :=
  let n := dN d 0 1
  let opt := dN d 1 1
  let w (i : Nat) : Nat := dN d (16 + 16 * i) 16
  let spec := opStreams o
  bits opt 7 5 == 0 && (bits opt 3 1 == 0 || bits opt 3 1 == 4) && dZero d 2 6 && n ≤ 12 && 16 + 16 * n ≤ dlen &&
    ((List.range n).all fun i => bits (w i) 127 112 == 0) &&
    (if opBuiltin o then dlen == opDlen o && n == spec.length &&
        ((List.range n).all fun i => bits (w i) 103 64 == 0 ||
          (tst (w i) 105, tst (w i) 106) == spec.getD i (false, false)) && opParams o d
     else true)

/-- Elements of HDIM code 0 to 2 (Table OPS-12). -/
def hdim (c : Nat) : Nat := 64 * 2 ^ c

/-- Bytes of `n` elements of a format in memory (R248). -/
def fmtBytes (f n : Nat) : Nat := fmtBits f * n / 8

/-- The operator's own limits (check 5).  Lookups that OFFS gives are counted when the instance runs. -/
def limitOk (o : Nat) (d : List Byte) : Bool :=
  let ss := strmsOf d
  match o with
  | 1 =>
    let f := bits (dN d 124 1) 3 0
    let red := dN d 125 1
    let bag := dN d 122 2
    fmtBytes f (dN d 120 2) ≤ dN d 128 4 && dN d 112 4 * dN d 128 4 ≤ (strm ss 0).len && dN d 116 4 * bag ≤ 2 ^ 26 &&
      (!tst red 7 || (4 ≤ boxBits f && boxBits f ≤ 8 && bits red 6 4 ≤ 1)) &&
      ((strm ss 5).len == 0 || (3 ≤ f && f ≤ 7) || f == 0xA)
  | 2 => dN d 80 4 * dN d 92 4 ≤ (strm ss 0).len && (bits (dN d 91 1) 1 0 ≠ 2 || 4 * dN d 80 4 ≤ (strm ss 3).len)
  | 4 =>
    let kvf := dN d 88 1
    let toks := dN d 86 1 * dN d 92 4
    dN d 80 4 + dN d 84 2 ≤ dN d 92 4 && fmtBytes (bits kvf 3 0) (toks * hdim (dN d 87 1)) ≤ (strm ss 0).len &&
      fmtBytes (bits kvf 7 4) (toks * hdim (dN d 87 1)) ≤ (strm ss 1).len
  | 5 => (strm ss 0).len == (strm ss 1).len && (strm ss 0).len ≠ 0
  | _ => true

/-- Check 6: the ranges of COPY do not overlap in one space. -/
def overlapOk (o : Nat) (d : List Byte) : Bool :=
  let a := strm (strmsOf d) 0
  let b := strm (strmsOf d) 1
  o ≠ 5 || ptrSpace a.base ≠ ptrSpace b.base ||
    (ptrOff a.base + a.len ≤ ptrOff b.base || ptrOff b.base + b.len ≤ ptrOff a.base)

/-- Modes that Table OPS-7 permits for stream `i`: 0 COHERENT, 1 DIRECT, 2 PUBLISHED. -/
def modesOf (o i : Nat) (wr : Bool) (demand : Option (List Byte)) : Nat → Bool := fun m =>
  match o with
  | 1 => !wr || m == 1
  | 2 => !wr || m == 1
  | 3 => if i ≤ 1 then m ≠ 0 else !wr || m == 1
  | 4 => !wr || m ≠ 0
  | 5 => true
  | 6 => true
  | 7 => !wr || m == 1
  | _ => !wr || m == 1 || (match demand with
    | some x => Config.demandAllows x i m
    | none => false)

/-- The Invoke header (Table OPS-2) of a body. -/
structure InvHdr where
  opid : Nat
  job : Nat
  cform : Nat
  rpkt : Bool
  dloc : Bool
  dlen : Nat
  dptr : Nat
  cptr : Nat
  /-- The fields that must be zero are zero. -/
  zeros : Bool
  deriving DecidableEq, Repr

/-- The Invoke header in a packet. -/
def invHdr (p : Pkt) : InvHdr :=
  let b := p.body.toNat
  { opid := bits b 15 0, job := bits b 31 16, cform := bits b 33 32, rpkt := tst b 34, dloc := tst b 35,
    dlen := bits b 63 48, dptr := bits b 191 128, cptr := bits b 255 192,
    zeros := bits b 39 36 == 0 && bits b 47 40 == 0 && bits b 127 64 == 0 }

/-- The inline descriptor of an Invoke. -/
def inlineDesc (p : Pkt) (n : Nat) : List Byte := natLe n (p.body.toNat / 2 ^ 256)

end Sys2Proof.Machine
end

