-- ==== Sys2Proof/Machine/Disp.lean ====
section
/-! DEFINITION. DISP: invocation and its checks, cancels and kills, how instances start, end and complete, and the knell
(R269 to R288, R307, R367 to R369). -/

namespace Sys2Proof.Machine

/-- Change what DISP holds. -/
def State.setDisp (s : State) (f : Disp → Disp) : State := { s with disp := f s.disp }

/-! ## Answers -/

/-- LF of DISP's responses: the policer's bits, and WAITING instances / 4,096 where the tenant may see load (R361). -/
def State.lfDisp (s : State) (lf tenant : Nat) : Nat :=
  lf + (if s.lfPerm tenant then loadCode (s.disp.insts.filter fun i => i.state == 0).length * 4 else 0)

/-- Header of a response of DISP. -/
def State.dispPkt (s : State) (host tag seq opc len lf tenant : Nat) : Pkt :=
  { pkt0 with opc := BitVec.ofNat 6 opc, len := BitVec.ofNat 5 len, host := BitVec.ofNat 12 host, tag := BitVec.ofNat 15 tag,
              seq := BitVec.ofNat 32 seq, lf := BitVec.ofNat 4 (s.lfDisp lf tenant) }

/-- OpAck (Table OPS-1). -/
def State.opAck (s : State) (p : Pkt) (lf tenant st acc count : Nat) : State :=
  s.sendHost p.host.toNat { s.dispPkt p.host.toNat p.tag.toNat p.seq.toNat 0x3A 3 lf tenant with
    ccx := p.ccx, status := BitVec.ofNat 8 st, body := BitVec.ofNat 2048 (acc + count * 2 ^ 64) }

/-! ## Extents and admission (R274, R270 checks 3 and 4) -/

/-- The one active region in which a range of the pool lies. -/
def State.extentRgn (s : State) (ptr len : Nat) : Option Rgn :=
  match s.rgnAt (ptrSpace ptr) (ptrOff ptr) with
  | some g => if ptrOff ptr + len ≤ (g.base + g.len) * 0x10000 then some g else none
  | none => none

/-- Judge an extent: the cause of Table ADR-10 for which it is not admitted (0 for a region under teardown, which freezes
no host), and its region.  `need` is RD 1 or WR 2; OP
is needed on the space (R270). -/
def State.judgeExtent (s : State) (atts : List Attach) (ptr len need : Nat) : Option Nat × Option Rgn :=
  let sp := ptrSpace ptr
  let mine := atts.filter fun a => a.spaceLo ≤ sp && sp ≤ a.spaceHi
  if mine.isEmpty then (some 1, none)
  else
    match s.extentRgn ptr len with
    | none => (some (if s.goneAt sp (ptrOff ptr) then 0 else 3), none)
    | some g =>
      match judgeAtts mine g need with
      | some c => (some c, some g)
      | none => (judgeAtts mine g 8, some g)

/-- The extents of an invocation: pool pointer, length, right, and its stream (`none` for the descriptor and CPTR). -/
def extentsOf (h : InvHdr) (ss : List Strm) : List (Nat × Nat × Nat × Option Nat) :=
  (if h.dloc then [(h.dptr, h.dlen, 1, none)] else []) ++
  (if h.cform = 0 then [] else [(h.cptr, if h.cform = 2 then 8 else 128, 2, none)]) ++
  ((List.range ss.length).filterMap fun i =>
    let x := strm ss i
    if x.len = 0 then none else some (x.base, x.len, if x.wr then 2 else 1, some i))

/-- Check 2: the pointers (R32) and their alignment. -/
def pointersOk (h : InvHdr) (ss : List Strm) : Bool :=
  (!h.dloc || (ptrOk h.dptr && h.dptr % 128 == 0)) &&
  (h.cform == 0 || (ptrOk h.cptr && h.cptr % (if h.cform = 2 then 8 else 128) == 0)) &&
  ss.all fun x => x.len == 0 || ptrOk x.base

/-- Place of a cause in the order of R59. -/
def causeRank : Nat → Nat
  | 5 => 0 | 1 => 1 | 3 => 2 | 6 => 3 | 2 => 4 | _ => 5

/-- Check 3: cause of the violation, the first in the order of R59 over all extents, or none, and the tenant of the extents. -/
def State.admitExtents (s : State) (atts : List Attach) (es : List (Nat × Nat × Nat × Option Nat)) : Option Nat × Option Nat :=
  let js := es.map fun e => s.judgeExtent atts e.1 e.2.1 e.2.2.1
  let ts := js.filterMap fun j => j.2.map (·.tenant)
  let cs := js.filterMap (·.1) ++ (match ts with
    | [] => []
    | t :: us => if us.all (· == t) then [] else [6])
  (minBy? causeRank cs, ts.head?)

/-- Section `i` of an image: its type and its offset (Table PAT-5). -/
def sectDesc (img : List Byte) (i : Nat) : Nat × Nat := (dN img (64 + 8 * i) 2, dN img (68 + 8 * i) 4)

/-- Bytes of section `i`: up to the next section or the end. -/
def sectBytes (img : List Byte) (i : Nat) : List Byte :=
  let e := if i + 1 < dN img 18 1 then (sectDesc img (i + 1)).2 else dN img 8 4
  sliceZ img (sectDesc img i).2 (e - (sectDesc img i).2)

/-- Index of the first section of a type. -/
def sectIdx (img : List Byte) (ty : Nat) : Option Nat :=
  (List.range (dN img 18 1)).find? fun i => (sectDesc img i).1 == ty

/-- Bytes of the first section of a type. -/
def sectOf (img : List Byte) (ty : Nat) : List Byte := ((sectIdx img ty).map (sectBytes img)).getD []

/-- The DEMAND section of the image of a loaded placement of the operator, lowest number first. -/
def State.demandOf (s : State) (opid : Nat) : Option (List Byte) :=
  (minBy? (fun p => p.num) (s.disp.places.filter fun p => p.opid == opid)).map fun p => sectOf p.image 6

/-- Check 4: the modes of Table OPS-7. -/
def State.modesOk (s : State) (h : InvHdr) (ss : List Strm) (es : List (Nat × Nat × Nat × Option Nat)) : Bool :=
  let dem := s.demandOf h.opid
  es.all fun e =>
    match s.rgnAt (ptrSpace e.1) (ptrOff e.1), e.2.2.2 with
    | some g, some i => modesOf h.opid i (strm ss i).wr dem g.mode
    | some g, none => e.2.2.1 == 1 || (if h.cform = 2 then g.mode == 1 else g.mode ≠ 2)
    | none, _ => false

/-! ## Placements that an instance may use (R280, R212, R475) -/

/-- Is every site of the placement served by an ACTIVE tile? -/
def State.placeServed (s : State) (p : Placement) : Bool := p.sites.all fun e => (s.server e.1).isSome

/-- Has a home slice failed, so that its home-port plan serves nothing (R424)? -/
def State.homeDown (s : State) (k : Nat) : Bool := s.rd (F.homeHavlState k) ≠ 0

/-- Does the placement have a LOST site?  One with home-port slots counts as such while a home slice is FAILED (R424). -/
def State.placeLost (s : State) (p : Placement) : Bool :=
  (p.sites.any fun e => s.tiles.lost.contains e.1) || (!p.home.isEmpty && (List.range 64).any s.homeDown)

/-- Does the instance's job wait for its dump records and tile resets (R462)? -/
def State.dumping (s : State) (i : Inst) : Bool := s.disp.dumps.any fun d => d.tenant == i.tenant && d.job == i.job

/-- Does a placement wait for the tile resets of a job that ran on it? -/
def State.placeDumping (s : State) (n : Nat) : Bool := s.disp.insts.any fun i => i.place == some n && i.state == 2 && s.dumping i

/-- May the tenant's instances use the placement?  Under strict partition only strips of its partition serve it. -/
def State.placeFor (s : State) (p : Placement) (tenant : Nat) : Bool :=
  match s.strictOf tenant with
  | some g => (List.range p.height).all fun k => tst (s.rd (F.secPartStrips g)) (p.strip + k)
  | none => true

/-- Tiles that serve a placement. -/
def State.placeTiles (s : State) (p : Placement) : List Nat := p.sites.filterMap fun e => s.server e.1

/-! ## INVOKE (R270 to R273) -/

/-- Number of job entries in use, of a share. -/
def State.jobsOf (s : State) (tenant : Option Nat) : List (Nat × Nat) :=
  dedup ((s.disp.insts.filter fun i => match tenant with
    | some t => s.strictOf i.tenant == s.strictOf t
    | none => true).map fun i => (i.tenant, i.job))

/-- Depths lowered until the locked entries fit (R48): the largest DEPTH by one, the first of equals. -/
def fitDepths : Nat → List Strm → List Strm × Bool
  | 0, ss => (ss, false)
  | n + 1, ss =>
    let seqs := ss.filter fun x => !x.gath && x.len ≠ 0
    if (seqs.map fun x => x.depth + 1).foldl (· + ·) 0 ≤ 64 then (ss, false)
    else
      let top := seqs.foldl (fun m x => max m x.depth) 0
      let i := ss.findIdx fun x => !x.gath && x.len ≠ 0 && x.depth == top
      let x := strm ss i
      ((fitDepths n (ss.set i { x with depth := x.depth - 1 })).1, true)

/-- The first failing check of Table OPS-4, with the cause of an admission violation: `none` accepts. -/
def State.invokeChecks (s : State) (h : InvHdr) (d : List Byte) (atts : List Attach) : Option (Nat × Nat) × Nat :=
  let ss := strmsOf d
  let es := extentsOf h ss
  let (cause, ten) := s.admitExtents atts es
  let tenant := ten.getD (((atts.head?).map (·.tenant)).getD 0)
  let places := s.disp.places.filter fun p => p.opid == h.opid
  let free := s.disp.insts.filter fun i => s.strictOf i.tenant == s.strictOf tenant
  let jobs := s.jobsOf (some tenant)
  let share := fun n => if s.on F.secPartCtlEn then s.shareOf n tenant else n
  let r :=
    if !(h.zeros && opKnown h.opid && descOk h.opid d h.dlen) then some (2, 0)
    else if !(pointersOk h ss) then some (3, 0)
    else match cause with
      | some c => some (5, c)
      | none =>
        if !(s.modesOk h ss es) then some (6, 0)
        else if !(limitOk h.opid d) then some (7, 0)
        else if !(overlapOk h.opid d) then some (8, 0)
        else if !(places.any fun p => !s.placeLost p && s.placeFor p tenant) then some (4, 0)
        else if !(s.on F.dispOpsCtlEn) || share 4096 ≤ free.length || 4096 ≤ s.disp.insts.length ||
            (!jobs.contains (tenant, h.job) && share 1024 ≤ jobs.length) then some (1, 0)
        else none
  (r, tenant)

/-- Refuse an Invoke: OpAck with the status; a failed check 3 is an admission violation (R271). -/
def State.refuseInvoke (s : State) (p : Pkt) (lf tenant st cause : Nat) : State :=
  let h := p.host.toNat
  let s := s.tel blkDisp 0x02 st 1
  let s := if st = 5 && cause ≠ 0 then s.violate blkDisp h p.port.val tenant cause else s
  let s := s.recPut h p.tag.toNat p.seq.toNat 0x38 2 st 0 (s.leaseOf h).epoch 0
  s.opAck p lf (if st = 5 then 256 else tenant) st 0 0

/-- Judge an Invoke whose descriptor is at hand, and accept it into the lowest free instance entry (R272). -/
def State.invokeWith (s : State) (p : Pkt) (atts : List Attach) (lf : Nat) (d : List Byte) : State :=
  let h := invHdr p
  match s.invokeChecks h d atts with
  | (some (st, cause), tenant) => s.refuseInvoke p lf tenant st cause
  | (none, tenant) =>
    match findLow 4096 fun i => (s.inst? i).isNone with
    | none => s
    | some i =>
      let (ss, red) := fitDepths 256 (strmsOf d)
      let x : Inst := {
        idx := i, host := p.host.toNat, tag := p.tag.toNat, seq := p.seq.toNat, port := p.port.val, opid := h.opid,
        job := h.job, tenant := tenant, cform := h.cform, rpkt := h.rpkt, cptr := h.cptr, desc := d, streams := ss,
        pos := [], accBeat := s.beat, state := 0, place := none, round := 0, phase := 0, bodyAt := none, ran := none, again := false,
        readErr := false, errRuns := 0,
        dones := [], done := false, status := 0, stopping := none, recon := [], descAt := 0, mute := false, flags := 0,
        depthRed := red, dyn := false, ndata := 0, poisoned := 0, skipped := 0, slips := 0, repeats := 0, endBeat := 0,
        result := 0, since := s.beat }
      let s := (s.tel blkDisp 0x01 h.opid 1).ten tenant 4 1
      let pins := dedup (ss.filterMap fun y =>
        if y.len = 0 || y.wr then none
        else match s.rgnAt (ptrSpace y.base) (ptrOff y.base) with
          | some g => if g.mode = 2 then some (g.id, g.version) else none
          | none => none)
      let s := { s with pub := { s.pub with
        pins := s.pub.pins ++ pins.map fun g => (⟨g.1, g.2, 0x10000 + i, s.beat⟩ : Pin) } }
      let s := each pins (fun g s => s.pubSync g.1) s
      let s := s.recPut p.host.toNat p.tag.toNat p.seq.toNat 0x38 2 0 0 (s.leaseOf p.host.toNat).epoch 0
      let s := s.stage p.host.toNat p.tag.toNat 4
      (s.setDisp fun x' => { x' with insts := x'.insts ++ [x] }).opAck p lf tenant 0 s.beat 0

/-- Descriptor reads whose lines have all come back: the Invoke goes on; a poisoned descriptor fails check 1 (R270). -/
def State.resumeInvokes (s : State) : State :=
  each s.disp.descs (fun (e : DescRead) (s : State) =>
    let h := invHdr e.pkt
    let n := ceilDiv h.dlen 128
    let got := s.disp.reads.filter fun r => r.1 == 0x1000 + e.id
    let line (k : Nat) := got.find? fun r => r.2.1 == h.dptr + 128 * k
    if (List.range n).all fun k => (line k).isSome then
      let d := ((List.range n).flatMap fun k => ((line k).map fun r => lineBytes r.2.2.1).getD []).take h.dlen
      let bad := got.any fun r => r.2.2.2
      let s := s.setDisp fun x => { x with
        descs := x.descs.filter (fun y => y.id ≠ e.id), reads := x.reads.filter fun r => r.1 ≠ 0x1000 + e.id }
      if bad then (s.raise blkDisp 6 none).refuseInvoke e.pkt e.lf (((e.atts.head?).map (·.tenant)).getD 0) 2 0
      else s.invokeWith e.pkt e.atts e.lf d
    else s) s

/-- An access that DISP makes itself: its packet on the mesh, marked (Table TIL-3). -/
def dispMsg (job ptr : Nat) : MPkt where
  dx := 62
  dy := 0
  sx := 62
  sy := 0
  vn := false
  cls := false
  mc := 0
  mlo := 0
  mhi := 0
  len := 0
  ce := false
  cee := false
  cc := 0
  seq := 0
  op := opDisp
  size := 0
  addr := BitVec.ofNat 64 ptr
  job := BitVec.ofNat 16 job
  status := 0
  raddr := 0
  inl := 0
  inlPoison := false
  flits := []

/-- A request of DISP to the home of a line. -/
def dispReq (op job ptr tenant beat : Nat) : HomeReq :=
  { req0 with op := op, addr := ptr, tile := some (dispMsg job ptr), tenant := tenant, job := job, arrive := beat }

/-- Send a request of DISP to its home. -/
def State.dispAsk (s : State) (r : HomeReq) : State := (s.submit (homeOfPtr r.addr) r).settle (homeOfPtr r.addr)

/-- Are requests of DISP for this job number still unanswered? -/
def State.dispBusy (s : State) (job : Nat) : Bool :=
  let mine (r : HomeReq) : Bool := match r.tile with
    | some m => decide (m.op = opDisp) && m.job.toNat == job
    | none => false
  (s.homes.txns.any fun t => mine t.req) || (s.homes.chain.any fun e => mine e.2) || (s.homes.pendq.any fun e => mine e.2) ||
    (s.homes.chanWait.any fun e => mine e.2) || (s.peers.any fun e => mine e.req) ||
    (s.pub.copies.any fun c => c.waiting.any mine) ||
    ((s.homes.faults ++ s.homes.faultWait).any fun f => match f.waiter with | .req r => mine r | _ => false) ||
    s.homes.recs.any fun x => x.waiters.any fun w => match w with | .req r => mine r | _ => false

/-- INVOKE at DISP: a re-issue is answered from what DISP keeps, a descriptor at DPTR is read with RdCur semantics, and
the checks decide (R270 to R273, R356). -/
def State.invoke (s : State) (p : Pkt) : State :=
  let p := { p with opc := 0x38 }
  let s0 := s
  let (e, s) := s.takeRouted p
  let atts := e.atts
  let lf := e.lf
  let h := p.host.toNat
  let t := p.tag.toNat
  let q := p.seq.toNat
  let ten := ((atts.head?).map (·.tenant)).getD 0
  let live := s.disp.insts.find? fun i => i.host == h && i.tag == t && i.seq == q
  let old := s.disp.recs.find? fun r => r.host == h && r.tag == t && r.seq == q
  let (o, s) := s.recJudge (recHome h t) h t q 0x38 0 (s.leaseOf h).epoch false
  match o with
  | .held _ => s0
  | .cmp c => s.replyCmp (recHome h t) { (s.homeReqOf p e) with tenant := ten } c
  | .drop => s
  | .regrant => s
  | .again st _ =>
    match live, old with
    | some i, _ => s.opAck p lf ten 0 i.accBeat 0
    | none, some r =>
      let s := s.opAck p lf ten 0 r.acc 0
      match r.done with
      | some k => s.sendHost h k
      | none => s
    | none, none => s.opAck p lf ten st 0 0
  | .fresh =>
    if s.disp.descs.any fun e => e.pkt == p then s
    else
      let hd := invHdr p
      if !hd.dloc then
        if hd.zeros && opKnown hd.opid && (hd.dlen < 16 || 224 < hd.dlen) then s.refuseInvoke p lf ten 2 0
        else s.invokeWith p atts lf (inlineDesc p hd.dlen)
      else if !(ptrOk hd.dptr && hd.dptr % 128 == 0) then s.refuseInvoke p lf ten 3 0
      else
        match s.judgeExtent atts hd.dptr hd.dlen 1 with
        | (some c, _) => s.refuseInvoke p lf ten 5 c
        | (none, g) =>
          if !(hd.zeros && opKnown hd.opid) || hd.dlen < 16 || 4096 < hd.dlen then s.refuseInvoke p lf ten 2 0
          else
            let id := (findLow 0x8000 fun i => !(s.disp.descs.any fun e => e.id == i)).getD 0
            let s := s.setDisp fun x => { x with descs := x.descs ++ [⟨id, p, atts, lf⟩] }
            let tn := (g.map (·.tenant)).getD ten
            let s := each (List.range (ceilDiv hd.dlen 128)) (fun k s =>
              s.dispAsk (dispReq 4 (0x1000 + id) (hd.dptr + 128 * k) tn s.beat)) s
            s.resumeInvokes

/-! ## Ending early (R284 to R287) -/

/-- Instances of a job, whatever their state. -/
def State.jobInsts (s : State) (tenant job : Nat) : List Inst :=
  s.disp.insts.filter fun i => i.tenant == tenant && i.job == job

/-- Is the instance still to be ended: WAITING or RUNNING and not stopping or done? -/
def Inst.ends (i : Inst) : Bool := i.state == 0 || (i.state == 1 && i.stopping.isNone && !i.done)

/-- End every instance of a job with a status, and the number ended. -/
def State.endJob (s : State) (tenant job status : Nat) : Nat × State :=
  let l := (s.jobInsts tenant job).filter (·.ends)
  (l.length, each l (fun i s => s.stopInst i.idx status) s)

/-- Do the attachments grant OP on some space of the tenant (R284)? -/
def opGrant (atts : List Attach) (tenant : Nat) : Bool := atts.any fun a => a.tenant == tenant && a.rights &&& 8 == 8

/-- CANCEL at DISP: an event of class 9; OpAck with COUNT. -/
def State.cancel (s : State) (p : Pkt) : State :=
  let p := { p with opc := 0x39 }
  let s0 := s
  let (e, s) := s.takeRouted p
  let atts := e.atts
  let lf := e.lf
  let h := p.host.toNat
  let t := p.tag.toNat
  let b := p.body.toNat
  let ten := ((atts.head?).map (·.tenant)).getD 0
  let (o, s) := s.recJudge (recHome h t) h t p.seq.toNat 0x39 0 (s.leaseOf h).epoch false
  match o with
  | .held _ => s0
  | .cmp c => s.replyCmp (recHome h t) { (s.homeReqOf p e) with tenant := ten } c
  | .drop => s
  | .regrant => s
  | .again st res => s.opAck p lf ten st 0 (bits res 12 0)
  | .fresh =>
    let s := s.raise blkDisp 9 none
    let (n, s) :=
      if tst b 16 then
        if opGrant atts (bits b 39 32) then s.endJob (bits b 39 32) (bits b 15 0) 0x09 else (0, s)
      else
        let l := s.disp.insts.filter fun i => i.host == h && i.tag == bits b 31 17 && i.ends
        (l.length, each l (fun i s => s.stopInst i.idx 0x09) s)
    (s.recPut h t p.seq.toNat 0x39 2 0 0 (s.leaseOf h).epoch n).opAck p lf ten 0 0 n

/-- What JOB_KILL.GO does: every instance of the job ends with CANCELLED; BUSY until they have (R284). -/
def hookJobKill : Hook := fun v s =>
  if !tst v 24 then (s, 0)
  else if s.on F.dispJobKillBusy then (s, fBusy)
  else
    let (n, s) := s.endJob (s.rd F.dispJobKillTenant) (s.rd F.dispJobKillJob) 0x09
    ((s.wr F.dispJobKillCount n).wr F.dispJobKillBusy (if n = 0 then 0 else 1), 0)

/-- Keep JOB_KILL.BUSY: it clears when every instance of the job has ended. -/
def State.killSync (s : State) : State :=
  if s.on F.dispJobKillBusy &&
      !((s.jobInsts (s.rd F.dispJobKillTenant) (s.rd F.dispJobKillJob)).any fun i => i.state ≤ 1) then
    s.wr F.dispJobKillBusy 0
  else s

/-- A host's lease has ended: its instances end with LEASE_EXPIRED, without OpData and OpDone (R285). -/
def State.leaseInsts (s : State) (h : Nat) : State :=
  let l := s.disp.insts.filter fun i => i.host == h && i.state ≤ 2
  each l (fun i s => (s.setInst i.idx fun x => { x with mute := true }).stopInst i.idx 0x0A) s

/-- A region is deactivated or torn down: instances with a stream in it end with REGION_GONE (Table OPS-9). -/
def State.regionInsts (s : State) (g : Rgn) : State :=
  let l := s.disp.insts.filter fun i => i.streams.any fun x => x.len ≠ 0 && g.covers (ptrSpace x.base) (ptrOff x.base)
  each l (fun i s => s.stopInst i.idx 0x0E) s

/-- RUNNING instances that were told to stop have stopped at this mesh-bar boundary (R284). -/
def State.stopNow (s : State) : State :=
  (s.setDisp fun d => { d with insts := d.insts.map fun i =>
    match i.state, i.stopping with
    | 1, some c => { i with state := 2, status := c, endBeat := s.beat, bodyAt := none }
    | _, _ => i }).killSync

/-! ## Starting (R280, R470) -/

/-- Do positions of a placement still wait for a takeover before DISP can arm them (R141)? -/
def State.bindsWait (s : State) (p : Placement) : Bool := s.disp.binds.any fun b => b.2.2 ≠ 0 && p.dram.contains (b.1, b.2.1)

/-- The instance and placement that DISP starts next for an OPID. -/
def State.nextStart (s : State) (opid : Nat) : Option (Inst × Placement) :=
  let w := s.disp.insts.filter fun i => i.opid == opid && i.state == 0
  let key (i : Inst) : Nat := i.accBeat * 64 + i.port
  match minBy? key w with
  | none => none
  | some i =>
    let pa := (s.disp.insts.filter fun j => j.opid == 3 && j.state == 1).length
    if opid = 3 && s.rd F.dispOpsCtlPaMax ≤ pa then none
    else
      let ok := s.disp.places.filter fun p => p.opid == opid && !p.unloading && p.ready ≤ s.beat && !s.bindsWait p && s.slotsServe p && s.placeServed p &&
        !s.placeLost p && (s.instOn p.num).isNone && !s.placeDumping p.num && s.placeFor p i.tenant &&
        (s.placeTiles p).all fun t =>
          let l := SMap.get 0 s.disp.lastTen t
          l == 0 || l == i.tenant + 1
      (minBy? (fun p => p.num) ok).map fun p => (i, p)

/-- Start the next instance of an OPID: RUNNING on its placement, its cores' flags cleared (R256); the answer names it. -/
def State.startInst (s : State) (opid : Nat) : Option Inst × State :=
  match s.nextStart opid with
  | none => (none, s)
  | some (i, p) =>
    let keys := p.sites.flatMap fun e => match s.server e.1 with
      | some t => e.2.map fun c => 128 * t + c
      | none => []
    let cores := keys.foldl (fun m k =>
      match m.find? fun e => e.1 == k with
      | some e => SMap.set CoreSt.reset m k { e.2 with flags := 0, ended := false, waiting := none }
      | none => m) s.tiles.cores
    let s := s.setTiles fun t => { t with cores := cores }
    let s := s.setDisp fun d => { d with
      lastTen := (s.placeTiles p).foldl (fun m t => SMap.set 0 m t (i.tenant + 1)) d.lastTen,
      places := d.places.map (fun x => if x.num = p.num then { x with tenant := some i.tenant } else x) }
    let s := s.setInst i.idx fun x => { x with state := 1, since := s.beat, place := some p.num }
    let s := s.stage i.host i.tag 5
    let s := if (p.phase 0).kind ≠ 0 then s.stage i.host i.tag 6 else s
    (s.inst? i.idx, s)

/-! ## Completion (R282, R283, R285, R368) -/

/-- OR of the flags of every core of an instance. -/
def State.instFlags (s : State) (i : Inst) : Nat :=
  match i.place.bind s.place? with
  | none => i.flags
  | some p => p.sites.foldl (fun f e => match s.server e.1 with
    | some t => e.2.foldl (fun f c => f ||| (s.core (128 * t + c)).flags) f
    | none => f) i.flags

/-- The completion record (Table OPS-8). -/
def recordOf (i : Inst) : Nat :=
  i.opid + i.job * 2 ^ 16 + i.host * 2 ^ 32 + i.tag * 2 ^ 48 + i.status * 2 ^ 64 + i.flags % 64 * 2 ^ 72 +
    (if i.depthRed then 2 ^ 80 else 0) + (if i.dyn then 2 ^ 81 else 0) + i.ndata % 2 ^ 32 * 2 ^ 96 + i.accBeat * 2 ^ 128 +
    i.endBeat * 2 ^ 192 + i.poisoned % 2 ^ 32 * 2 ^ 256 + i.skipped % 2 ^ 32 * 2 ^ 288 + i.slips % 2 ^ 32 * 2 ^ 320 +
    i.repeats % 2 ^ 32 * 2 ^ 352 + i.result.toNat * 2 ^ 512

/-- INSTANCE_COMPLETE: an instance whose work and pool writes are done, or that has ended early, writes its record or
performs its fetch-add at CPTR, and gives back its pins and its placement (R282, R115). -/
def State.instComplete (s : State) (n : Nat) : State :=
  match s.inst? n with
  | none => s
  | some i =>
    if !((i.state == 2 || (i.state == 1 && i.done && i.stopping.isNone)) && !s.dispBusy n) || s.dumping i then s
    else
      let fin := i.state == 1
      let s := s.setInst n fun x => { x with
        state := 3, flags := s.instFlags i, bodyAt := none, status := if fin then 0 else x.status,
        endBeat := if fin then s.beat else x.endBeat }
      let i := (s.inst? n).getD i
      let s := (s.track i.host i.tag fun x => { x with status := i.status }).stage i.host i.tag 7
      let gs := dedup ((s.pub.pins.filter fun p => p.holder == 0x10000 + n).map (·.region))
      let s := each gs (fun g s => s.unpin g fun p => p.holder == 0x10000 + n) s
      let s := { s with mem := { s.mem with recon := s.mem.recon.filter fun e => !i.recon.contains e.1 } }
      let s := if i.cform = 1 || i.cform = 3 then
          s.dispAsk { dispReq 0x122 n i.cptr i.tenant s.beat with
            mask := BitVec.allOnes 128, data := BitVec.ofNat 1024 (recordOf i) }
        else if i.cform = 2 then
          s.dispAsk { dispReq 0x101 n i.cptr i.tenant s.beat with aop := 1, size := 3, operands := 1 }
        else s
      s.killSync

/-- A Knell by carillon to KNELL_PORTS except one port (R365, R368, R369). -/
def State.sendKnell (s : State) (job tenant cause hops kseq origin : Nat) (but : Option Nat) : State :=
  let ps := match but with
    | some p => setBits (s.rd F.xbarKnellPortsPorts) p p 0
    | none => s.rd F.xbarKnellPortsPorts
  let b := job + tenant * 2 ^ 16 + cause % 16 * 2 ^ 24 + hops * 2 ^ 28 + kseq * 2 ^ 32 + origin * 2 ^ 64
  s.carFill ⟨0, { pkt0 with opc := 0x2D, len := 3, host := 0xFFF, body := BitVec.ofNat 2048 b }, [], ps⟩

/-- A job has ended on this T7 with CANCELLED, HANG or TILE_FAULT: a Knell while EN is 1 (R368). -/
def State.jobKnell (s : State) (tenant job status : Nat) : State :=
  if !s.on F.xbarKnellEn || !(status == 0x09 || status == 0x0C || status == 0x0B) then s
  else
    let q := s.hosts.kseq
    let s := { s with hosts := { s.hosts with kseq := (q + 1) % 2 ^ 32 } }
    (s.sendKnell job tenant status (s.rd F.xbarKnellHops) q (s.rd (F.fportEndIdId 0)) none).inc F.xbarKnellSent

/-- An instance's locks go when its entry is freed. -/
def State.dropLocks (s : State) (n : Nat) : State :=
  { s with homes := { s.homes with tlb := s.homes.tlb.filter fun t => match t.lock with
    | some l => l.1 ≠ n
    | none => true } }

/-- OPDONE_SEND: after the CPTR write, OpDone when CFORM asks for it, and the entry is freed (R282, R285). -/
def State.opDone (s : State) (n : Nat) : State :=
  match s.inst? n with
  | none => s
  | some i =>
    if !(i.state == 3) || s.dispBusy n then s
    else
      let k : Pkt := { s.dispPkt i.host i.tag i.seq 0x3C 10 0 i.tenant with body := BitVec.ofNat 2048 (recordOf i) }
      let told := i.cform ≠ 3 && !i.mute
      let s := if told then s else s.stage i.host i.tag 8
      let s := if told then s.sendHost i.host k else s
      let s := (s.tel blkDisp 0x03 i.status 1).ten i.tenant (if i.status = 0 then 10 else 11) 1
      let s := s.ten i.tenant 12 (i.endBeat - i.accBeat)
      let s := s.setDisp fun d => { d with
        insts := d.insts.filter (fun x => x.idx ≠ n),
        reads := d.reads.filter (fun r => r.1 ≠ n),
        recs := (d.recs.filter fun r => !(r.host == i.host && r.tag == i.tag)) ++
          [⟨i.host, i.tag, i.seq, i.accBeat, if told then some k else none⟩] }
      let s := s.dropLocks n
      let s := if (s.jobInsts i.tenant i.job).isEmpty then s.jobKnell i.tenant i.job i.status else s
      s.killSync

/-- One line of result as OpData (R283), counted in NDATA; a muted instance sends none (R285). -/
def State.sendOpData (s : State) (n stream off : Nat) (d : Line) (po : Bool) : State :=
  match s.inst? n with
  | none => s
  | some i =>
    if i.mute then s
    else
      let k : Pkt := { s.dispPkt i.host i.tag i.seq 0x3B 11 0 i.tenant with
        poison := po, body := BitVec.ofNat 2048 (stream % 16 + off % 2 ^ 40 * 16 + d.toNat * 2 ^ 128) }
      let s := ((s.sendHost i.host k).tel blkDisp 0x04 0 1).ten i.tenant 13 (if po then 1 else 0)
      s.setInst n fun x => { x with ndata := x.ndata + 1, poisoned := x.poisoned + (if po then 1 else 0) }

/-! ## The knell received (R367, R369) -/

/-- KNELL: a received Knell, while enabled, ends every instance of the named job and is forwarded. -/
def State.knell (s : State) (p : Pkt) : State :=
  let p := { p with opc := 0x2D }
  let (_, s) := s.takeRouted p
  let b := p.body.toNat
  let k := p.port.val
  let ten := bits b 23 16
  let key := (bits b 127 64, bits b 63 32)
  let drop : State := s.tel (blkXbar (k / 32)) 0x07 0 1
  if !s.on F.xbarKnellEn then drop
  else
    let s := s.raise blkDisp 9 none
    if !tst (s.rd F.xbarKnellPortsPorts) k || s.hosts.knells.contains key then s.tel (blkXbar (k / 32)) 0x07 0 1
    else if p.host ≠ 0xFFF && !opGrant (s.attach p.host.toNat none) ten then s.tel (blkXbar (k / 32)) 0x07 0 1
    else
      let l := s.hosts.knells ++ [key]
      let s := { s with hosts := { s.hosts with knells := if 256 < l.length then l.drop 1 else l } }
      let s := s.inc F.xbarKnellActed
      let (_, s) := s.endJob ten (bits b 15 0) 0x09
      let hops := bits b 30 28
      if hops = 0 then s
      else (s.sendKnell (bits b 15 0) ten (bits b 27 24) (hops - 1) key.2 key.1 (some k)).inc F.xbarKnellSent

/-! ## Rows -/

/-- INVOKE. -/
def execInvoke (p : Pkt) (s : State) : Host.Outcome State Fault Refusal := live s fun s => s.invoke p

/-- CANCEL. -/
def execCancel (p : Pkt) (s : State) : Host.Outcome State Fault Refusal := live s fun s => s.cancel p

/-- JOB_KILL. -/
def execJobKill (tenant : BitVec 8) (job : BitVec 16) (c : Cmd) (s : State) : Host.Outcome State Fault Refusal :=
  live s fun s => s.ctlWrite F.dispJobKillGo.csa
    (s.compose F.dispJobKillGo.csa [(F.dispJobKillJob, job.toNat), (F.dispJobKillTenant, tenant.toNat), (F.dispJobKillGo, 1)])
    c hookJobKill

/-- INSTANCE_COMPLETE of an instance entry. -/
def execInstanceComplete (i : BitVec 12) (s : State) : Host.Outcome State Fault Refusal := live s fun s => s.instComplete i.toNat

/-- OPDONE_SEND of an instance entry. -/
def execOpdoneSend (i : BitVec 12) (s : State) : Host.Outcome State Fault Refusal := live s fun s => s.opDone i.toNat

/-- KNELL. -/
def execKnell (p : Pkt) (s : State) : Host.Outcome State Fault Refusal := live s fun s => s.knell p

end Sys2Proof.Machine
end

