-- ==== Sys2Proof/Machine/Dram.lean ====
section
/-! DEFINITION. DRAM channels: slot plans and their checks, training, fencing, power, rebuild and the channel's
maintenance (R125 to R131, R135 to R151, R415, R416, R536). -/

namespace Sys2Proof.Machine

/-! ## Plans (R135 to R141) -/

/-- Entry `i` (64 × sub + position) of a channel's shadow or active plan. -/
def State.planEntry (s : State) (k : Nat) (active : Bool) (i : Nat) : Nat :=
  let w := s.reg (blkDch k * 0x100000 + (if active then 0xA00 else 0x800) + 8 * (i / 2))
  bits w (32 * (i % 2) + 31) (32 * (i % 2))

/-- Fields of a plan entry (Table DRM-5). -/
def planKind (e : Nat) : Nat := bits e 2 0
def planDir (e : Nat) : Nat := bit e 3
def planSet (e : Nat) : Nat := bit e 4 * 4 + bits e 6 5
def planLock (e : Nat) : Bool := tst e 7
def planLend (e : Nat) : Bool := tst e 8
def planGroup (e : Nat) : Nat := bits e 16 9

/-- Positions on from `a` to `b`, counting round the bar: 1 to 64. -/
def barDist (a b : Nat) : Nat := (b + 63 - a) % 64 + 1

/-- Does entry `i` of a plan break the check with this code of Table DRM-7?  `e` gives the entries, `old` those of the
active plan, `running` the groups with a running instance.  Checks 2 and 3 use the distances of Table DRM-4. -/
def planBreaks (e old : Nat → Nat) (running : Nat → Bool) (code i : Nat) : Bool :=
  let sub := i / 64
  let p := i % 64
  let row (q : Nat) := e (64 * sub + q)
  let x := e i
  let pats := findAll 64 fun q => planKind (row q) == 1
  match code with
  | 1 => 4 < planKind x || bits x 31 17 ≠ 0
  | 2 =>
    let refs (t : Nat) := findAll 64 fun q => planKind (row q) == 2 && planSet (row q) == t
    if p = 0 && ((List.range 8).any fun t => (refs t).isEmpty) then true
    else planKind x == 2 &&
      ((refs (planSet x)).headD p ≠ p ||
       (pats.any fun q => planSet (row q) == planSet x && (barDist q p < 9 || barDist p q < 48)))
  | 3 => planKind x == 1 &&
      (let same := pats.filter fun q => planSet (row q) == planSet x
       (same.any fun q => q ≠ p && (barDist q p < 2 || (planDir (row q) == 1 && planDir x == 0 && barDist q p < 4))) ||
         4 < (same.filter fun q => barDist q p < 8 || q = p).length)
  | 4 => p = 0 && !((List.range 64).any fun q => planKind (row q) == 3)
  | 5 => planKind x == 1 && 48 < (pats.filter fun q => q ≤ p).length
  | _ => planKind (old i) == 1 && running (planGroup (old i)) &&
      !(planKind x == 1 && planDir x == planDir (old i) && planSet x == planSet (old i) && planGroup x == planGroup (old i))

/-- The first check of Table DRM-7 that a channel's shadow plan fails, and the first entry that fails it (R138). -/
def State.planCheck (s : State) (k : Nat) (running : Nat → Bool) : Option (Nat × Nat) :=
  [1, 2, 3, 4, 5, 6].findSome? fun c =>
    (findLow 128 (planBreaks (s.planEntry k false) (s.planEntry k true) running c)).map fun i => (c, i)

/-- PLAN_CTL.ARM by firmware or, with `byDisp`, by DISP (R138, R139, R141). -/
def State.armPlan (s : State) (k : Nat) (running : Nat → Bool) (byDisp : Bool) : State × Nat :=
  if s.on (F.dchPlanCtlArmed k) then (s, fBusy)
  else match s.planCheck k running with
    | some (c, i) => ((s.wr (F.dchPlanCtlStatus k) c).wr (F.dchPlanCtlFailPos k) i, fRefused)
    | none =>
      let at_ := max (s.rd (F.dchPlanAtBeat k)) (s.eff + 16)
      (((s.wr (F.dchPlanCtlStatus k) 0).wr (F.dchPlanCtlArmed k) 1).wr (F.dchPlanCtlBydisp k)
        (if byDisp then 1 else 0) |>.wr (F.dchPlanAtBeat k) at_, 0)

/-- A write of PLAN_CTL; a PLAN_AT that the ARM clamps is recorded as such (R139, R509). -/
def hookPlanCtl (k : Nat) (running : Nat → Bool) (writer : Nat) : Hook := fun v s =>
  if tst v 0 then
    let old := s.rd (F.dchPlanAtBeat k)
    let (s', f) := s.armPlan k running false
    let at_ := s'.rd (F.dchPlanAtBeat k)
    (if at_ = old then s' else s'.clampEntry (blkDch k) 0x208 writer fRange old at_, f)
  else (s, 0)

/-- A firmware write to a word of the shadow plan (R139, R141): GROUP stays, reserved bits stay zero, and the write is
discarded while a plan is armed. -/
def hookPlanWord (k csa old : Nat) : Hook := fun v s =>
  if s.on (F.dchPlanCtlArmed k) then (s, fBusy)
  else
    let half (x o : Nat) := setBits (bits x 16 0) 16 9 (planGroup o)
    (s.setReg csa (half (bits v 31 0) (bits old 31 0) + 2 ^ 32 * half (bits v 63 32) (bits old 63 32)), 0)

/-- The shadow plan of a channel becomes its active plan. -/
def State.planCopy (s : State) (k : Nat) : State :=
  let base := blkDch k * 0x100000
  each (List.range 64) (fun i s => s.setReg (base + 0xA00 + 8 * i) (s.reg (base + 0x800 + 8 * i))) s

/-- Absolute position that a subchannel issues next. -/
def State.posOf (s : State) (k sub : Nat) : Nat := (s.dc k).pos.getD sub 0

/-- Is the channel at a bar boundary, on both subchannels at once (R127, R139)? -/
def State.barEdge (s : State) (k : Nat) : Bool := s.posOf k 0 % 64 == 0 && s.posOf k 1 == s.posOf k 0

/-- Write the GROUP field of a shadow plan entry of a channel (R141). -/
def State.bindGroup (s : State) (k i g : Nat) : State :=
  let a := blkDch k * 0x100000 + 0x800 + 8 * (i / 2)
  s.setReg a (setBits (s.reg a) (32 * (i % 2) + 16) (32 * (i % 2) + 9) g)

/-- Write the GROUP fields of a placement's positions for DISP: at once where no plan is pending, else after the takeover (R141). -/
def State.dispBind (s : State) (es : List (Nat × Nat)) (g : Nat) : State :=
  each es (fun e s =>
    if s.on (F.dchPlanCtlArmed e.1) then s.setDisp fun d => { d with binds := d.binds ++ [(e.1, e.2, g)] }
    else s.bindGroup e.1 e.2 g) s

/-- DISP arms the shadow plan of a channel (R141). -/
def State.dispArm (s : State) (k at_ : Nat) (running : Nat → Bool) : State :=
  if s.on (F.dchPlanCtlArmed k) then s else ((s.wr (F.dchPlanAtBeat k) at_).armPlan k running true).1

/-- After a takeover DISP writes what waited for it and arms its own plan; placements with new positions become ready 8 beats after that
plan's PLAN_AT (R140, R141). -/
def State.dispAfter (s : State) (k : Nat) (running : Nat → Bool) : State :=
  let mine := s.disp.binds.filter fun b => b.1 == k
  if mine.isEmpty then s
  else
    let at_ := s.eff + 16
    let s := each mine (fun b s => s.bindGroup k b.2.1 b.2.2) s
    let new (p : Placement) : Bool := mine.any fun b => b.2.2 ≠ 0 && p.dram.contains (k, b.2.1)
    let s := s.setDisp fun d => { d with
      binds := d.binds.filter fun b => b.1 ≠ k,
      places := d.places.map fun p => if new p then { p with ready := max p.ready (at_ + 8) } else p }
    s.dispArm k at_ running

/-- An armed plan takes over at the first bar boundary at or after PLAN_AT (R139). -/
def State.planTakeover (s : State) (k : Nat) (running : Nat → Bool) : State :=
  if s.on (F.dchPlanCtlArmed k) && s.rd (F.dchPlanAtBeat k) ≤ s.beat && s.barEdge k then
    ((s.planCopy k).wr (F.dchPlanCtlArmed k) 0).dispAfter k running
  else s

/-! ## Positions, refresh and maintenance (R127, R143, R144) -/

/-- The refresh mode of a bar: double mode as last ordered, from the bar boundary on at which it takes effect (R143). -/
def State.doubleIn (s : State) (k b : Nat) : Bool :=
  let d := (s.dc k).dbl
  if d.2 ≤ b then d.1 else !d.1

/-- Keep DOUBLE as the bar that the bar counter counts has it. -/
def State.showDouble (s : State) (k : Nat) : State :=
  s.wr (F.dchRefStatDouble k) (if s.doubleIn k (s.posOf k 0 / 64) then 1 else 0)

/-- Pass to the next position. -/
def State.nextPos (s : State) (k sub : Nat) : State :=
  let s := s.setDc k fun d => { d with pos := d.pos.set sub (d.pos.getD sub 0 + 1) }
  if sub = 0 && s.posOf k 0 = (s.dc k).dbl.2 * 64 then s.showDouble k else s

/-- First position of the next bar of a subchannel (R137). -/
def State.barStart (s : State) (k sub : Nat) : Nat := ceilDiv (s.posOf k sub) 64 * 64

/-- The channel returns to service: the plan in force goes on at the next bar boundary (R137). -/
def State.resumePlan (s : State) (k : Nat) : State :=
  s.setDc k fun d => { d with from_ := [s.barStart k 0, s.barStart k 1] }

/-- The active plan's entry for the position a subchannel issues next. -/
def State.nowEntry (s : State) (k sub : Nat) : Nat := s.planEntry k true (64 * sub + s.posOf k sub % 64)

/-- Is a refresh of bank set `x` due in bar `b` (R143)? -/
def State.refreshDue (s : State) (k x b : Nat) : Bool :=
  ((b + 12 * x - x) % (if s.doubleIn k b then 6 else 12)) == 0

/-- A REFRESH position of subchannel 0 in a bar without a refresh due, which maintenance may use (R144). -/
def State.maintPos (s : State) (k : Nat) : Bool :=
  let e := s.nowEntry k 0
  s.rd (F.dchFenceState k) == 0 && planKind e == 2 && !s.refreshDue k (planSet e) (s.posOf k 0 / 64)

/-- The temperature reading and double mode, which changes at the next bar boundary (R143). -/
def State.doubleMode (s : State) (k temp : Nat) : State :=
  let s := s.wr (F.dchRefStatTemp k) temp
  let d := (s.dc k).dbl
  let on := 85 ≤ temp || s.on (F.dchRefStatForceDouble k) || (d.1 && 82 < temp)
  let b := s.posOf k 0 / 64
  if on = d.1 then s
  else if b < d.2 then s.setDc k fun x => { x with dbl := (on, 0) }
  else (s.setDc k fun x => { x with dbl := (on, s.barStart k 0 / 64) }).showDouble k

/-- A write of REF_STAT: FORCE_DOUBLE with the sensor's last reading (R143). -/
def hookRefStat (k : Nat) : Hook := fun _ s => (s.doubleMode k (s.rd (F.dchRefStatTemp k)), 0)

/-- ZQ calibration every 2^20 bars (R144). -/
def State.zqCal (s : State) (k : Nat) : State :=
  let b := s.posOf k 0 / 64
  if s.maintPos k && (s.dc k).zqBar + 2 ^ 20 ≤ b then (s.setDc k fun d => { d with zqBar := b }).nextPos k 0 else s

/-- Oscillator read every 4,096 bars with the margin it shows; a low margin fences the channel for a retrain
(R144, R146). -/
def State.oscUpdate (s : State) (k margin : Nat) : State :=
  let b := s.posOf k 0 / 64
  if s.maintPos k && (s.dc k).oscBar + 4096 ≤ b then
    let s := (s.setDc k fun d => { d with oscBar := b }).nextPos k 0
    let s := s.wr (F.dchTrainMargin k) margin
    if margin < s.rd (F.dchTrainMarginMin k) then s.startFence k 5 else s
  else s

/-! ## Training (R126, R145, R146, R536) -/

/-- Does a module of `gib` GiB meet the capacity of Table DRM-1 and hold the lines that MAP places (R536)? -/
def State.moduleFits (s : State) (gib : Nat) : Bool :=
  [64, 128, 256, 512].contains gib && s.linesPerSub ≤ gib * 2 ^ 22

/-- Does a module as its SPD hub describes it meet Table DRM-1 (R126)? -/
def State.moduleOk (s : State) (m : Spd) : Bool :=
  m.mrdimm && m.rate == 12800#16 && m.refsb && m.trfcsb ≤ 120#16 && m.trc ≤ 50#16 && m.sideband && s.moduleFits m.gib.toNat

/-- RST.CTL.TRAIN takes effect (R145, R453): MAP is fixed, every OFF channel with cause 6 begins training. -/
def State.startTraining (s : State) : State :=
  let s := { s with mem := { s.mem with mapFixed := true } }
  each (List.range 32) (fun k s =>
    if s.rd (F.dchFenceState k) = 3 && s.on (F.dchFenceEn k) && s.rd (F.dchFenceCause k) = 6 then
      ((s.wr (F.dchFenceState k) 4).wr (F.dchTrainBusy k) 1).setDc k fun d => { d with powered := true }
    else s) s

/-- Result of a training run: state READY with the module's data, or FAILED. -/
def State.trained (s : State) (k : Nat) (pass : Bool) (serial : Nat) (m : Spd) (margin : Nat) : State :=
  let s := s.wr (F.dchTrainBusy k) 0
  if pass && s.moduleOk m then
    ((s.wr (F.dchFenceState k) 5).wr (F.dchTrainMargin k) margin).setDc k fun d => { d with serial := serial }
  else s.wr (F.dchFenceState k) 7

/-- A training of R145 or after a power-on ends. -/
def State.trainingDone (s : State) (k : Nat) (pass : Bool) (serial : Nat) (m : Spd) (margin : Nat) : State :=
  if s.rd (F.dchFenceState k) = 4 && s.rd (F.dchFenceCause k) ≠ 5 then s.trained k pass serial m margin else s

/-- Largest strength in use by MAP. -/
def State.maxP (s : State) : Nat :=
  [3, 2, 1].findSome? (fun z => if 0 < s.zoneSize z then some (zoneP z) else none) |>.getD 0

/-- DRAM service starts (R145). -/
def State.dramUp (s : State) : State :=
  let ready := findAll 32 fun k => s.rd (F.dchFenceState k) == 5
  if s.mem.up || !s.mem.mapFixed || ready.length < 16 + 4 * s.maxP then s
  else
    let s := { s with mem := { s.mem with up := true } }
    each ready (fun k s =>
      ((((s.wr (F.dchFenceState k) 0).wr (F.dchFenceEn k) 0).wr (F.dchFenceCause k) 0).wr (F.hdrStateOut (blkDch k)) 0).resumePlan
        k) s

/-! ## Fencing, power and rebuild (R146 to R149, R415, R416) -/

/-- Zone-0 lines of a channel read poisoned from now on, until written: a rebuild of the whole channel writes them so (R149, R415). -/
def State.poisonZone0 (s : State) (k : Nat) : State :=
  let mine (n : Nat) : Bool := s.zone (n * 128) == 0 && chanOf (n * 128) == k
  let s := { s with mem := { s.mem with synd := s.mem.synd.filter fun e => !mine e.1 } }
  s.setDc k fun d => { d with z0pois := true }

/-- The rebuild starts: journalled pairs only under the five conditions of R148, else the whole channel.  Zone-0 lines, which are
not served before the rebuild has passed them, are poisoned from the start of a whole one. -/
def State.startRebuild (s : State) (k : Nat) : State :=
  let d := s.dc k
  let whole := s.on (F.dchFenceJovf k) || s.on (F.dchFenceFull k) || d.serial ≠ d.fencedSerial || d.pwrLost ||
    d.z0lost || s.rd (F.dchFenceCause k) = 6
  let s := ((s.wr (F.dchFenceEn k) 0).wr (F.dchFenceState k) 6).wr (F.dchFenceFront k) 0
  let s := s.setDc k fun d => { d with whole := whole, z0lost := false, front := [0, 0] }
  if whole then s.poisonZone0 k else s

/-- What waited for the channel goes on (R149): the T7's own accesses, transactions in home order, requests and publish messages
whose walk or tag record lay there. -/
def State.releaseChan (s : State) (k : Nat) : State :=
  let ms := s.mem.waits.filter fun w => w.1 == k
  let s := { s with mem := { s.mem with waits := s.mem.waits.filter fun w => w.1 ≠ k } }
  let s := each ms (fun w s => match w.2 with
    | .write dpa l m po hm => s.writeDram dpa l m po hm
    | .note p => s.noteWrite p) s
  let ts := s.homes.txns.filter fun t => decide (t.stage = .chan k)
  let s := each ts (fun (t : Txn) s => (s.finishTxn { t with stage := .snoop }).settle t.home) s
  let ws := s.homes.chanWait.filter fun w => w.1 == k
  let s := { s with homes := { s.homes with chanWait := s.homes.chanWait.filter fun w => w.1 ≠ k } }
  each ws (fun (w : Nat × HomeReq) s =>
    let hm := homeOfPtr w.2.addr
    if isPublishOp w.2.op then
      match s.rgn? w.2.job with
      | some g => s.publishServe g w.2
      | none => s.publishArrive (fun _ _ _ => none) w.2
    else (s.submit hm w.2).settle hm) s

/-- What a write of FENCE does after its fields are judged (R147): `en` and `pwr` as they stood before it. -/
def hookFence (k : Nat) (en pwr : Bool) : Hook := fun _ s =>
  let s := if !en && s.on (F.dchFenceEn k) then s.startFence k 1 else s
  let s := if en && !s.on (F.dchFenceEn k) then s.startRebuild k else s
  let s := if !pwr && s.on (F.dchFencePwrOff k) then
      -- what waited for the module's contents now meets their loss (R149)
      ((s.wr (F.dchFenceState k) 3).setDc k fun d => { d with powered := false, pwrLost := true }).releaseChan k
    else s
  let s := if pwr && !s.on (F.dchFencePwrOff k) then
      ((s.wr (F.dchFenceState k) 4).wr (F.dchTrainBusy k) 1).setDc k fun d => { d with powered := true }
    else s
  (s, 0)

/-- TRAIN.RETRAIN (R146). -/
def hookRetrain (k : Nat) : Hook := fun v s =>
  if !tst v 0 then (s, 0)
  else if s.rd (F.dchFenceState k) = 0 then (s.startFence k 5, 0) else (s, fState)

/-- A DRAINING channel has issued its last assigned position (R147); a retrain then begins (R146). -/
def State.drained (s : State) (k : Nat) : State :=
  if s.rd (F.dchFenceState k) ≠ 1 then s
  else if s.rd (F.dchFenceCause k) = 5 then (s.wr (F.dchFenceState k) 4).wr (F.dchTrainBusy k) 1
  else s.wr (F.dchFenceState k) 2

/-- A retrain ends (R146). -/
def State.retrainDone (s : State) (k : Nat) (pass : Bool) (margin : Nat) : State :=
  if s.rd (F.dchFenceState k) = 4 && s.rd (F.dchFenceCause k) = 5 then
    let s := s.wr (F.dchTrainBusy k) 0
    if pass then ((s.wr (F.dchFenceState k) 5).wr (F.dchTrainMargin k) margin).startRebuild k
    else s.wr (F.dchFenceState k) 7
  else s

/-- A channel fault of DRAM: module alert or training loss (R147, R420). -/
def State.dramFault (s : State) (k : Nat) (alert : Bool) : State := s.selfFence k (if alert then 4 else 3)

/-- Stripe halves that hold anything but zero data and zero parity, or wait for a recompute. -/
def State.usedHalves (s : State) : List Nat :=
  dedup ((s.mem.dram.map fun c => halfOf c.1) ++ (s.mem.synd.map fun e => halfOf (e.1 * 128)) ++
    (s.mem.parity.map fun e => e.1 / 4) ++ (s.mem.merge.map fun e => e.1 / 4) ++ (s.mem.parPois.map (·.1)) ++
    (s.mem.recompute.map (·.1)))

/-- Lines of a half as the rebuild writes them: decoded, after any recompute the half waits for (R398, R415). -/
def State.halfValue (s : State) (h : Nat) : Option (List (Line × Bool)) × State :=
  let s := if s.stale h then s.recomputeHalf h else s
  (s.decodeHalf h, s)

/-- Rebuild one line of a channel (R415): a data line decoded, or poisoned where its half cannot be decoded; a parity line computed
from the data lines. -/
def State.rebuildLine (s : State) (k sub l : Nat) : State :=
  if l < s.rd F.dchMapTop * 2 ^ 17 then
    let a := dpaOfPlace k sub l
    if zoneP (s.zone a) = 0 then s
    else match s.halfValue (halfOf a) with
      | (some ls, s) =>
        let x := ls.getD (bits a 11 8) (0#1024, true)
        s.putLine a x.1 x.2
      | (none, s) => s.putLine a (s.storedLine a) true
  else match s.parityAt k sub l with
    | some (h, j) =>
      match s.halfValue h with
      | (some ls, s) => s.setParity h j (parityOf (zoneP (s.zone (halfLine h 0))) j (ls.map (·.1)))
      | (none, s) => s
    | none => s

/-- Rebuild the lines of one stripe half that lie on channel `k` and that the front has not passed (R415). -/
def State.rebuildHalf (s : State) (k h : Nat) : State :=
  let p := zoneP (s.zone (halfLine h 0))
  let mine := findAll 16 fun c => chanOf (halfLine h c) == k && !s.lineServed (halfLine h c)
  let par := findAll p fun j => (s.parityPlace (halfLine h 0) j).1 == k && !s.parityServed h j
  let s := each mine (fun c s => s.rebuildLine k (h % 2) (placeOf (halfLine h c)).2.2) s
  each par (fun j s => s.rebuildLine k (h % 2) (s.parityPlace (halfLine h 0) j).2) s

/-- Lines that a rebuild of the journalled pairs covers on a channel (R148, R415). -/
def State.journalLines (s : State) (k : Nat) : List Nat :=
  (s.dc k).journal.flatMap fun m => m :: (List.range 2).flatMap fun t =>
    let a := m * 2 ^ 13 + t * 2 ^ 12
    (List.range (zoneP (s.zone a))).filterMap fun j =>
      let x := s.parityPlace a j
      if x.1 = k then some x.2 else none

/-- The next line that the rebuild of a channel writes on a subchannel (R415). -/
def State.nextRebuild (s : State) (k sub : Nat) : Option Nat :=
  let f := (s.dc k).front.getD sub 0
  if (s.dc k).whole then (if f < s.linesPerSub then some f else none)
  else minBy? id ((s.journalLines k).filter fun l => f ≤ l)

/-- The rebuild writes its next line of a subchannel, and FRONT rises over the lines that both subchannels have done (R415). -/
def State.rebuildStep (s : State) (k sub l : Nat) : State :=
  if s.rd (F.dchFenceState k) = 6 && s.nextRebuild k sub = some l then
    let s := (s.rebuildLine k sub l).setDc k fun d => { d with front := d.front.set sub (l + 1) }
    let at_ (t : Nat) : Nat := (s.nextRebuild k t).getD s.linesPerSub
    s.wr (F.dchFenceFront k) (min (at_ 0) (at_ 1))
  else s

/-- The rebuild front passes the last line: every line of the channel is rebuilt and it serves again (R148, R415). -/
def State.rebuildDone (s : State) (k : Nat) : State :=
  if s.rd (F.dchFenceState k) ≠ 6 then s
  else
    let d := s.dc k
    let hs := if d.whole then s.usedHalves
      else s.usedHalves.filter fun h => d.journal.contains (bits (halfLine h 0) 43 13)
    let s := each hs (fun h s => s.rebuildHalf k h) s
    let s := ((s.wr (F.dchFenceState k) 0).wr (F.dchFenceCause k) 0).wr (F.dchFenceFront k) 0
    let s := (s.wr (F.dchFenceJovf k) 0).wr (F.hdrStateOut (blkDch k)) 0
    let s := s.setDc k fun d => { d with journal := [], z0lost := d.z0lost && !d.whole, pwrLost := false, whole := false }
    (s.resumePlan k).releaseChan k

/-- A control write that changes the given fields of one register of a channel. -/
def State.dchWrite (s : State) (fs : List (Fld × Nat)) (c : Cmd) (hook : Hook) : State :=
  let a := (fs.headD (F.dchMapOrder, 0)).1.csa
  s.ctlWrite a (s.compose a fs) c hook

/-- FENCE with a new EN or PWR_OFF. -/
def State.fenceWrite (s : State) (k : Nat) (f : Fld) (v : Nat) (c : Cmd) : State :=
  s.dchWrite [(f, v)] c (hookFence k (s.on (F.dchFenceEn k)) (s.on (F.dchFencePwrOff k)))

/-- DOUBLE_MODE_CHANGE with the module's sensor reading (R143). -/
def execDoubleModeChange (k : Fin 32) (temp : BitVec 8) (s : State) : Host.Outcome State Fault Refusal :=
  live s fun s => s.doubleMode k.val temp.toNat

/-- ZQ_CALIBRATION (R144). -/
def execZqCalibration (k : Fin 32) (s : State) : Host.Outcome State Fault Refusal := live s fun s => s.zqCal k.val

/-- OSCILLATOR_UPDATE (R144). -/
def execOscillatorUpdate (k : Fin 32) (margin : BitVec 8) (s : State) : Host.Outcome State Fault Refusal :=
  live s fun s => s.oscUpdate k.val margin.toNat

/-- TRAINING_DONE: whether the sequence passed, the module as its SPD hub describes it, and the margin found (R126, R145). -/
def execTrainingDone (k : Fin 32) (pass : Bool) (serial : BitVec 32) (spd : Spd) (margin : BitVec 8) (s : State) :
    Host.Outcome State Fault Refusal :=
  live s fun s => s.trainingDone k.val pass serial.toNat spd margin.toNat

/-- DRAM_SERVICE_START (R145). -/
def execDramServiceStart (s : State) : Host.Outcome State Fault Refusal := live s fun s => s.dramUp

/-- RETRAIN by firmware (R146). -/
def execRetrain (k : Fin 32) (c : Cmd) (s : State) : Host.Outcome State Fault Refusal :=
  live s fun s => s.dchWrite [(F.dchTrainRetrain k.val, 1)] c (hookRetrain k.val)

/-- RETRAIN_DONE (R146). -/
def execRetrainDone (k : Fin 32) (pass : Bool) (margin : BitVec 8) (s : State) : Host.Outcome State Fault Refusal :=
  live s fun s => s.retrainDone k.val pass margin.toNat

/-- FENCE_SET (R147). -/
def execFenceSet (k : Fin 32) (c : Cmd) (s : State) : Host.Outcome State Fault Refusal :=
  live s fun s => s.fenceWrite k.val (F.dchFenceEn k.val) 1 c

/-- FENCE_CLEAR (R147, R148). -/
def execFenceClear (k : Fin 32) (c : Cmd) (s : State) : Host.Outcome State Fault Refusal :=
  live s fun s => s.fenceWrite k.val (F.dchFenceEn k.val) 0 c

/-- SELF_FENCE on a module alert or a training loss (R147). -/
def execSelfFence (k : Fin 32) (alert : Bool) (s : State) : Host.Outcome State Fault Refusal :=
  live s fun s => s.dramFault k.val alert

/-- DRAIN_COMPLETE (R147). -/
def execDrainComplete (k : Fin 32) (s : State) : Host.Outcome State Fault Refusal := live s fun s => s.drained k.val

/-- MODULE_POWER_ON (R147). -/
def execModulePowerOn (k : Fin 32) (c : Cmd) (s : State) : Host.Outcome State Fault Refusal :=
  live s fun s => s.fenceWrite k.val (F.dchFencePwrOff k.val) 0 c

end Sys2Proof.Machine
end

