-- ==== Sys2Proof/Machine/Brush.lean ====
section
/-! DEFINITION. Reads from DRAM as the channel classifies them, reconstruction, recompute, the brush and the zeroing of
frames (R391 to R416). -/

namespace Sys2Proof.Machine

/-- Check bits of R391 without the address term: those of byte k in bits [2k+1:2k]. -/
def dataCheck (l : Line) : BitVec 256 :=
  BitVec.ofNat 256 ((List.range 128).foldl (fun acc k =>
    let b := (lineByte l k).toNat
    let c0 := (bit b 0 + bit b 2 + bit b 4 + bit b 6) % 2
    let c1 := (bit b 1 + bit b 3 + bit b 5 + bit b 7) % 2
    acc + (c0 + 2 * c1) * 2 ^ (2 * k)) 0)

/-- Is a DPA a line of installed DRAM? -/
def State.inDram (s : State) (dpa : Nat) : Bool := dpa % 128 == 0 && dpa < s.dramTop

/-- Damage to a stored line: data bits and check bits flipped. -/
def State.damage (s : State) (dpa : Nat) (nd : Line) (nc : BitVec 256) : State :=
  let v := s.synd dpa ^^^ dataCheck nd ^^^ nc
  (s.storeLine dpa (s.storedLine dpa ^^^ nd)).setSynd dpa v

/-- A line read from DRAM returns with bits flipped (R393, R401, R407 to R409): classified, logged, and served.  With
`again` the second read of R401 shows the flips once more; without it a zone-0 line is TRANSIENT. -/
def State.readReturn (s : State) (dpa src hm : Nat) (nd : Line) (nc : BitVec 256) (again : Bool) : State :=
  if !s.inDram dpa || !s.lineServed dpa then s
  else
    let (k, sub, l) := placeOf dpa
    let s' := s.damage dpa nd nc
    let st := classify (zoneP (s.zone dpa)) (s'.synd dpa)
    if st = 2 && !again then
      let s := ((s.tel (blkDch k) 0x03 2 1).tel (blkHome hm) 0x07 2 1).errorLine k
      s.elog k l sub 5 src (failBytes (s'.synd dpa)) false
    else (s'.readDram dpa src hm).2

/-- Reconstruct an ERASED line or a line of a channel that does not serve it (R401). -/
def State.reconstruct (s : State) (dpa hm : Nat) : State :=
  if s.inDram dpa && (!s.lineServed dpa || classify (zoneP (s.zone dpa)) (s.synd dpa) = 1)
  then (s.readDram dpa 0 hm).2 else s

/-- A parity delta reaches the channel of parity chunk `j` of a half (R396); a channel that does not serve the line
journals the pair (R148). -/
def State.parityDelta (s : State) (h j : Nat) (d : Line) (hm : Nat) : State :=
  if zoneP (s.zone (halfLine h 0)) ≤ j || s.dramTop ≤ halfLine h 0 then s
  else if s.parityServed h j then s.acceptDelta h j d hm
  else s.journal (s.parityPlace (halfLine h 0) j).1 (bits (halfLine h 0) 43 13)

/-- The oldest entry of a die's recompute queue is recomputed (R399). -/
def State.recomputeNext (s : State) (d hm : Nat) : State :=
  match s.mem.recompute.find? fun e => s.queueDie e.1 == d with
  | some e => (((s.recomputeHalf e.1).tel (blkHome hm) 0x0B 0 1).inc (F.brushPstatDone d)).releaseChan (32 + d)
  | none => s

/-! ## The brush (R410 to R413) -/

/-- Channels of a die in service. -/
def State.brushChans (s : State) (d : Nat) : List Nat :=
  (findAll 16 fun i => s.rd (F.dchFenceState (16 * d + i)) == 0).map (16 * d + ·)

/-- Progress of a die's lap in 1/65,536. -/
def State.lapProg (s : State) (d : Nat) : Nat :=
  let ks := s.brushChans d
  let n := s.linesPerSub
  let done := ks.foldl (fun a k => (List.range 2).foldl (fun a sub =>
    a + (if (s.dc k).wrapped.getD sub false then n else (s.dc k).walk.getD sub 0)) a) 0
  if ks.length * n = 0 then 0 else min 65535 (done * 65536 / (2 * ks.length * n))

/-- The lap ends when the last channel of the die has wrapped (R413). -/
def State.lapEnd (s : State) (d : Nat) : State :=
  let ks := s.brushChans d
  if !ks.isEmpty && ks.all fun k => (s.dc k).wrapped.all id then
    let s := s.wr (F.brushLapLast d) (min (2 ^ 32 - 1) ((s.beat - s.lapStart.getD d 0) / 31250))
    let s := (s.inc (F.brushLapLaps d)).wr (F.brushLapProg d) 0
    let s := each ((List.range 16).map (16 * d + ·)) (fun k s => s.setDc k fun x => { x with wrapped := [false, false] }) s
    { s with lapStart := s.lapStart.set d s.beat }
  else s.wr (F.brushLapProg d) (s.lapProg d)

/-- Move a channel's walk to the next line, wrapping after the last parity line. -/
def State.walkOn (s : State) (k sub : Nat) : State :=
  let n := s.linesPerSub
  let w := (s.dc k).walk.getD sub 0 + 1
  if w < n then s.setDc k fun d => { d with walk := d.walk.set sub w }
  else s.setDc k fun d => { d with walk := d.walk.set sub 0, wrapped := d.wrapped.set sub true }

/-- The brush reads a line of a channel (R410, R411): first a line it reads once more, else the next of its walk. -/
def State.brushRead (s : State) (k sub : Nat) : State :=
  let d := k / 16
  if !s.on (F.brushCtlEn d) || s.rd (F.dchFenceState k) ≠ 0 || s.linesPerSub = 0 then s
  else
    let s := s.tel (blkBrush d) 1 0 1
    let again := (s.dc k).again.find? fun a => a.1 == sub
    let l := match again with
      | some a => a.2
      | none => (s.dc k).walk.getD sub 0
    if s.rd F.dchMapTop * 2 ^ 17 ≤ l then ((s.tel (blkDch k) 0x03 0 1).walkOn k sub).lapEnd d
    else
      let dpa := dpaOfPlace k sub l
      let v := s.synd dpa
      let st := classify (zoneP (s.zone dpa)) v
      let s := s.tel (blkDch k) 0x03 st 1
      let bad := st == 1 || st == 2
      let s := if bad then (s.errorLine k).elog k l sub st 3 (failBytes v) false else s
      match again with
      | some a =>
        let s := s.setDc k fun x => { x with again := x.again.erase a }
        if bad then
          { s with mem := { s.mem with corrections :=
              if s.mem.corrections.contains dpa then s.mem.corrections else s.mem.corrections ++ [dpa] } }
        else (s.elog k l sub 5 3 0 false).tel (blkBrush d) 2 0 1
      | none =>
        let s := if bad then s.setDc k fun x => { x with again := x.again ++ [(sub, l)] } else s
        (s.walkOn k sub).lapEnd d

/-- A correction is served at the line's home, which reads the line afresh, once no transaction of the line is open (R411, R78). -/
def State.brushCorrect (s : State) (dpa hm : Nat) : State :=
  if !s.mem.corrections.contains dpa || s.homes.txns.any fun t => t.dpa == dpa then s
  else
    let s := { s with mem := { s.mem with corrections := s.mem.corrections.erase dpa } }
    if !s.lineServed dpa then s
    else match classify (zoneP (s.zone dpa)) (s.synd dpa) with
      | 1 => (s.readDram dpa 3 hm).2
      | 2 =>
        let s := (s.readDram dpa 3 hm).2
        let (k, sub, l) := placeOf dpa
        (s.putLine dpa (s.storedLine dpa) true).elog k l sub 2 3 (failBytes (s.synd dpa)) false
      | _ => s

/-! ## Zeroing (R414) -/

/-- Zero the 512 data lines and the parity lines of a 64 KiB frame; a channel that does not serve a line journals it. -/
def State.zeroLines (s : State) (f : Nat) : State :=
  let a := f * 0x10000
  let inF (n : Nat) : Bool := a ≤ n && n < a + 0x10000
  let p := zoneP (s.zone a)
  let halves := (List.range 32).map (halfOf a + ·)
  let lines := (List.range 512).map fun i => a + 128 * i
  let s := { s with mem := { s.mem with
    dram := s.mem.dram.filter fun c => !inF c.1,
    synd := s.mem.synd.filter fun e => !inF (e.1 * 128),
    parPois := s.mem.parPois.filter fun e => !halves.contains e.1,
    recompute := s.mem.recompute.filter fun e => !halves.contains e.1 } }
  let s := { s with homes := { s.homes with lc := s.homes.lc.filter fun e => !inF (e.1 * 128) } }.sramDrop a 0x10000
  let s := each lines (fun x s =>
    if !s.lineServed x then
      if p = 0 then s.writeDram x 0#1024 (BitVec.allOnes 128) false (homeOf 0 x) else s.journal (chanOf x) (bits x 43 13)
    else if p = 0 && (s.dc (chanOf x)).z0pois then s.setSynd x 0#256 else s) s
  each halves (fun h s => (List.range p).foldl (fun s j =>
    if s.parityServed h j then s.setParity h j 0#1024
    else s.journal (s.parityPlace (halfLine h 0) j).1 (bits (halfLine h 0) 43 13)) s) s

/-- Both brushes finish the oldest queued frame: a pushed frame counts in DONE, a staging frame rejoins its pool. -/
def State.zeroDone (s : State) : State :=
  match s.zeroq with
  | [] => s
  | z :: rest =>
    let s := { s.zeroLines z.frame with zeroq := rest }
    let s := (s.tel (blkBrush 0) 3 0 1).tel (blkBrush 1) 3 0 1
    match z.pushed with
    | some d => s.wr (F.brushZeroDone d) ((s.rd (F.brushZeroDone d) + 1) % 2 ^ 16)
    | none => s

/-- A write of BRUSH[d].ZERO: a frame outside installed DRAM is discarded. -/
def hookZero (d : Nat) : Hook := fun v s =>
  let f := bits v 31 0
  if s.dramTop < f * 0x10000 + 0x10000 then (s, fRange) else ({ s with zeroq := s.zeroq ++ [⟨f, some d⟩] }, 0)

/-- DCH_READ_RETURN: the line, who reads it, the home, the flips of data and check bits, and whether a second read shows
them too (R393, R401). -/
def execDchReadReturn (dpa : BitVec 48) (src : Fin 6) (home : Fin 64) (nd : Line) (nc : BitVec 256) (again : Bool)
    (s : State) : Host.Outcome State Fault Refusal :=
  live s fun s => s.readReturn dpa.toNat src.val home.val nd nc again

/-- RECONSTRUCTION of a line (R401). -/
def execReconstruction (dpa : BitVec 48) (home : Fin 64) (s : State) : Host.Outcome State Fault Refusal :=
  live s fun s => s.reconstruct dpa.toNat home.val

/-- PARITY_DELTA (R396). -/
def execParityDelta (half : BitVec 37) (j : Fin 4) (delta : Line) (home : Fin 64) (s : State) :
    Host.Outcome State Fault Refusal :=
  live s fun s => s.parityDelta half.toNat j.val delta home.val

/-- RECOMPUTE of the oldest queued half of a die (R399). -/
def execRecompute (die : Fin 2) (home : Fin 64) (s : State) : Host.Outcome State Fault Refusal :=
  live s fun s => s.recomputeNext die.val home.val

/-- BRUSH_WALK_READ on a subchannel (R410). -/
def execBrushWalkRead (k : Fin 32) (sub : Fin 2) (s : State) : Host.Outcome State Fault Refusal :=
  live s fun s => if s.on (F.hdrStateInreset (blkBrush (k.val / 16))) then s else s.brushRead k.val sub.val

/-- BRUSH_CORRECTION at the line's home (R411). -/
def execBrushCorrection (dpa : BitVec 48) (home : Fin 64) (s : State) : Host.Outcome State Fault Refusal :=
  live s fun s => s.brushCorrect dpa.toNat home.val

/-- ZERO_FRAME (R414). -/
def execZeroFrame (d : Fin 2) (frame : BitVec 32) (c : Cmd) (s : State) : Host.Outcome State Fault Refusal :=
  live s fun s => s.dchWrite [(F.brushZeroFrame d.val, frame.toNat)] c (hookZero d.val)

/-- ZERO_COMPLETE (R414). -/
def execZeroComplete (s : State) : Host.Outcome State Fault Refusal :=
  live s fun s => if s.on (F.hdrStateInreset (blkBrush 0)) || s.on (F.hdrStateInreset (blkBrush 1)) then s else s.zeroDone

end Sys2Proof.Machine
end

