-- ==== Sys2Proof/Machine/Mirror.lean ====
section
/-! DEFINITION. The chip pair: order stamps, the secondary's order, serving alone, resynchronisation and the hand-over
of the ordering role (R118 to R123, R173, R428 to R432). -/

namespace Sys2Proof.Machine

/-- Is the port a partner port (R346)? -/
def State.partner (s : State) (p : Nat) : Bool :=
  s.on F.homeMirCtlEn && (p == s.rd F.homeMirCtlPportA || p == s.rd F.homeMirCtlPportB)

/-- The entries of a Stamp or StampAck (Table TRN-3). -/
def stampEntries (p : Pkt) : List Nat :=
  let b := p.body.toNat
  (List.range (min 8 (bits b 3 0))).map fun i => bits b (128 * i + 255) (128 * i + 128)

/-- Become the orderer: stamp the requests that wait without a stamp, in arrival order, and perform them (R123, R432). -/
def State.takeOrder (s : State) : State :=
  let s := (s.wr F.homeMirSyncOrderer 1)
  let hs := s.mir.held
  let s := { s with mir := { s.mir with held := [] } }
  each hs (fun (e : Nat × HomeReq) (s : State) =>
    if isPublishOp e.2.op then s.publishArrive (fun _ _ _ => none) e.2
    else if e.2.op = 0x301 then s
    else (s.submit e.1 e.2).settle e.1) s

/-- A Stamp arrives at the secondary (R121): acknowledged on receipt, then requests are performed in stamp order. -/
def State.stampIn (s : State) (p : Pkt) : State :=
  if s.mir.outOfStep && !((stampEntries p).any fun e => bits e 65 54 == 0xFFF) then s
  else
    let es := stampEntries p
    let s := each es (fun (e : Nat) (s : State) =>
      let hm := bits e 5 0
      let n := bits e 53 6
      if bits e 65 54 = 0xFFF && bits e 80 66 = 0x7FFF then
        { s with mir := { s.mir with
          mseq := SMap.set 0 s.mir.mseq hm (max n (SMap.get 0 s.mir.mseq hm)),
          handGot := if s.mir.handGot.contains hm then s.mir.handGot else s.mir.handGot ++ [hm] } }
      else
        let start := bits e 65 54 = 0xFFF && !s.mir.returning
        { s with mir := { s.mir with
          returning := s.mir.returning || bits e 65 54 == 0xFFF,
          perf := if start then SMap.set 0 s.mir.perf hm (n - 1) else s.mir.perf,
          mseq := SMap.set 0 s.mir.mseq hm (max n (SMap.get 0 s.mir.mseq hm)),
          got := s.mir.got ++ [⟨hm, n, bits e 65 54, bits e 80 66, bits e 112 81, s.beat⟩] } }) s
    let ack := (es.zip (List.range 8)).foldl (fun a e => a + bits e.1 53 0 * 2 ^ (128 * (e.2 + 1))) es.length
    let s := s.sendPort p.port.val { pkt0 with
      opc := 0x2F, len := BitVec.ofNat 5 (3 + es.length), host := 0xFFF, body := BitVec.ofNat 2048 ack }
    let s := s.performAll
    if s.mir.handGot.length = 64 then
      ({ s with mir := { s.mir with handGot := [] } }).takeOrder
    else s

/-- Release what waited for the acknowledgement of a stamp (R120). -/
def State.ackOne (s : State) (m : Stamp) : State :=
  let s := { s with mir := { s.mir with sent := s.mir.sent.erase m } }
  let s := match s.homes.txns.find? fun t => t.stage == .stamp && t.home == m.home && t.req.host == m.host &&
      t.req.tag == m.tag && t.req.seq == m.seq with
    | some t =>
      let s := s.recDone t.req t.done.1 t.done.2.1 t.done.2.2
      ((each t.reply (fun k s => s.reply t.req k) s).closeTxn t).settle t.home
    | none => s
  match s.mir.waits.find? fun w => w.req.host == m.host && w.req.tag == m.tag && w.req.seq == m.seq with
  | some w =>
    let s := { s with mir := { s.mir with waits := s.mir.waits.erase w } }
    each w.reply (fun k s => s.reply w.req k) (match w.done with
      | some d => s.recDone w.req d.1 d.2.1 d.2.2
      | none => s)
  | none => s

/-- The active mirrored regions. -/
def State.mirrorRgns (s : State) : List Rgn := s.rgns.filter (·.mirror)

/-- Lines of a region. -/
def Rgn.lines (g : Rgn) : Nat := g.len * 512

/-- Send the copy of the next line that has a page, from line `i` of region `g` on (R430); `n` lines are left. -/
def State.copyFrom (s : State) (g : Rgn) (i : Nat) : Nat → Option Nat × State
  | 0 => (none, s)
  | n + 1 =>
    let o := g.base * 0x10000 + i * 128
    let hm := homeOf g.space o
    match (s.walk hm g.space o false false hm).1 with
    | .violation => s.copyFrom g (i + 1) n
    | .error _ => s.copyFrom g (i + 1) n
    | .fault 0 _ => s.copyFrom g (i + 1) n
    | _ =>
      let r := { req0 with
        op := 0x300, host := 0xFFF, addr := ptrOf g.space o, arrive := s.beat, rewalk := true, tenant := g.tenant }
      (some (i + 1), (s.submit hm r).settle hm)

/-- Send the next copy of the resynchronisation: the survivor keeps one copy under way (DESIGN CHOICE, log entry 25). -/
def State.copyNext (s : State) : State :=
  match s.mir.copyAt with
  | none => s
  | some (gid, i) =>
    let s := { s with mir := { s.mir with copied := min (s.mir.copied + 1) s.mir.copyTotal } }
    let s := s.wr F.homeMirSyncProg (min 65535 (s.mir.copied * 65536 / max 1 s.mir.copyTotal))
    let rest := (s.mirrorRgns.filter fun g => gid < g.id)
    let start (g : Rgn) (i : Nat) (s : State) : Option (Nat × Nat) × State :=
      let (x, s) := s.copyFrom g i (g.lines - i)
      (x.map fun j => (g.id, j), s)
    let (x, s) := match s.rgn? gid with
      | some g => start g i s
      | none => (none, s)
    let (x, s) := rest.foldl (fun (acc : Option (Nat × Nat) × State) g =>
      match acc.1 with
      | some _ => acc
      | none => start g 0 acc.2) (x, s)
    { s with mir := { s.mir with copyAt := x } }

/-- Begin to hand the ordering role over once every stamp is acknowledged (R432). -/
def State.handOver (s : State) : State :=
  if !s.mir.handoff || !s.mir.sent.isEmpty then s
  else
    let s := each (List.range 64) (fun hm s =>
      s.sendPort s.partnerPort { pkt0 with
        opc := 0x2E, len := 4, host := 0xFFF,
        body := BitVec.ofNat 2048 (1 + (hm + SMap.get 0 s.mir.mseq hm * 2 ^ 6 + 0xFFF * 2 ^ 54 + 0x7FFF * 2 ^ 66) * 2 ^ 128) }) s
    let s := { s with mir := { s.mir with handoff := false, perf := s.mir.mseq } }
    s.wr F.homeMirSyncOrderer 0

/-- A StampAck arrives at the orderer (R120, R428, R430). -/
def State.stampAckIn (s : State) (p : Pkt) : State :=
  let s := each (stampEntries p) (fun (e : Nat) (s : State) =>
    match s.mir.sent.find? fun m => m.home == bits e 5 0 && m.mseq == bits e 53 6 with
    | none => s
    | some m =>
      let s := s.ackOne m
      if m.host = 0xFFF then s.copyNext else s) s
  s.handOver

/-- MIRROR_OUT_OF_STEP (R121): a stamp without its request for the idempotence window. -/
def State.mirrorStep (s : State) : State :=
  let late := s.mir.got.any fun m => m.beat + 312500 ≤ s.beat &&
    !(s.mir.held.any fun e => e.2.host == m.host && e.2.tag == m.tag && e.2.seq == m.seq)
  if s.orderer || s.mir.outOfStep || !late then s
  else ({ s with mir := { s.mir with outOfStep := true, held := [], got := [] } }).raise (blkHome 0) 6 none

/-- Is the partner link down after its grace (R123): neither partner port ACTIVE, RETRAINING or in HOLD? -/
def State.partnerDown (s : State) : Bool :=
  let down (p : Nat) : Bool := s.rd (F.fportLstatState p) < 3
  down (s.rd F.homeMirCtlPportA) && down (s.rd F.homeMirCtlPportB)

/-- Perform every held request whose stamp has come, in stamp order, whatever stamps are missing between (R123). -/
def State.performEvery (s : State) : State :=
  each (sortBy (fun (m : Stamp) => m.mseq) s.mir.got) (fun (m : Stamp) (s : State) =>
    match s.heldFor m with
    | some e => ({ s with mir := { s.mir with
        held := s.mir.held.erase e, perf := SMap.set 0 s.mir.perf m.home m.mseq } }).performHeld m.home e.2
    | none => s) s

/-- Go alone (R123): ALONE in MIR_CTL and in every mirrored region's record, an event of class 5; the secondary performs
what it has stamps for, then orders; the primary stops waiting. -/
def State.goAlone (s : State) : State :=
  let s := (s.wr F.homeMirCtlAlone 1).raise (blkHome 0) 5 none
  let s := each s.mirrorRgns (fun g s => s.setRgnBits g.id 256 256 1) s
  if s.orderer then
    let s := each s.mir.sent (fun m s => s.ackOne m) s
    { s with mir := { s.mir with handoff := false } }
  else
    let s := s.performEvery
    ({ s with mir := { s.mir with got := [] } }).takeOrder

/-- MIRROR_ALONE (R123): the partner link is down, or an acknowledgement or an expected stamp is missing for ACK_TMO. -/
def State.mirrorAlone (s : State) : State :=
  let t := s.rd F.homeMirCtlAckTmo
  let miss := if s.orderer then s.mir.sent.any fun m => m.beat + t ≤ s.beat
    else s.mir.held.any fun e => e.2.arrive + t ≤ s.beat &&
      !(s.mir.got.any fun m => m.home == e.1 && m.host == e.2.host && m.tag == e.2.tag && m.seq == e.2.seq)
  if !s.on F.homeMirCtlEn || s.alone || s.mir.outOfStep || !(s.partnerDown || miss) then s else s.goAlone

/-- What MIR_SYNC.GO and HANDOFF do (R430, R432). -/
def hookMirSync : Hook := fun v s =>
  let (s, f) :=
    if !tst v 0 then (s, 0)
    else if !s.alone || s.rd (F.fportLstatState s.partnerPort) ≠ 3 || s.on F.homeMirSyncBusy then (s, fState)
    else
      let s := ((s.wr F.homeMirSyncBusy 1).wr F.homeMirSyncDone 0).wr F.homeMirSyncProg 0
      let total := (s.mirrorRgns.map (·.lines)).foldl (· + ·) 0
      let s := { s with mir := { s.mir with copied := 0, copyTotal := total + 1,
                                            copyAt := (s.mirrorRgns.head?).map fun (g : Rgn) => (g.id, 0) } }
      (s.copyNext, 0)
  if !tst v 4 then (s, f)
  else if !s.orderer || !s.on F.homeMirSyncDone then (s, f ||| fState)
  else (({ s with mir := { s.mir with handoff := true } }).handOver, f)

/-- MIR_SYNC_COMPLETE (R431): every copy is acknowledged, or the returning chip has them all; ALONE clears. -/
def State.mirSyncComplete (s : State) : State :=
  let clear (s : State) : State :=
    each s.mirrorRgns (fun g s => s.setRgnBits g.id 256 256 0) (s.wr F.homeMirCtlAlone 0)
  if s.on F.homeMirSyncBusy && s.mir.copyAt.isNone && !(s.mir.sent.any fun m => m.host == 0xFFF) &&
      !(s.homes.txns.any fun t => t.req.op == 0x300) then
    let s := ((s.wr F.homeMirSyncBusy 0).wr F.homeMirSyncDone 1).wr F.homeMirSyncProg 65535
    clear { s with mir := { s.mir with copyTotal := 0, copied := 0 } }
  else if s.mir.returning then
    let held := s.mir.readHeld
    let s := { s with mir := { s.mir with returning := false, outOfStep := false, gotLines := [], readHeld := [] } }
    let s := clear (s.wr F.homeMirSyncOrderer 0)
    each held (fun e s => s.performHeld e.1 e.2) s
  else s

/-- A copy of the survivor arrives at the returning chip (R430): it waits for its stamp like any mirrored request. -/
def State.copyIn (s : State) (p : Pkt) : State :=
  let r := { s.homeReqOf p ⟨p, [], 0, s.beat, false⟩ with op := 0x301, rewalk := true }
  ({ s with mir := { s.mir with held := s.mir.held ++ [(homeOfPtr r.addr, r)] } }).performAll

/-- The returning chip asks for a line (R431): the survivor copies it next. -/
def State.copyAsk (s : State) (p : Pkt) : State :=
  if !s.on F.homeMirSyncBusy then s
  else
    let hm := homeOfPtr p.addr.toNat
    let r := { req0 with op := 0x300, host := 0xFFF, addr := p.addr.toNat, arrive := s.beat, rewalk := true }
    (s.submit hm r).settle hm

/-! ## Commands -/

/-- STAMP (R121). -/
def execStamp (p : Pkt) (s : State) : Host.Outcome State Fault Refusal := live s fun s =>
  let p := { p with opc := 0x2E }
  (((s.takeRouted p).2).stampIn p).resumeInvokes

/-- STAMP_ACK (R120). -/
def execStampAck (p : Pkt) (s : State) : Host.Outcome State Fault Refusal := live s fun s =>
  let p := { p with opc := 0x2F }
  (((s.takeRouted p).2).stampAckIn p).resumeInvokes

/-- MIRROR_OUT_OF_STEP (R121). -/
def execMirrorOutOfStep (s : State) : Host.Outcome State Fault Refusal := live s fun s => s.mirrorStep

/-- MIRROR_ALONE (R123). -/
def execMirrorAlone (s : State) : Host.Outcome State Fault Refusal := live s fun s => s.mirrorAlone.resumeInvokes

/-- MIR_SYNC_GO (R430). -/
def execMirSyncGo (c : Cmd) (s : State) : Host.Outcome State Fault Refusal :=
  live s fun s => (s.ctlWrite F.homeMirSyncGo.csa (s.compose F.homeMirSyncGo.csa [(F.homeMirSyncGo, 1)]) c hookMirSync).resumeInvokes

/-- MIR_SYNC_COMPLETE (R431). -/
def execMirSyncComplete (s : State) : Host.Outcome State Fault Refusal := live s fun s => s.mirSyncComplete.resumeInvokes

/-- MIR_SYNC_HANDOFF (R432). -/
def execMirSyncHandoff (c : Cmd) (s : State) : Host.Outcome State Fault Refusal :=
  live s fun s => (s.ctlWrite F.homeMirSyncHandoff.csa
    (s.compose F.homeMirSyncHandoff.csa [(F.homeMirSyncHandoff, 1)]) c hookMirSync).resumeInvokes

end Sys2Proof.Machine
end

