-- ==== Sys2Proof/Machine/Coherence.lean ====
section
/-! DEFINITION. Coherent sharing: the meanings of requests to the home slices, snoop answers, evictions, ageing,
back-invalidation and slot revocation (R66 to R99, R537, R538). -/

namespace Sys2Proof.Machine

/-- RD_SHARED (R67, R77). -/
def execRdShared (p : Pkt) (s : State) : Host.Outcome State Fault Refusal := live s fun s => s.hostRequest p 1

/-- RD_OWN (R77). -/
def execRdOwn (p : Pkt) (s : State) : Host.Outcome State Fault Refusal := live s fun s => s.hostRequest p 2

/-- UPGRADE (R77). -/
def execUpgrade (p : Pkt) (s : State) : Host.Outcome State Fault Refusal := live s fun s => s.hostRequest p 3

/-- RD_CUR (R77, R107, R116); from HOST 0xFFF it asks for the copy of a line (R431). -/
def execRdCur (p : Pkt) (s : State) : Host.Outcome State Fault Refusal := live s fun s => if p.host = 0xFFF then s.copyAsk p else s.hostRequest p 4

/-- WR_CUR (R77, R102, R106, R538); from HOST 0xFFF it is a copy of a resynchronisation (R430). -/
def execWrCur (p : Pkt) (s : State) : Host.Outcome State Fault Refusal := live s fun s => if p.host = 0xFFF then s.copyIn p else s.hostRequest p 5

/-- WB_M (R77, R93, R94). -/
def execWbM (p : Pkt) (s : State) : Host.Outcome State Fault Refusal := live s fun s => (s.eviction p true).resumeInvokes

/-- EVICT_CLEAN (R77, R93, R94). -/
def execEvictClean (p : Pkt) (s : State) : Host.Outcome State Fault Refusal := live s fun s => (s.eviction p false).resumeInvokes

/-- GRANT_ACK (R79). -/
def execGrantAck (p : Pkt) (s : State) : Host.Outcome State Fault Refusal := live s fun s => (s.grantAck p).resumeInvokes

/-- RSP_I (R76). -/
def execRspI (p : Pkt) (s : State) : Host.Outcome State Fault Refusal := live s fun s => (s.snoopAnswer p .inv).resumeInvokes

/-- RSP_I_WB (R76). -/
def execRspIWb (p : Pkt) (s : State) : Host.Outcome State Fault Refusal := live s fun s => (s.snoopAnswer p .invWb).resumeInvokes

/-- RSP_S (R76). -/
def execRspS (p : Pkt) (s : State) : Host.Outcome State Fault Refusal := live s fun s => (s.snoopAnswer p .shr).resumeInvokes

/-- RSP_S_WB (R76). -/
def execRspSWb (p : Pkt) (s : State) : Host.Outcome State Fault Refusal := live s fun s => (s.snoopAnswer p .shrWb).resumeInvokes

/-- RSP_FWD (R77). -/
def execRspFwd (p : Pkt) (s : State) : Host.Outcome State Fault Refusal := live s fun s => (s.snoopAnswer p .fwd).resumeInvokes

/-- RSP_ABSENT_EVICT (R93). -/
def execRspAbsentEvict (p : Pkt) (s : State) : Host.Outcome State Fault Refusal :=
  live s fun s => (s.snoopAnswer p .evicting).resumeInvokes

/-- FWD_DATA (R77). -/
def execFwdData (p : Pkt) (s : State) : Host.Outcome State Fault Refusal := live s fun s => s.fwdData p

/-- PENDING_QUEUE_OFFER at a home (R80). -/
def execPendingQueueOffer (home : Fin 64) (s : State) : Host.Outcome State Fault Refusal :=
  live s fun s => (s.pendOffer home.val).resumeInvokes

/-- Age of a request in beats (R90). -/
def State.age (s : State) (r : HomeReq) : Nat := s.beat - r.arrive

/-- REQUEST_AGE_PRIORITY (R90): waiting requests of a home that have reached age 64 gain priority; those of its pending queue
include the requests whose fault waits there for a record (R64). -/
def State.agePriority (s : State) (hm : Nat) : State :=
  let up (e : Nat × HomeReq) : Nat × HomeReq :=
    if e.1 = hm ∧ 64 ≤ s.age e.2 then (e.1, { e.2 with prio := true }) else e
  let fup (f : PageFault) : PageFault := match f.waiter with
    | .req r => if f.src = hm ∧ 64 ≤ s.age r then { f with waiter := .req { r with prio := true } } else f
    | _ => f
  { s with homes := { s.homes with
    chain := s.homes.chain.map up, pendq := s.homes.pendq.map up, faultWait := s.homes.faultWait.map fup } }

/-- REQUEST_AGE_PRIORITY at a home (R90). -/
def execRequestAgePriority (home : Fin 64) (s : State) : Host.Outcome State Fault Refusal :=
  live s fun s => s.agePriority home.val

/-- STARVE_MARK (R91): each unserved request of a home that has reached age 512 marks its line, with an event of class 9. -/
def State.starveMark (s : State) (hm : Nat) : State :=
  each ((s.unopened hm).filter fun r => 512 ≤ s.age r && r.op < 0x200) (fun (r : HomeReq) (s : State) =>
    if s.starving hm r then s
    else
      ({ s with homes := { s.homes with starve := s.homes.starve ++ [(hm, r.line, r.host, r.tag)] } }).raise
        (blkHome hm) 9 none) s

/-- STARVE_MARK at a home (R91). -/
def execStarveMark (home : Fin 64) (s : State) : Host.Outcome State Fault Refusal :=
  live s fun s => s.starveMark home.val

/-- What COH_BINV.GO does (R85, R86): refused while BUSY, else the job over the named range starts. -/
def hookCohBinv : Hook := fun v s =>
  if !tst v 10 then (s, 0)
  else if s.on F.homeCohBinvBusy then (s, fBusy)
  else
    let s := (s.wr F.homeCohBinvBusy 1).wr F.homeCohBinvDone 0
    (s.binvJob jobBinv false none fun e =>
      inRange (s.rd F.homeCohBinvSpace) (s.rd F.homeCohBinvBase) (s.rd F.homeCohBinvCount) e, 0)

/-- COH_BINV: a write that names a range and sets GO (R86). -/
def execCohBinv (space : BitVec 10) (base : BitVec 32) (count : BitVec 16) (c : Cmd) (s : State) :
    Host.Outcome State Fault Refusal :=
  live s fun s => s.ctlWrite F.homeCohBinvGo.csa
    (s.compose F.homeCohBinvGo.csa [(F.homeCohBinvSpace, space.toNat), (F.homeCohBinvGo, 1),
      (F.homeCohBinvBase, base.toNat), (F.homeCohBinvCount, count.toNat)]) c hookCohBinv

/-- COH_BINV_DONE (R85): lines of the range that became held meanwhile are back-invalidated too; with none left, the range's dirty
data are written to the home copy and DONE is set. -/
def State.cohBinvDone (s : State) : State :=
  let sp := s.rd F.homeCohBinvSpace
  let b := s.rd F.homeCohBinvBase
  let n := s.rd F.homeCohBinvCount
  let held := s.homes.filter.filter fun e => e.2.st ≠ 0 && inRange sp b n e
  if !s.on F.homeCohBinvBusy || s.jobBusy jobBinv then s
  else if !held.isEmpty then
    each (dedup (held.map fun e => (keyHome e.1, e.2.ptr))) (fun l s =>
      (s.submit l.1 { binvReq l.2 jobBinv false none with arrive := s.beat }).settle l.1) s
  else
    let dirty := s.homes.lc.filter fun e => e.2.dirty && ptrSpace e.2.ptr == sp && b * 0x10000 ≤ ptrOff e.2.ptr &&
      ptrOff e.2.ptr < (b + n) * 0x10000
    let s := each dirty (fun e s => s.lcClean (e.1 * 128) (homeOfPtr e.2.ptr)) s
    let s := { s with homes := { s.homes with jobs := s.homes.jobs.filter (· ≠ jobBinv) } }
    (s.wr F.homeCohBinvBusy 0).wr F.homeCohBinvDone 1

/-- COH_BINV_DONE (R85). -/
def execCohBinvDone (s : State) : Host.Outcome State Fault Refusal := live s fun s => s.cohBinvDone

/-- What COH_SLOT.REVOKE does (R537): discarded when the slot is not assigned. -/
def hookCohSlot : Hook := fun v s =>
  if !tst v 8 then (s, 0)
  else
    let slot := bits v 7 0
    match s.slotHost slot with
    | none => (s, fState)
    | some _ =>
      if s.homes.jobs.contains (jobRevoke slot) then (s, fState)
      else (s.binvJob (jobRevoke slot) false (some slot) fun e => keySlot e.1 == slot, 0)

/-- SLOT_REVOKE (R537). -/
def execSlotRevoke (slot : BitVec 8) (c : Cmd) (s : State) : Host.Outcome State Fault Refusal :=
  live s fun s => s.ctlWrite F.homeCohSlotRevoke.csa
    (s.compose F.homeCohSlotRevoke.csa [(F.homeCohSlotSlot, slot.toNat), (F.homeCohSlotRevoke, 1)]) c hookCohSlot

/-- An uncorrectable error in a filter entry (R85): SnpInvWay for the one way of the slot's adapter.  While the entry names no line,
the transaction stands under an address that no pool pointer has (DESIGN CHOICE, log entry 15). -/
def State.filterEcc (s : State) (hm slot set way : Nat) : State :=
  if (s.slotHost slot).isNone then s.fClr (fKey hm slot set way)
  else
    let e := s.fGet (fKey hm slot set way)
    let a := if e.st = 0 then 2 ^ 48 + fKey hm slot set way * 128 else e.ptr
    (s.submit hm { req0 with op := 0x201, addr := a, tag := slot, version := set, way := way, arrive := s.beat }).settle hm

/-- FILTER_ECC_ERROR (R85). -/
def execFilterEccError (home : Fin 64) (slot : BitVec 8) (set : BitVec 6) (way : BitVec 3) (s : State) :
    Host.Outcome State Fault Refusal :=
  live s fun s => s.filterEcc home.val slot.toNat set.toNat way.toNat

end Sys2Proof.Machine
end

