-- ==== Sys2Proof/Machine/Power.lean ====
section
/-! DEFINITION. The fatal halt as every source enters it, the beat distribution, frequency steps, rails, the core
voltage, reference clocks and thermal limits (R19 to R30, R426, R446, R516 to R533). -/

namespace Sys2Proof.Machine

/-! ## The fatal halt (R426, R446) -/

/-- A fatal error of a block, resolved two beats after the present one: the event, the record of the first one, every
fabric lane muted, HALTED. -/
def State.fatal (s : State) (blk : Nat) (bit : Option Nat) : State :=
  let s := s.raise blk 3 bit
  if s.halted then s
  else
    let s := ((s.wr F.rstCtlHalted 1).wr F.rstCauseFblk blk).wr F.rstCauseFbeat (s.beat % 2 ^ 32)
    let s := each (List.range 64) (fun p s => s.wr (F.fportLstatTxmask p) 0) s
    { s with rst := { s.rst with haltAt := some s.eff }, disp := { s.disp with insts := [] } }

/-! ## The beat (R19, R20) -/

/-- A pulse reaches a replica that holds `count` (R20): it reloads and reports when the low 8 bits disagree.  The rule names neither
the block that reports nor an event bit: BEAT reports, without a bit (DESIGN CHOICE, log entry 2). -/
def State.beatPulse (s : State) (island count : Nat) : State :=
  let off := (count + 2 ^ 64 - s.beat) % 2 ^ 64
  let set (v : Nat) : State :=
    { s with beatNet := { s.beatNet with replica := SMap.set 0#64 s.beatNet.replica island (BitVec.ofNat 64 v) } }
  if count % 256 = s.beat % 256 then set off else (set 0).raise blkBeat 9 none

/-- A distribution tree of an island fails (R20); BEAT reports it, without an event bit (DESIGN CHOICE, log entry 2). -/
def State.treeFail (s : State) (island tree : Nat) : State :=
  let t := SMap.get 0 s.beatNet.trees island ||| 2 ^ tree
  let s := { s with beatNet := { s.beatNet with trees := SMap.set 0 s.beatNet.trees island t } }
  if t = 3 then s.fatal blkBeat none else s.raise blkBeat 9 none

/-! ## Frequency steps (R25 to R30, R238, R520 to R523); code 0 is the highest step -/

/-- Change what PWR holds. -/
def State.setPwr (s : State) (f : Pwr → Pwr) : State := { s with pwr := f s.pwr }

/-- The current step. -/
def State.step' (s : State) : Nat := s.rd F.pwrFstepCtlCur

/-- Command the voltage of a step. -/
def State.command (s : State) (st : Nat) : State := s.setPwr fun p => { p with vcmd := p.vstep.getD st 750 }

/-- Show the ceiling in force: the lower of the thermal and the current ceiling. -/
def State.showCeil (s : State) : State :=
  let c := max ((s.pwr.thermCeil.map (·.1)).getD 0) ((s.pwr.currCeil.map (·.1)).getD 0)
  (s.wr F.pwrFstepCtlThermal (if s.pwr.thermCeil.isSome || s.pwr.currCeil.isSome then 1 else 0)).wr F.pwrFstepCtlCeil c

/-- A step above the ceiling in force? -/
def State.aboveCeil (s : State) (st : Nat) : Bool := s.on F.pwrFstepCtlThermal && st < s.rd F.pwrFstepCtlCeil

/-- Begin the voltage raise of a pending change that the ceiling allows (R521). -/
def State.beginRaise (s : State) (b : Nat) : State :=
  let t := s.rd F.pwrFstepCtlTarget
  if s.on F.pwrFstepCtlPending && t < s.step' && !s.aboveCeil t && s.pwr.raiseAt.isNone && s.pwr.halt.isNone then
    (s.command t).setPwr fun p => { p with raiseAt := some b, confirmed := none }
  else s

/-- The step that holds once a change under way is over. -/
def State.nextStep (s : State) : Nat := match s.pwr.halt with
  | some (st, _) => st
  | none => s.step'

/-- The write of TARGET by `writer` takes effect (R26, R28, R238, R521).  A FSTEP_AT stated too early is clamped and recorded under
its own offset.  A target that is the step in force anyway, under no ceiling below it, leaves no change pending (DESIGN CHOICE, log
entry 4). -/
def hookFstep (writer : Nat) : Hook := fun _ s =>
  let t := s.rd F.pwrFstepCtlTarget
  let c := s.rd F.dispPatStatCeil
  let (s, t, f) := if t < c then (s.wr F.pwrFstepCtlTarget c, c, fRange) else (s, t, 0)
  let lim := s.eff + 64
  let old := s.rd F.pwrFstepAtBeat
  let s := if old < lim then (s.wr F.pwrFstepAtBeat lim).clampEntry blkPwr 0x108 writer fRange old lim else s
  let waits := s.pwr.raiseAt.isSome
  let s := s.setPwr fun p => { p with raiseAt := none, confirmed := none }
  let s := if waits then s.command s.step' else s
  if t = s.nextStep && !s.aboveCeil t then (s.wr F.pwrFstepCtlPending 0, f)
  else ((s.wr F.pwrFstepCtlPending 1).beginRaise s.eff, f)

/-- Tile clocks halt for a change to step `st` (R26). -/
def State.haltTiles (s : State) (st : Nat) : State :=
  let s := s.setPwr fun p => { p with halt := some (st, s.beat + 64), raiseAt := none, confirmed := none }
  s

/-- A change that is due begins at this mesh-bar boundary (R26, R30, R521). -/
def State.fstepBegin (s : State) : State :=
  let t := s.rd F.pwrFstepCtlTarget
  let ready := s.on F.pwrFstepCtlPending && s.rd F.pwrFstepAtBeat ≤ s.beat && s.pwr.halt.isNone && !s.aboveCeil t &&
    (s.step' ≤ t || (match s.pwr.confirmed with | some b => b ≤ s.beat | none => false))
  if ready then
    let new := if s.on F.pwrFstepCtlThermal then max t (s.rd F.pwrFstepCtlCeil) else t
    (s.wr F.pwrFstepCtlPending 0).haltTiles new
  else s

/-- The tile clocks resume at the new step; bar counters restart (R26, R188); a lower voltage follows (R521). -/
def State.fstepResume (s : State) : State :=
  match s.pwr.halt with
  | some (st, b) =>
    if b ≤ s.beat then
      let s := (s.rebase.wr F.pwrFstepCtlCur st).setPwr fun p => { p with halt := none }
      (s.command st).beginRaise s.beat
    else s
  | none => s

/-- A held ceiling below the current step lowers the step at this mesh-bar boundary (R29, R30, R522).  A TARGET that had been applied
before is not pending again: after the lift the lowered step stays until TARGET is next written (DESIGN CHOICE, log entry 5). -/
def State.thermalStep (s : State) : State :=
  let c := s.rd F.pwrFstepCtlCeil
  let t := s.rd F.pwrFstepCtlTarget
  if s.on F.pwrFstepCtlThermal && s.step' < c && s.pwr.halt.isNone then
    let due := s.on F.pwrFstepCtlPending && s.rd F.pwrFstepAtBeat ≤ s.beat && s.step' < t
    let new := if due then max t c else c
    let s := if due && new = t then s.wr F.pwrFstepCtlPending 0 else s
    let s := if s.pwr.raiseAt.isSome then s.command new else s
    s.haltTiles new
  else s

/-- Beats in 1 ms and in 10 ms. -/
def ms : Nat := 31250

/-- The thermal ceiling lifts (R30, R527). -/
def State.thermLift (s : State) : State :=
  match s.pwr.coolSince with
  | some b =>
    if b + ms ≤ s.beat && s.pwr.thermCeil.isSome then
      ((s.setPwr fun p => { p with thermCeil := none }).showCeil).beginRaise s.beat
    else s
  | none => s

/-- A ceiling lowered or set: from none to one step below the step in force, else one further step after 10 ms. -/
def lowerCeil (c : Option (Nat × Nat)) (cur beat : Nat) : Option (Option (Nat × Nat)) :=
  match c with
  | none => some (some (min 3 (cur + 1), beat))
  | some (x, b) => if b + 10 * ms ≤ beat && x < 3 then some (some (x + 1, beat)) else none

/-- The junction temperature: the highest of the 40 sensors' readings in °C, each of 9 bits in two's complement (R526). -/
def hottest (v : BitVec 360) : Int :=
  ((List.range 40).map fun i => (BitVec.ofNat 9 (bits v.toNat (9 * i + 8) (9 * i))).toInt).foldl max (-256)

/-- A junction reading (R526, R527). -/
def State.junction (s : State) (t : Int) : State :=
  let s := s.setPwr fun p => { p with temp := t, coolSince := if t < 92 then some (p.coolSince.getD s.beat) else none }
  let act (c : Option (Nat × Nat)) : State :=
    ((s.setPwr fun p => { p with thermCeil := c }).showCeil).raise blkPwr 9 (some 19)
  if 102 ≤ t && (s.pwr.thermCeil.map (·.1)) ≠ some 3 then act (some (3, s.beat))
  else if 97 ≤ t then
    match lowerCeil s.pwr.thermCeil s.step' s.beat with
    | some c => act c
    | none => s
  else s

/-- The VCORE current means over 1 ms, 10 µs and 10 ms (R523). -/
def State.current (s : State) (m1 mu m10 : Nat) : State :=
  let s := s.setPwr fun p => { p with amps := m1 }
  if 1900 < m1 || 2300 < mu then
    match lowerCeil s.pwr.currCeil s.step' s.beat with
    | some c => ((s.setPwr fun p => { p with currCeil := c }).showCeil).raise blkPwr 9 (some 18)
    | none => s
  else if m10 < 1700 && s.pwr.currCeil.isSome then
    ((s.setPwr fun p => { p with currCeil := none }).showCeil).beginRaise s.beat
  else s

/-- 110 °C: fatal error and THERMTRIP_N (R528). -/
def State.thermTrip (s : State) (t : Int) : State :=
  if 110 ≤ t then (s.setPwr fun p => { p with temp := t, thermtrip := true, coolSince := none }).fatal blkPwr (some 20) else s

/-- THERMTRIP_N is released below 90 °C (R528). -/
def State.tripRelease (s : State) (t : Int) : State :=
  if t < 90 then s.setPwr fun p => { p with temp := t, thermtrip := false } else s

/-! ## Rails and voltage (R516 to R523) -/

/-- Ride-through of a rail in whole beats: 10 µs, or 50 µs for the optical rails. -/
def rideBeats (r : Nat) : Nat := if r < 4 then 312 else 1562

/-- A raise that waits for confirmation is abandoned (R522). -/
def State.abandon (s : State) : State :=
  if s.pwr.raiseAt.isSome && s.pwr.confirmed.isNone then
    let s := (s.command s.step').setPwr fun p => { p with raiseAt := none }
    (s.wr F.pwrFstepCtlPending 0).raise blkPwr 9 (some 24)
  else s

/-- A rail leaves its fault window (R518). -/
def State.railFault (s : State) (r : Nat) : State :=
  if s.pwr.railsOut.any fun x => x.1 == r then s
  else
    let s := (s.setPwr fun p => { p with railsOut := p.railsOut ++ [(r, s.beat)] }).raise blkPwr 1 (some 16)
    if r = 0 then s.abandon else s

/-- A rail is back within its window (R518). -/
def State.railReturn (s : State) (r : Nat) : State :=
  if s.pwr.railsOut.any fun x => x.1 == r then
    s.setPwr fun p =>
      let o := p.railsOut.filter fun x => x.1 ≠ r
      { p with railsOut := o, railsOkSince := if o.isEmpty then s.beat else p.railsOkSince }
  else s

/-- A rail stays out beyond its ride-through (R518). -/
def State.rideExpiry (s : State) (r : Nat) : State :=
  if s.pwr.railsOut.any fun x => x.1 == r && x.2 + rideBeats r < s.beat then
    let s := s.fatal blkPwr (some 17)
    s.setPwr fun p => { p with railHalt := some (p.railHalt.getD (s.rst.haltAt.getD s.eff)) }
  else s

/-- An AVSBus frame (R519): whether a valid response came, the regulator's alert, and the readings it carries. -/
def State.avsFrame (s : State) (valid alert : Bool) (mv amps : Nat) : State :=
  if valid then
    let s := s.setPwr fun p => { p with avsMiss := 0, vcore := mv, amps := amps }
    if alert then (s.raise blkPwr 1 (some 21)).abandon else s
  else
    let n := s.pwr.avsMiss + 1
    let s := s.setPwr fun p => { p with avsMiss := n }
    if 3 ≤ n then s.fatal blkPwr (some 22) else s.raise blkPwr 9 (some 22)

/-- VCORE window of each step in mV (Table PKG-3). -/
def vcoreWindow : Nat → Nat × Nat
  | 0 => (740, 800) | 1 => (710, 770) | 2 => (680, 740) | _ => (650, 700)

/-- The closed loop moves the command of the current step by at most 5 mV, at most once per 1 ms (R520). -/
def State.vcoreAdjust (s : State) (up : Bool) (mv : Nat) : State :=
  let due := match s.pwr.lastAdjust with | some b => b + ms ≤ s.beat | none => true
  if !due then s
  else
    let st := s.step'
    let d := min mv 5
    let v := s.pwr.vstep.getD st 750
    let (lo, hi) := vcoreWindow st
    let v := clamp lo hi (if up then v + d else v - d)
    let s := s.setPwr fun p => { p with vstep := p.vstep.set st v, lastAdjust := some s.beat }
    if s.pwr.raiseAt.isNone && s.pwr.halt.isNone then s.command st else s

/-- A read-back of the voltage while a raise waits (R521). -/
def State.voltConfirm (s : State) (mv : Nat) : State :=
  let s := s.setPwr fun p => { p with vcore := mv }
  let v := s.pwr.vcmd
  if s.pwr.raiseAt.isSome && s.pwr.confirmed.isNone && 985 * v ≤ 1000 * mv && 1000 * mv ≤ 1015 * v then
    s.setPwr fun p => { p with confirmed := some s.beat }
  else s

/-- No confirmation within 3,125 beats (R522). -/
def State.raiseAbandon (s : State) : State :=
  match s.pwr.raiseAt with
  | some b => if b + 3125 ≤ s.beat then s.abandon else s
  | none => s

/-- A reference misses 8 edges (R525). -/
def State.refLost (s : State) (r : Nat) : State :=
  (s.setPwr fun p => { p with refLost := p.refLost ||| 2 ^ r }).fatal blkPwr (some 23)

/-- Bytes 0x00 to 0x13 of Table PKG-7. -/
def State.i3cItems (s : State) (watts : Nat) : List Byte :=
  let t := s.pwr.temp
  natLe 8 (s.reg F.rstDevidStepping.csa) ++
  [BitVec.ofNat 8 (s.rd F.rstCtlStage + 16 * s.rd F.rstCtlHalted + (if s.pwr.thermtrip then 32 else 0)),
   BitVec.ofNat 8 (if t < 0 then 0 else min 255 t.toNat)] ++
  natLe 2 s.pwr.vcore ++ natLe 2 s.pwr.amps ++ natLe 2 watts ++
  [BitVec.ofNat 8 (s.step' + 4 * s.rd F.pwrFstepCtlCeil + 16 * s.rd F.pwrFstepCtlThermal),
   BitVec.ofNat 8 ((List.range 7).foldl (fun a r => if s.pwr.railsOut.any fun x => x.1 == r then a else a + 2 ^ r) 0)] ++
  natLe 2 (bits (s.reg (F.hdrEvtEvt blkPwr).csa) 31 16)

/-- A private read of the I3C target: `n` bytes from an offset (R532). -/
def State.i3cRead (s : State) (off n : Nat) : State :=
  let (f, s) := s.draw
  let bs := sliceZ (s.i3cItems (Config.packagePower f).toNat) off n
  s.setPwr fun p => { p with i3c := bs }

/-- BEAT_REPLICA_RELOAD: an island's replica holds `count` when the pulse comes (R20). -/
def execBeatReplicaReload (island : Fin 100) (count : Word) (s : State) : Host.Outcome State Fault Refusal :=
  live s fun s => s.beatPulse island.val count.toNat

/-- BEAT_TREE_FAILURE (R20). -/
def execBeatTreeFailure (island : Fin 100) (tree : Fin 2) (s : State) : Host.Outcome State Fault Refusal :=
  live s fun s => s.treeFail island.val tree.val

/-- FSTEP_TARGET (R26, R28, R238). -/
def execFstepTarget (target : BitVec 2) (c : Cmd) (s : State) : Host.Outcome State Fault Refusal :=
  always s fun s =>
    let a := F.pwrFstepCtlTarget.csa
    s.ctlWrite a (s.compose a [(F.pwrFstepCtlTarget, target.toNat)]) c (hookFstep c.writer.toNat)

/-- FSTEP_BEGIN at a mesh-bar boundary (R26). -/
def execFstepBegin (s : State) : Host.Outcome State Fault Refusal := live s fun s => s.fstepBegin

/-- FSTEP_RESUME (R26). -/
def execFstepResume (s : State) : Host.Outcome State Fault Refusal := live s fun s => s.fstepResume

/-- THERMAL_STEP_DOWN at a mesh-bar boundary (R29). -/
def execThermalStepDown (s : State) : Host.Outcome State Fault Refusal := live s fun s => s.thermalStep

/-- THERMAL_CEILING_LIFT (R30). -/
def execThermalCeilingLift (s : State) : Host.Outcome State Fault Refusal := always s fun s => s.thermLift

/-- RAIL_FAULT of a rail of Table PKG-2 other than VAON (R518). -/
def execRailFault (rail : Fin 6) (s : State) : Host.Outcome State Fault Refusal := always s fun s => s.railFault rail.val

/-- RAIL_RETURN (R518). -/
def execRailReturn (rail : Fin 6) (s : State) : Host.Outcome State Fault Refusal := always s fun s => s.railReturn rail.val

/-- RIDE_THROUGH_EXPIRY (R518). -/
def execRideThroughExpiry (rail : Fin 6) (s : State) : Host.Outcome State Fault Refusal :=
  always s fun s => s.rideExpiry rail.val

/-- AVSBUS_FRAME (R519). -/
def execAvsbusFrame (valid alert : Bool) (mv amps : BitVec 16) (s : State) : Host.Outcome State Fault Refusal :=
  always s fun s => s.avsFrame valid alert mv.toNat amps.toNat

/-- VCORE_ADJUST (R520). -/
def execVcoreAdjust (up : Bool) (mv : BitVec 3) (s : State) : Host.Outcome State Fault Refusal :=
  always s fun s => s.vcoreAdjust up mv.toNat

/-- VOLTAGE_CONFIRM with the reading (R521). -/
def execVoltageConfirm (mv : BitVec 16) (s : State) : Host.Outcome State Fault Refusal :=
  always s fun s => s.voltConfirm mv.toNat

/-- RAISE_ABANDON (R522). -/
def execRaiseAbandon (s : State) : Host.Outcome State Fault Refusal := always s fun s => s.raiseAbandon

/-- CURRENT_CEILING: means over 1 ms, 10 µs and 10 ms in A (R523). -/
def execCurrentCeiling (mean1ms mean10us mean10ms : BitVec 12) (s : State) : Host.Outcome State Fault Refusal :=
  always s fun s => s.current mean1ms.toNat mean10us.toNat mean10ms.toNat

/-- REFERENCE_CLOCK_LOST: 0 REFCLK_SYS, 1 REFCLK_TK (R525). -/
def execReferenceClockLost (ref : Fin 2) (s : State) : Host.Outcome State Fault Refusal :=
  always s fun s => s.refLost ref.val

/-- THERMAL_THRESHOLD: the readings of the 40 junction sensors (R527). -/
def execThermalThreshold (temps : BitVec 360) (s : State) : Host.Outcome State Fault Refusal :=
  always s fun s => s.junction (hottest temps)

/-- THERMAL_TRIP (R528). -/
def execThermalTrip (temps : BitVec 360) (s : State) : Host.Outcome State Fault Refusal :=
  always s fun s => s.thermTrip (hottest temps)

/-- THERMTRIP_RELEASE (R528). -/
def execThermtripRelease (temps : BitVec 360) (s : State) : Host.Outcome State Fault Refusal :=
  always s fun s => s.tripRelease (hottest temps)

/-- I3C_PRIVATE_READ of `n` bytes (R532). -/
def execI3cPrivateRead (offset n : BitVec 8) (s : State) : Host.Outcome State Fault Refusal :=
  always s fun s => s.i3cRead offset.toNat n.toNat

/-- CONTROL_SPACE_ACCESS_ERROR: an access at this address (R501). -/
def execControlSpaceAccessError (csa : BitVec 32) (s : State) : Host.Outcome State Fault Refusal :=
  always s fun s => if csa.toNat % 8 ≠ 0 || 863 ≤ csa.toNat / 0x100000 then s.accessError else s

end Sys2Proof.Machine
end

