-- ==== Sys2Proof/Machine/Flash.lean ====
section
/-! DEFINITION. The flash tier: percolators, page moves, flash slots and drives (R152 to R175). -/

namespace Sys2Proof.Machine

/-- Free list of a percolator for a zone. -/
def State.freeList (s : State) (d z : Nat) : List Nat :=
  (s.flash.free.filter fun e => e.1 == d && s.zone (e.2 * 0x10000) == z).map (·.2)

/-- Show FREE, and PAUSED, of a percolator. -/
def State.percSync (s : State) (d : Nat) : State :=
  let s := s.wr (F.percStatFree d) (s.flash.free.filter fun e => e.1 == d).length
  s.wr (F.percCtlPaused d) (if s.on (F.percCtlPause d) && !(s.flash.moves.any fun m => m.demote && m.perc == d) then 1 else 0)

/-- Put a frame at the end of a percolator's free list (FIFO: DESIGN CHOICE, log entry 45). -/
def State.freePut (s : State) (d f : Nat) : State :=
  (s.setFlash fun x => { x with free := x.free ++ [(d, f)] }).percSync d

/-- End a move. -/
def State.dropMove (s : State) (m : FMove) : State :=
  (s.setFlash fun x => { x with moves := x.moves.filter fun y => !(y.space == m.space && y.page == m.page) }).percSync m.perc

/-- Replace a move's record. -/
def State.putMove (s : State) (m : FMove) : State :=
  s.setFlash fun x => { x with moves := x.moves.map fun y => if y.space = m.space && y.page = m.page then m else y }

/-- RESIDENT and COLD of a region's record (Table FLS-1), moved by one page, and COLD of the owner. -/
def State.countCold (s : State) (g : Rgn) (d : Nat) (toFlash : Bool) : State :=
  let a := s.rgnDpa g.id + 48
  let w := (s.readBytes a 8 0).1
  let up (v : Nat) := min (v + 1) (2 ^ 32 - 1)
  let r := bits w 31 0
  let c := bits w 63 32
  let w := if toFlash then (r - 1) + 2 ^ 32 * up c else up r + 2 ^ 32 * (c - 1)
  let s := s.writeBytes a (natLe 8 w) 0
  s.wr (F.percStatCold d) (if toFlash then up (s.rd (F.percStatCold d)) else s.rd (F.percStatCold d) - 1)

/-! ## Extents (R168) -/

/-- May new extents be taken on a drive, alone or with its duplex? -/
def State.drvTakes (s : State) (n : Nat) (two : Bool) : Bool := s.drv n == 2 && (!two || s.drv (duplex n) == 2)

/-- Take an extent for an owner: the next drive of its die in round robin, its lowest free extent (log entry 45), on
the duplex drive too where `two`. -/
def State.takeExtent (s : State) (d : Nat) (two : Bool) (not_ : Nat → Bool) : Option Nat × State :=
  let last := s.flash.robin.getD d 0
  let order := (List.range 8).map fun i => 8 * d + (last + 1 + i) % 8
  let pick := order.findSome? fun n =>
    if not_ n || !s.drvTakes n two then none
    else
      let lim := if two then min (s.rd (F.nvpDrvExtents n)) (s.rd (F.nvpDrvExtents (duplex n))) else s.rd (F.nvpDrvExtents n)
      (findLow (s.flash.used.length + 1) fun i =>
        let e := 2 * i + d
        e < lim && !s.flash.used.contains (n, e) && (!two || !s.flash.used.contains (duplex n, e))).map fun i => (n, 2 * i + d)
  match pick with
  | none => (none, s)
  | some (n, e) =>
    let s := s.setFlash fun x => { x with robin := x.robin.set d (n % 8) }
    let s := s.markExtent n e true
    let s := if two then s.markExtent (duplex n) e true else s
    (some (n * 2 ^ 28 + e), s)

/-! ## Promotion (R157, R158, R170) -/

/-- The COLD fault record that a page's fill belongs to. -/
def State.coldRec (s : State) (hm i : Nat) : Option FaultRec :=
  (s.recOf hm i).bind fun x => if x.cause = 1 then some x else none

/-- A fill reaches the owner: a frame is taken and the read begins, or the fill waits (R157, R162). -/
def State.fillRequest (s : State) (hm i : Nat) : State :=
  match s.coldRec hm i with
  | none => s.setFlash fun x => { x with fills := x.fills.filter (· ≠ (hm, i)) }
  | some x =>
    let d := percOf x.page
    match s.rgn? x.region with
    | none => s
    | some g =>
      if (s.moveOf x.space x.page).isSome then s
      else if s.leafHeld x.space (x.page * 0x10000) then
        (if s.flash.fills.contains (hm, i) then s else s.setFlash fun y => { y with fills := y.fills ++ [(hm, i)] })
      else
        let wait : State := if s.flash.fills.contains (hm, i) then s
          else s.setFlash fun y => { y with fills := y.fills ++ [(hm, i)] }
        let e := s.leafOf x.space x.page
        if s.on (F.hdrStateInreset (blkPerc d)) then wait
        else if leafLoc e ≠ 2 then s
        else if s.rd (F.percCtlMaxInflight d) ≤ (s.flash.moves.filter fun m => m.perc == d).length then wait
        else match s.freeList d g.pcode with
          | [] => wait
          | f :: _ =>
            let h := leafFrame e
            let s := (s.setFlash fun y => { y with
              free := y.free.erase (d, f), fills := y.fills.filter (· ≠ (hm, i)) })
            let s := s.setLeaf x.space (x.page * 0x10000) 3 f
            let s := s.tel (blkNvp (h / 2 ^ 28 % 16)) 1 2 1
            (s.setFlash fun y => { y with moves := y.moves ++
              [(⟨d, g.id, x.space, x.page, false, f, h, s.beat, 0, false, 0#512, []⟩ : FMove)] }).percSync d

/-- Promotions that waited try again, oldest first. -/
def State.retryFills (s : State) : State := each s.flash.fills (fun w s => s.fillRequest w.1 w.2) s

/-- A slot as a read of a drive returns it: readable when the drive serves, the trailer names the page and the CRC
matches (R167). -/
def State.readSlot (s : State) (drive h sp page : Nat) : Option FSlot :=
  if !s.drvReads drive then none
  else
    let x := SMap.get slot0 s.flash.slots (slotKey drive h page)
    if x.space = sp && x.page = page && x.crc = crc64 ((List.range 65536).map (memByte x.data)) then some x else none

/-- The NVMe read of a promotion completes (R157, R167, R170); `bad`: the first copy fails its trailer check. -/
def State.promoteRead (s : State) (sp page : Nat) (bad : Bool) : State :=
  match s.moveOf sp page with
  | none => s
  | some m =>
    if m.demote || m.stage ≠ 0 then s
    else
      let n := m.handle / 2 ^ 28 % 16
      let two := match s.rgn? m.region with | some g => decide (1 ≤ g.pcode) | none => false
      let first := if bad then none else s.readSlot n m.handle sp page
      let got := match first with
        | some x => some x
        | none => if two then s.readSlot (duplex n) m.handle sp page else none
      let s := if first.isNone then s.tel (blkNvp n) 2 2 1 else s
      let s := if got.isNone then s.raise (blkPerc m.perc) 6 none else s
      let x := got.getD { slot0 with poison := BitVec.allOnes 512 }
      let s := each (List.range 512) (fun i s =>
        let l := BitVec.ofNat 1024 ((x.data.filter fun c => 128 * i ≤ c.1 && c.1 < 128 * i + 128).foldl
          (fun acc c => acc + c.2.toNat * 2 ^ (8 * (c.1 - 128 * i))) 0)
        s.writeDram (m.frame * 0x10000 + 128 * i) l (BitVec.allOnes 128) (x.poison.getLsbD i) 0) s
      s.putMove { m with stage := 1, lost := got.isNone }

/-- Close every open record of a page as filled. -/
def State.fillRecs (s : State) (sp page : Nat) : State :=
  each (s.homes.recs.filter fun x => x.state == 1 && x.space == sp && x.page == page && (x.cause == 1 || x.cause == 2))
    (fun x s => s.closeRec x 2 stOk) s

/-- A promotion's writes are complete: the move ends at the fault home (R157). -/
def State.promotionEnd (s : State) (sp page : Nat) : State :=
  match s.moveOf sp page with
  | none => s
  | some m =>
    if m.demote || m.stage ≠ 1 then s
    else match s.rgn? m.region with
      | none => s
      | some g =>
        if s.leafHeld sp (page * 0x10000) || (s.recHeld g page).isSome then s
        else
        let s := s.setLeaf sp (page * 0x10000) 0 m.frame
        let s := s.setPageRec g page (setBits (setBits (s.pageRec g page) 63 48 (s.beat / 2 ^ 15)) 41 41 (if m.lost then 0 else 1))
        let s := s.releaseExtent g page
        let s := (s.countCold g m.perc false).tel (blkPerc m.perc) 2 0 1
        ((s.dropMove m).fillRecs sp page).retryFills

/-! ## Demotion (R156, R158, R161, R162) -/

/-- Tiered regions whose records fit the record area (R154). -/
def State.tieredRgns (s : State) : List Rgn :=
  s.rgns.filter fun g => g.tier == 2 &&
    (s.readBytes (s.rgnDpa g.id + 40) 4 0).1 + g.len ≤ s.rd F.percAreaRecLen * 8192

/-- Is a page a permitted victim of its owner (R161)? -/
def State.victimOk (s : State) (g : Rgn) (d z page : Nat) : Bool :=
  let e := s.leafOf g.space page
  let w := (s.readBytes (s.rgnDpa g.id + 48) 12 0).1
  let r := s.pageRec g page
  let age := (s.beat / 2 ^ 15 + 2 ^ 16 - bits r 63 48) % 2 ^ 16 * 2 ^ 15
  !s.leafHeld g.space (page * 0x10000) && (s.recHeld g page).isNone && percOf page == d && tst e 0 && tst e 1 && leafLoc e == 0 && s.zone (leafFrame e * 0x10000) == z &&
    (match s.entryDpa g.space (page * 0x10000) with | some (_, lg) => lg == 16 | none => false) &&
    bits w 95 64 < bits w 31 0 &&
    s.rd (F.percCtlMinRes d) * 31250 ≤ age &&
    !(s.pub.stagings.any fun x => x.region == g.id && x.pages.any fun p => p.1 == page) &&
    !(s.pub.copies.any fun x => x.region == g.id && x.page == page) &&
    !(s.pub.commits.any fun x => x.region == g.id && x.pages.any fun p => p.1 == page) &&
    !(g.mode == 2 && 1 < g.retained) && (s.moveOf g.space page).isNone

/-- The victim of the clock hand (R161): the first at or after the hand with HEAT ≤ COOL, else the coolest of the lap. -/
def State.victim (s : State) (d z : Nat) : Option (Rgn × Nat × Nat) :=
  let all := (s.tieredRgns.map fun g =>
    let p0 := (s.readBytes (s.rgnDpa g.id + 40) 4 0).1
    ((List.range g.len).filter fun u => s.victimOk g d z (g.base + u)).map fun u => (g, g.base + u, p0 + u)).flatten
  let h := s.flash.hand.getD d 0
  let sorted := sortBy (fun x => x.2.2) all
  let lap := sorted.filter (fun x => h ≤ x.2.2) ++ sorted.filter (fun x => x.2.2 < h)
  let heat (x : Rgn × Nat × Nat) := bits (s.pageRec x.1 x.2.1) 39 32
  match lap.find? fun x => heat x ≤ s.rd (F.percCtlCool d) with
  | some x => some x
  | none => minBy? heat lap

/-- Demotions that a percolator has started in the last millisecond (R162). -/
def State.recentStarts (s : State) (d : Nat) : Nat := (s.flash.starts.filter fun x => x.1 == d && s.beat < x.2 + 31250).length

/-- A demotion starts while a zone's free list is low; promotions that can start go first (R156 steps 1 and 2, R161, R162). -/
def State.demotionBegin (s : State) (d z : Nat) : State :=
  let n := (s.freeList d z).length
  let on := n < s.rd (F.percWmLowWm d) || (s.flash.refilling.contains (d, z) && n < s.rd (F.percWmHighWm d))
  let s := s.setFlash fun x => { x with
    refilling := if on then (if x.refilling.contains (d, z) then x.refilling else x.refilling ++ [(d, z)])
                 else x.refilling.filter (· ≠ (d, z)) }
  if !on || !s.on (F.percCtlEn d) || s.on (F.percCtlPause d) ||
      s.rd (F.percCtlMaxInflight d) ≤ (s.flash.moves.filter fun m => m.perc == d).length ||
      s.rd (F.percWmDemRate d) ≤ s.recentStarts d then s
  else match s.victim d z with
    | none => s
    | some (g, page, idx) =>
      let f := leafFrame (s.leafOf g.space page)
      let s := s.setLeaf g.space (page * 0x10000) 3 f
      let s := (s.setFlash fun x => { x with
        hand := x.hand.set d (idx + 1),
        starts := (x.starts.filter fun y => s.beat < y.2 + 31250) ++ [(d, s.beat)],
        moves := x.moves ++ [(⟨d, g.id, g.space, page, true, f, bits (s.pageRec g page) 31 0, s.beat, 0, false, 0#512, []⟩ : FMove)] }).percSync d
      s.binvJob (jobPage g.id page) false none (inRange g.space page 1)

/-- A demotion is undone: the page returns to HOT with its old frame (R158, R170). -/
def State.demotionAbort (s : State) (m : FMove) : State :=
  let s := (s.setLeaf m.space (m.page * 0x10000) 0 m.frame).tel (blkPerc m.perc) 4 0 1
  ((s.dropMove m).fillRecs m.space m.page).retryFills

/-- A write of SRAM_CTL: the tier's lines are to be loaded anew (R164). -/
def hookSram : Hook := fun _ s => ({ s with homes := { s.homes with sram := [] } }, 0)

/-- Has an IN_TRANSIT record been opened for a page (R158)? -/
def State.wanted (s : State) (sp page : Nat) : Bool :=
  s.homes.recs.any fun x => x.state == 1 && x.space == sp && x.page == page && x.cause == 2

/-- An IN_TRANSIT record opened before the end of a demotion aborts it (R158). -/
def State.wantPage (s : State) (f : PageFault) : State :=
  match s.moveOf f.space f.page with
  | some m => if f.cause = 2 && f.size = 0 && m.demote && s.wanted f.space f.page && !s.leafHeld f.space (f.page * 0x10000) then
      s.demotionAbort m else s
  | none => s

/-- Write back and drop the lines of a frame from the home line caches (R156). -/
def State.flushFrame (s : State) (f : Nat) : State :=
  let ls := (s.homes.lc.filter fun e => e.1 / 512 == f).map fun e => e.1 * 128
  each ls (fun a s => (s.lcForce a 0).lcDrop a) s

/-- Do accesses that began before the demotion still use the translation that it dropped (R46, R156 step 1)? -/
def State.pageUsed (s : State) (m : FMove) : Bool :=
  s.homes.txns.any fun t => t.req.op < 0x200 && t.opened ≤ m.since && ptrSpace t.line == m.space && ptrOff t.line / 0x10000 == m.page

/-- The page has been read (R156 step 3) and the flash write is issued on an extent assigned now if need be (R168). -/
def State.demoteRead (s : State) (sp page : Nat) : State :=
  match s.moveOf sp page with
  | none => s
  | some m =>
    if !m.demote || m.stage ≠ 0 || s.jobBusy (jobPage m.region page) || s.pageUsed m || s.frameHeld m.frame then s
    else if s.wanted sp page then s.demotionAbort m
    else match s.rgn? m.region with
      | none => s
      | some g =>
        if (g.mib page).any fun p => (s.recHeld g p).isSome then s
        else
        let s := s.flushFrame m.frame
        let (po, cells, s) := (List.range 512).foldl (fun (acc : BitVec 512 × List Host.Cell × State) i =>
          let (rd, s) := acc.2.2.readDram (m.frame * 0x10000 + 128 * i) 2 0
          (if rd.poison then acc.1 ||| (1#512 <<< i) else acc.1,
           memWrite acc.2.1 (128 * i) (lineBytes rd.data), s)) (0#512, [], s)
        let r := s.pageRec g page
        let (h, s) := if tst r 40 then (some (bits r 31 0), s) else
          match s.takeExtent m.perc (decide (1 ≤ g.pcode)) (fun _ => false) with
          | (some h, s) => (some h, each (g.mib page) (fun p s =>
              s.setPageRec g p (setBits (setBits (s.pageRec g p) 31 0 h) 40 40 1)) s)
          | (none, s) => (none, s)
        match h with
        | none => s.demotionAbort m
        | some h =>
          let s := if tst r 41 then s else s.tel (blkNvp (h / 2 ^ 28 % 16)) 1 1 1
          s.putMove { m with stage := 1, handle := h, since := s.beat, poison := po, data := cells }

/-- Write a slot of a drive. -/
def State.writeSlot (s : State) (drive : Nat) (m : FMove) : State :=
  let w : FSlot := ⟨m.space, m.page, s.beat, crc64 ((List.range 65536).map (memByte m.data)), m.poison, m.data⟩
  s.setFlash fun x => { x with slots := SMap.set slot0 x.slots (slotKey drive m.handle m.page) w }

/-- The flash write completes and the move ends at the fault home (R156 steps 4 to 6, R158, R170). -/
def State.demotionEnd (s : State) (sp page : Nat) : State :=
  match s.moveOf sp page with
  | none => s
  | some m =>
    if !m.demote || m.stage ≠ 1 then s
    else match s.rgn? m.region with
      | none => s
      | some g =>
        let n := m.handle / 2 ^ 28 % 16
        let two := decide (1 ≤ g.pcode)
        let had := tst (s.pageRec g page) 41
        if s.leafHeld sp (page * 0x10000) || (s.recHeld g page).isSome then s
        else if !had && !(s.drv n = 2 && (!two || s.drv (duplex n) = 2)) then s.demotionAbort m
        else
          let s := if had then s else
            let s := s.writeSlot n m
            let s := if two then s.writeSlot (duplex n) m else s
            s.setPageRec g page (setBits (s.pageRec g page) 41 41 1)
          if s.wanted sp page then s.demotionAbort m
          else
            let s := s.setLeaf sp (page * 0x10000) 2 m.handle
            let s := (s.countCold g m.perc true).tel (blkPerc m.perc) 3 0 1
            ((s.dropMove m).freePut m.perc m.frame).retryFills

/-- Abandon the moves of a region: the frame goes back to its list and the slot is released.  With neither left, the leaf is made
not present (DESIGN CHOICE, log entry 27) (R159). -/
def State.flashAbandon (s : State) (g : Rgn) : State :=
  let s := s.setFlash fun x => { x with fills := x.fills.filter fun w =>
    !(s.homes.recs.any fun y => y.home == w.1 && y.idx == w.2 && y.state == 1 && y.region == g.id) }
  (each (s.flash.moves.filter fun m => m.region == g.id) (fun m s =>
    let s := ((s.dropMove m).freePut m.perc m.frame).clearLeaf g.space (m.page * 0x10000)
    let s := s.setPageRec g m.page (setBits (s.pageRec g m.page) 41 41 0)
    let n := m.handle / 2 ^ 28 % 16
    let keep (k : Nat) : Bool := k ≠ slotKey n m.handle m.page && (g.pcode == 0 || k ≠ slotKey (duplex n) m.handle m.page)
    (s.setFlash fun x => { x with slots := x.slots.filter fun y => keep y.1 }).releaseExtent g m.page) s).retryFills

/-- Move state of a percolator is reset (Table RST-5): demotions undone to HOT, promotions undone to COLD, and the open
COLD records request their fills again. -/
def State.percReset (s : State) (d : Nat) : State :=
  let s := each (s.flash.moves.filter fun m => m.perc == d) (fun m s =>
    if m.demote then s.demotionAbort m
    else ((s.setLeaf m.space (m.page * 0x10000) 2 m.handle).dropMove m).freePut d m.frame) s
  each (s.homes.recs.filter fun x => x.state == 1 && x.cause == 1 && percOf x.page == d) (fun x s =>
    s.fillRequest x.home x.idx) s

/-! ## Heat (R160) -/

/-- A touch from a home arrives: one that the home has sent, or one of a page that its filter does not hold yet (R160). -/
def State.touch (s : State) (hm sp page : Nat) : State :=
  match s.rgnAt sp (page * 0x10000) with
  | some g =>
    let s := s.touchSend hm g (page * 0x10000)
    if !s.flash.touches.contains (hm, sp, page) || g.tier ≠ 2 || s.rd F.percAreaRecLen = 0 || (s.recHeld g page).isSome then s
    else
      let s := s.setFlash fun x => { x with touches := x.touches.erase (hm, sp, page) }
      let r := s.pageRec g page
      (s.setPageRec g page (setBits r 39 32 (min 255 (bits r 39 32 + 1)))).tel (blkPerc (percOf page)) 1 0 1
  | none => s

/-- An epoch boundary of a percolator: every HEAT of its pages halved, touch filters cleared (R160). -/
def State.heatEpoch (s : State) (d : Nat) : State :=
  if s.flash.epochAt.getD d 0 + s.rd (F.percCtlEpoch d) * 31250 ≤ s.beat && !(s.tieredRgns.any fun g => g.pages.any fun p =>
      percOf p == d && (s.recHeld g p).isSome) then
    let s := s.setFlash fun x => { x with
      epochAt := x.epochAt.set d s.beat, touched := x.touched.filter fun t => percOf t.2.2 ≠ d }
    each s.tieredRgns (fun g s =>
      each ((List.range g.len).filter fun u => percOf (g.base + u) == d) (fun u s =>
        let r := s.pageRec g (g.base + u)
        if bits r 39 32 = 0 then s else s.setPageRec g (g.base + u) (setBits r 39 32 (bits r 39 32 / 2))) s) s
  else s

/-! ## Drives (R165, R166, R169 to R172) -/

/-- Drop everything a drive holds (R172). -/
def State.blankDrive (s : State) (n : Nat) : State :=
  s.setFlash fun x => { x with slots := x.slots.filter fun e => e.1 / 2 ^ 32 ≠ n }

/-- Does a drive meet Table FLS-4?  Lower link speeds and widths are accepted; flit mode belongs to PCIe 6.0. -/
def driveOk (l : DriveLink) (i : DriveInfo) : Bool :=
  l.gen ≠ 0 && l.lanes ≠ 0 && (l.flitMode || l.gen < 6) && 0x0200#16 ≤ i.version && i.ioSet && i.sgls ≠ 0 && 128#32 ≤ i.mdts &&
    i.nsid1 && i.lba4k && i.extents ≤ 0x10000000#32 && 32#16 ≤ i.adminDepth && 4#16 ≤ i.ioPairs && 64#16 ≤ i.ioDepth

/-- A drive links up: identified, checked and deallocated, then in service, or FAILED as not conformant; what its link and
identification show is kept, a lower speed or width an event of class 9 (R165, R172; the report's form is a DESIGN CHOICE, log entry
28).  EXTENTS has 28 bits: 2^28 extents show as 2^28 − 1. -/
def State.linkUp (s : State) (n : Nat) (l : DriveLink) (i : DriveInfo) : State :=
  if s.drv n ≠ 0 || !s.on (F.nvpDrvEn n) || s.on (F.nvpDrvSlotOff n) then s
  else
    let s := s.setFlash fun x => { x with info := SMap.insert (SMap.erase x.info n) n (l, i), shut := x.shut.filter (· ≠ n) }
    let s := if l.gen < 6 || l.lanes < 4 then s.raise (blkNvp n) 9 none else s
    if !driveOk l i then (s.wr (F.nvpDrvState n) 5).wr (F.nvpDrvCause n) 1
    else (((s.blankDrive n).wr (F.nvpDrvExtents n) (min i.extents.toNat (2 ^ 28 - 1))).wr (F.nvpDrvCause n) 0).wr (F.nvpDrvState n) 2

/-- Pages of an extent's 1 MiB whose slot holds something that is needed: COLD, or with FCOPY. -/
def State.livePages (s : State) (g : Rgn) (page : Nat) : List Nat :=
  (g.mib page).filter fun p => tst (s.pageRec g p) 41 || s.pageIs g p 2

/-- Read a page's slot from either drive of its extent. -/
def State.anySlot (s : State) (g : Rgn) (h page : Nat) : Option FSlot :=
  match s.readSlot (h / 2 ^ 28 % 16) h g.space page with
  | some x => some x
  | none => if 1 ≤ g.pcode then s.readSlot (duplex (h / 2 ^ 28 % 16)) h g.space page else none

/-- A single-copy page leaves a drive that no other drive of the die relieves: a COLD page is promoted as its frame list and
MAX_INFLIGHT allow, a copy of a HOT page is given up (R162, R171). -/
def State.giveUp (s : State) (g : Rgn) (p : Nat) : State :=
  let d := percOf p
  if !s.pageIs g p 2 then
    if (s.moveOf g.space p).isSome then s else s.setPageRec g p (setBits (s.pageRec g p) 41 41 0)
  else if s.rd (F.percCtlMaxInflight d) ≤ (s.flash.moves.filter fun m => m.perc == d).length then s
  else match s.freeList d g.pcode with
    | [] => s
    | f :: _ =>
      let h := leafFrame (s.leafOf g.space p)
      let s := s.setFlash fun y => { y with free := y.free.erase (d, f), moves := y.moves ++
        [(⟨d, g.id, g.space, p, false, f, h, s.beat, 0, false, 0#512, []⟩ : FMove)] }
      ((s.setLeaf g.space (p * 0x10000) 3 f).tel (blkNvp (h / 2 ^ 28 % 16)) 1 2 1).percSync d

/-- Move the slots of one extent of drive `n` to another extent: content copied from a readable copy, HANDLE and the leaves of COLD
pages rewritten (R170, R171).  It waits for moves of its pages, for held records, and for drives that can take it. -/
def State.moveExtent (s : State) (n e : Nat) : State :=
  match (s.flash.slots.find? fun x => x.1 / 16 == n * 2 ^ 28 + e).bind fun x => (s.rgnAt x.2.space (x.2.page * 0x10000)).map fun g => (x.2, g) with
  | none => s
  | some (x0, g) =>
    let two := decide (1 ≤ g.pcode)
    let h0 := bits (s.pageRec g x0.page) 31 0
    let mib := g.mib x0.page
    if mib.any fun p => (s.moveOf g.space p).isSome || (s.recHeld g p).isSome || s.leafHeld g.space (p * 0x10000) then s
    else match s.takeExtent (percOf x0.page) two (fun k => k == n || k == duplex n) with
      | (some h, s) =>
        let s := each (s.livePages g x0.page) (fun p s =>
          match s.anySlot g h0 p with
          | some x =>
            let put (k : Nat) (s : State) : State :=
              (s.setFlash fun y => { y with slots := SMap.set slot0 y.slots (slotKey k h p) x }).tel (blkNvp k) 1 1 1
            let s := put (h / 2 ^ 28) s
            if two then put (duplex (h / 2 ^ 28)) s else s
          | none => s) s
        let s := each mib (fun p s =>
          let s := if s.pageIs g p 2 then s.setLeaf g.space (p * 0x10000) 2 h else s
          s.setPageRec g p (setBits (s.pageRec g p) 31 0 h)) s
        let drop (k : Nat) (s : State) : State :=
          (s.markExtent k (h0 % 2 ^ 28) false).setFlash fun x => { x with slots := x.slots.filter fun y => y.1 / 16 ≠ k * 2 ^ 28 + h0 % 2 ^ 28 }
        let s := drop (h0 / 2 ^ 28 % 16) s
        if two then drop (duplex (h0 / 2 ^ 28 % 16)) s else s
      | (none, s) =>
        if two || (List.range 8).any fun k => 8 * percOf x0.page + k ≠ n && s.drv (8 * percOf x0.page + k) = 2 then s
        else (each (s.livePages g x0.page) (fun p s => s.giveUp g p) s).releaseExtent g x0.page

/-- Every extent with a slot on drive `n`. -/
def State.extentsOn (s : State) (n : Nat) : List Nat :=
  dedup ((s.flash.slots.filter fun x => x.1 / 2 ^ 32 == n).map fun x => x.1 / 16 % 2 ^ 28)

/-- Does an extent still lie on a drive? -/
def State.extentOn (s : State) (n e : Nat) : Bool := s.flash.slots.any fun x => x.1 / 16 == n * 2 ^ 28 + e

/-- The next extent that a percolator has to move, within DEM_RATE for copies after a failure (R162, R170, R171). -/
def State.extentNext (s : State) (d : Nat) : State :=
  match s.flash.copies.find? fun c => c.1 / 8 == d || c.2 % 2 == d with
  | none => s
  | some (n, e) =>
    let live := (s.flash.slots.filter fun x => x.1 / 16 == n * 2 ^ 28 + e).length
    if !s.on (F.percCtlEn d) || s.on (F.percCtlPause d) || (s.drv n = 5 && s.rd (F.percWmDemRate d) ≤ s.recentStarts d) then s
    else
      let t := s.moveExtent n e
      if t.extentOn n e then t
      else t.setFlash fun x => { x with
        copies := x.copies.erase (n, e),
        starts := if s.drv n = 5 then (x.starts.filter fun y => s.beat < y.2 + 31250) ++ List.replicate live (d, s.beat) else x.starts }

/-- DEMOTION_START of a percolator: promotions that can start, then an extent that it has to move, then a demotion of the zone. -/
def State.demotionStart (s : State) (d z : Nat) : State :=
  if s.on (F.hdrStateInreset (blkPerc d)) then s else ((s.retryFills).extentNext d).demotionBegin d z

/-- Put the extents of a drive in line to be moved: all of them, or the duplexed ones. -/
def State.copyQueue (s : State) (n : Nat) (all : Bool) : State :=
  let two (e : Nat) : Bool := match s.flash.slots.find? fun x => x.1 / 16 == n * 2 ^ 28 + e with
    | some (_, x) => (match s.rgnAt x.space (x.page * 0x10000) with | some g => decide (1 ≤ g.pcode) | none => false)
    | none => false
  let es := (s.extentsOn n).filter fun e => (all || two e) && !s.flash.copies.contains (n, e)
  s.setFlash fun x => { x with copies := x.copies ++ es.map fun e => (n, e) }

/-- Does a move write its slot to a drive, or read it from there (R168, R170)? -/
def State.moveOn (s : State) (m : FMove) (n : Nat) : Bool :=
  let h := m.handle / 2 ^ 28 % 16
  let two := match s.rgn? m.region with | some g => decide (1 ≤ g.pcode) | none => false
  if m.demote then
    m.stage == 1 && (h == n || (two && duplex h == n)) &&
      !(match s.rgn? m.region with | some g => tst (s.pageRec g m.page) 41 | none => false)
  else m.stage == 0 && (h == n || (two && duplex h == n && !s.drvReads h))

/-- A drive fails (R169, R170): demotions that write to it are aborted, and duplexed slots are to get a new pair. -/
def State.failDrive (s : State) (n cause cls : Nat) : State :=
  let hit := s.flash.moves.filter fun m => m.demote && s.moveOn m n
  let s := ((s.wr (F.nvpDrvState n) 5).wr (F.nvpDrvCause n) cause).raise (blkNvp n) cls none
  let s := each hit (fun m s => s.demotionAbort m) s
  s.copyQueue n false

/-- A command of a drive is overdue: a read after 20 ms, a write after 200 ms (R169). -/
def State.driveTimeout (s : State) (n : Nat) : State :=
  let late := s.flash.moves.any fun m => s.moveOn m n && m.since + (if m.demote then 6250000 else 625000) ≤ s.beat
  if late && (s.drvReads n || s.drv n = 1) then s.failDrive n 2 6 else s

/-- Controller fatal status, or a critical warning (R169). -/
def State.driveFatal (s : State) (n : Nat) (warning : Bool) : State :=
  if s.drvReads n || s.drv n = 1 then s.failDrive n (if warning then 4 else 3) 6 else s

/-- Link down at a root port (R169); a retired drive leaves. -/
def State.driveLinkDown (s : State) (n : Nat) : State :=
  if s.drvReads n || s.drv n = 1 then s.failDrive n 5 5
  else if s.drv n = 4 then s.wr (F.nvpDrvState n) 0 else s

/-- A write of DRV after its fields are judged: RETIRE starts R171; slot power off leaves no link. -/
def hookDrv (n : Nat) (retire off : Bool) : Hook := fun _ s =>
  let s := if !retire && s.on (F.nvpDrvRetire n) && s.drv n = 2 then
      let s := (s.wr (F.nvpDrvState n) 3).copyQueue n true
      each (s.extentsOn n) (fun e s => s.moveExtent n e) s
    else s
  let s := if !off && s.on (F.nvpDrvSlotOff n) then (s.wr (F.nvpDrvState n) 0).wr (F.nvpDrvCause n) 0 else s
  (s, 0)

/-- Every slot is off a RETIRING drive: it is flushed, notified of the shutdown, and RETIRED (R171). -/
def State.driveRetired (s : State) (n : Nat) : State :=
  let s := if s.drv n = 3 then each (s.extentsOn n) (fun e s => s.moveExtent n e) s else s
  if s.drv n ≠ 3 || !(s.extentsOn n).isEmpty || s.flash.moves.any fun m => s.moveOn m n then s
  else
    let s := ((s.tel (blkNvp n) 1 0 1).wr (F.nvpDrvState n) 4).wr (F.nvpDrvCause n) 6
    s.setFlash fun x => { x with used := x.used.filter (fun u => u.1 ≠ n), copies := x.copies.filter (fun c => c.1 ≠ n),
                                 shut := x.shut ++ [n] }

/-- An inbound request of a drive: served where it addresses the port's queues or bounce buffer (`own`), else answered with
Unsupported Request and counted (R166). -/
def State.inbound (s : State) (n : Nat) (own : Bool) : State :=
  let s := s.setFlash fun x => { x with inbound := x.inbound ++ [(n, own)] }
  if own then s else s.setFlash fun x => { x with refused := SMap.set 0 x.refused n (SMap.get 0 x.refused n + 1) }

/-- A write of FREE_PUSH: the frame joins the list of its zone. -/
def hookFreePush (d : Nat) : Hook := fun v s =>
  let f := bits v 31 0
  if s.dramTop < f * 0x10000 + 0x10000 || s.inSram f then (s, fRange)
  else ((s.freePut d f).retryFills, 0)

/-- A write of PERC[d].CTL: PAUSED follows PAUSE. -/
def hookPercCtl (d : Nat) : Hook := fun _ s => (s.percSync d, 0)

/-- FILL_REQUEST of a fault record (R157). -/
def execFillRequest (home : Fin 64) (index : BitVec 8) (s : State) : Host.Outcome State Fault Refusal :=
  live s fun s => s.fillRequest home.val index.toNat

/-- PROMOTE_READ_DONE (R157, R167). -/
def execPromoteReadDone (space : BitVec 10) (page : BitVec 32) (bad : Bool) (s : State) : Host.Outcome State Fault Refusal :=
  live s fun s => s.promoteRead space.toNat page.toNat bad

/-- PROMOTION_END (R157). -/
def execPromotionEnd (space : BitVec 10) (page : BitVec 32) (s : State) : Host.Outcome State Fault Refusal :=
  live s fun s => (s.promotionEnd space.toNat page.toNat).resumeInvokes

/-- DEMOTION_START for a zone of a percolator (R161). -/
def execDemotionStart (d : Fin 2) (zone : Fin 4) (s : State) : Host.Outcome State Fault Refusal :=
  live s fun s => s.demotionStart d.val zone.val

/-- DEMOTE_READ_DONE (R156). -/
def execDemoteReadDone (space : BitVec 10) (page : BitVec 32) (s : State) : Host.Outcome State Fault Refusal :=
  live s fun s => (s.demoteRead space.toNat page.toNat).resumeInvokes

/-- DEMOTION_END (R156). -/
def execDemotionEnd (space : BitVec 10) (page : BitVec 32) (s : State) : Host.Outcome State Fault Refusal :=
  live s fun s => (s.demotionEnd space.toNat page.toNat).resumeInvokes

/-- TOUCH (R160). -/
def execTouch (home : Fin 64) (space : BitVec 10) (page : BitVec 32) (s : State) : Host.Outcome State Fault Refusal :=
  live s fun s => s.touch home.val space.toNat page.toNat

/-- HEAT_EPOCH (R160). -/
def execHeatEpoch (d : Fin 2) (s : State) : Host.Outcome State Fault Refusal := live s fun s => s.heatEpoch d.val

/-- FREE_PUSH (R157). -/
def execFreePush (d : Fin 2) (frame : BitVec 32) (c : Cmd) (s : State) : Host.Outcome State Fault Refusal :=
  live s fun s =>
    let a := (F.percFreePushFrame d.val).csa
    s.ctlWrite a (s.compose a [(F.percFreePushFrame d.val, frame.toNat)]) c (hookFreePush d.val)

/-- DRIVE_LINK_UP with what the link and the identification show (R165). -/
def execDriveLinkUp (n : Fin 16) (link : DriveLink) (drive : DriveInfo) (s : State) : Host.Outcome State Fault Refusal :=
  live s fun s => s.linkUp n.val link drive

/-- DRIVE_COMMAND_TIMEOUT (R169). -/
def execDriveCommandTimeout (n : Fin 16) (s : State) : Host.Outcome State Fault Refusal := live s fun s => (s.driveTimeout n.val).resumeInvokes

/-- DRIVE_FATAL (R169). -/
def execDriveFatal (n : Fin 16) (warning : Bool) (s : State) : Host.Outcome State Fault Refusal :=
  live s fun s => (s.driveFatal n.val warning).resumeInvokes

/-- ROOT_PORT_LINK_DOWN (R169). -/
def execRootPortLinkDown (n : Fin 16) (s : State) : Host.Outcome State Fault Refusal := live s fun s => (s.driveLinkDown n.val).resumeInvokes

/-- DRIVE_RETIRE (R171). -/
def execDriveRetire (n : Fin 16) (c : Cmd) (s : State) : Host.Outcome State Fault Refusal :=
  live s fun s =>
    let a := (F.nvpDrvRetire n.val).csa
    s.ctlWrite a (s.compose a [(F.nvpDrvRetire n.val, 1)]) c
      (hookDrv n.val (s.on (F.nvpDrvRetire n.val)) (s.on (F.nvpDrvSlotOff n.val)))

/-- DRIVE_RETIRED (R171). -/
def execDriveRetired (n : Fin 16) (s : State) : Host.Outcome State Fault Refusal := live s fun s => (s.driveRetired n.val).resumeInvokes

/-- DRIVE_INBOUND_REQUEST (R166). -/
def execDriveInboundRequest (n : Fin 16) (own : Bool) (s : State) : Host.Outcome State Fault Refusal :=
  live s fun s => s.inbound n.val own

end Sys2Proof.Machine
end

