-- ==== Sys2Proof/Machine/Fec.lean ====
section
/-! DEFINITION. The FEC of a lane: RS(544,514) codewords over 10-bit symbols, which correct up to 15 symbol errors, and the
places of flits and lane markers among them (R315, R316).  The field polynomial x^10 + x^3 + 1 and the generator with roots
α^0 to α^29 are those of the KP4 code (PRESUMED, log entry 62). -/

namespace Sys2Proof.Machine

/-! ## GF(2^10), on one symbol or on `n` symbols packed side by side -/

/-- Bit 0 of each of `n` symbols. -/
def symOnes (n : Nat) : Nat := (2 ^ (10 * n) - 1) / 1023

/-- Each of `n` symbols times α. -/
def symTwice (n v : Nat) : Nat :=
  let t := v &&& (symOnes n * 512)
  ((v ^^^ t) <<< 1) ^^^ ((t >>> 9) * 9)

/-- Each of `n` symbols times `c`. -/
def symScale (n c v : Nat) : Nat :=
  ((List.range 10).foldl (fun (a : Nat × Nat) b => (if tst c b then a.1 ^^^ a.2 else a.1, symTwice n a.2)) (0, v)).1

/-- The product of two symbols. -/
def symMul (a b : Nat) : Nat := symScale 1 a b

/-- A power of a symbol, with an exponent below 1,024. -/
def symPow (a n : Nat) : Nat :=
  (List.range 10).foldl (fun r i => let q := symMul r r; if tst n (9 - i) then symMul q a else q) 1

/-- The inverse of a symbol that is not zero. -/
def symInv (a : Nat) : Nat := symPow a 1022

/-- α^i. -/
def symAlpha (i : Nat) : Nat := symPow 2 (i % 1023)

/-- Value of a polynomial, given from its constant term up, at a symbol. -/
def symEval (p : List Nat) (x : Nat) : Nat := p.foldr (fun c a => symMul a x ^^^ c) 0

/-! ## The code -/

/-- The generator without its leading coefficient: symbol `j` is the coefficient of x^j, `j` from 0 to 29. -/
def rsGen : Nat :=
  ((List.range 30).foldl (fun (g : Nat × Nat) _ => ((g.1 <<< 10) ^^^ symScale 31 g.2 g.1, symMul 2 g.2)) (1, 1)).1 % 2 ^ 300

/-- One message symbol enters the division by the generator. -/
def rsFeed (g r m : Nat) : Nat := ((r <<< 10) % 2 ^ 300) ^^^ symScale 30 ((r >>> 290) ^^^ m) g

/-- The remainder of `n` message symbols, the first in the lowest bits. -/
def rsRest (g : Nat) : Nat → Nat → Nat → Nat
  | 0, _, r => r
  | n + 1, m, r => rsRest g n (m >>> 10) (rsFeed g r (m % 1024))

/-- Symbols in the opposite order. -/
def symFlip (n v : Nat) : Nat := (List.range n).foldl (fun a i => a * 1024 + bits v (10 * i + 9) (10 * i)) 0

/-- The 30 parity symbols of a message of 5,140 bits, the first sent in the lowest bits. -/
def rsParity (m : Nat) : Nat := symFlip 30 (rsRest rsGen 514 m 0)

/-- The codeword of a message: its bits in rising order, then the parity symbols (R315). -/
def rsEncode (m : Nat) : BitVec 5440 := BitVec.ofNat 5440 (m % 2 ^ 5140 + rsParity m * 2 ^ 5140)

/-- State of the Berlekamp–Massey search: the locator and its predecessor, the number of errors, the gap, the last discrepancy. -/
structure RsSearch where
  c : List Nat
  b : List Nat
  l : Nat
  m : Nat
  d : Nat

/-- One step of the search, at syndrome `n`. -/
def RsSearch.next (syn : List Nat) (x : RsSearch) (n : Nat) : RsSearch :=
  let d := (List.range (x.l + 1)).foldl (fun a i => a ^^^ symMul (x.c.getD i 0) (if i ≤ n then syn.getD (n - i) 0 else 0)) 0
  if d = 0 then { x with m := x.m + 1 }
  else
    let k := symMul d (symInv x.d)
    let c := (List.range 31).map fun i => x.c.getD i 0 ^^^ (if x.m ≤ i then symMul k (x.b.getD (i - x.m) 0) else 0)
    if 2 * x.l ≤ n then ⟨c, x.c, n + 1 - x.l, 1, d⟩ else { x with c := c, m := x.m + 1 }

/-- The message of a received codeword and the number of symbols corrected, or `none` when it cannot be corrected (R315). -/
def rsDecode (w : BitVec 5440) : Option (Nat × Nat) :=
  let m := w.toNat % 2 ^ 5140
  let e := symFlip 30 (rsParity m ^^^ w.toNat / 2 ^ 5140)
  if e = 0 then some (m, 0)
  else
    let es := (List.range 30).map fun i => bits e (10 * i + 9) (10 * i)
    let syn := (List.range 30).map fun i => symEval es (symAlpha i)
    let x := (List.range 30).foldl (RsSearch.next syn) ⟨[1], [1], 0, 1, 1⟩
    let hits := (List.range 544).filter fun k => symEval x.c (symAlpha (1023 - k)) = 0
    if 15 < x.l || hits.length ≠ x.l then none
    else
      let om := (List.range 30).map fun n =>
        (List.range (n + 1)).foldl (fun a i => a ^^^ symMul (x.c.getD i 0) (syn.getD (n - i) 0)) 0
      let dv := (List.range 30).map fun i => if i % 2 = 0 then x.c.getD (i + 1) 0 else 0
      let fix (v k : Nat) : Nat :=
        let y := symAlpha (1023 - k)
        let mag := symMul (symMul (symAlpha k) (symEval om y)) (symInv (symEval dv y))
        if 30 ≤ k then v ^^^ (mag <<< (10 * (543 - k))) else v
      some (hits.foldl fix m, x.l)

/-! ## Flits among the codewords -/

/-- Message bits of a codeword, and flits between two markers. -/
def wordBits : Nat := 5140
def periodFlits : Nat := 10280

/-- What a lane delivers in a flit slot: the flit, whether a codeword under it was uncorrectable, and, of the codeword that ends
in it, whether it was corrected or uncorrectable. -/
structure FlitIn where
  lane : Nat
  data : BitVec 2048
  bad : Bool
  corrected : Bool
  lost : Bool
  deriving DecidableEq, Repr

/-- The flit of slot `k` of a marker period out of the codewords its bits lie in.  One that did not come counts as
uncorrectable. -/
def fecFlit (lane k : Nat) (ws : List (BitVec 5440)) : FlitIn :=
  let o := 2048 * k % wordBits
  let n := if wordBits < o + 2048 then 2 else 1
  let ds := (List.range n).map fun i => (ws[i]?).bind rsDecode
  let v := ds.foldr (fun d a => (d.getD (0, 0)).1 + a * 2 ^ wordBits) 0
  let last := if wordBits ≤ o + 2048 then some ((ds.headD none)) else none
  { lane := lane, data := BitVec.ofNat 2048 (v / 2 ^ o), bad := ds.any (·.isNone),
    corrected := match last with | some (some d) => decide (d.2 ≠ 0) | _ => false,
    lost := match last with | some none => true | _ => false }

end Sys2Proof.Machine
end

