-- ==== Sys2Proof/Machine/Strict.lean ====
section
/-! DEFINITION. The conditions of strict partition, and the writes that would break one of them (R474, Table SEC-3). -/

namespace Sys2Proof.Machine

/-- The strict partition that a tenant would belong to. -/
def State.strictIn (s : State) (t : Nat) : Option Nat := if s.on (F.secPartEn (s.gateOf t)) then some (s.gateOf t) else none

/-- Do two masks of `n` bits share a bit? -/
def maskMeet (n a b : Nat) : Bool := (List.range n).any fun i => tst a i && tst b i

/-- Ports through which a valid admission entry's hosts are reached. -/
def State.entryPorts (s : State) (w : Nat) : List Nat :=
  dedup ((s.hosts.lease.filter fun e => e.2.state ≠ 0 && bits w 12 1 ≤ e.1 && e.1 ≤ bits w 24 13).map fun e => s.rport e.1)

/-- OPEN entries of a channel's active plan on a subchannel for a bank set. -/
def State.openCount (s : State) (k sub g : Nat) : Nat :=
  ((List.range 64).filter fun p =>
    let e := s.planEntry k true (64 * sub + p)
    planKind e == 0 && planLock e && planSet e == g).length

/-- Does condition `c` of Table SEC-3 hold? -/
def State.partHolds (s : State) (c : Nat) : Bool :=
  let strict := (List.range 8).filter fun g => s.on (F.secPartEn g)
  let pairs := strict.flatMap fun g => (strict.filter (g < ·)).map fun h => (g, h)
  match c with
  | 1 => s.rd F.dchMapOrder == 1
  | 2 =>
    ((List.range 32).all fun k => (List.range 128).all fun i =>
      let e := s.planEntry k true i
      planKind e ≠ 0 || planLock e) &&
    strict.all fun g => (List.range 32).all fun k => (List.range 2).all fun sub => s.openCount k sub g == s.openCount 0 0 g
  | 3 => s.rgns.all fun r => (s.strictIn r.tenant).isNone || (r.mode ≠ 0 && r.tier == 1)
  | 4 =>
    (pairs.all fun p => !maskMeet 64 (s.rd (F.secPartPorts p.1)) (s.rd (F.secPartPorts p.2))) &&
    s.hosts.adm.all fun e =>
      let w := e.2.toNat
      !tst w 0 || (s.entryPorts w).all fun p => strict.all fun g =>
        !tst (s.rd (F.secPartPorts g)) p || s.strictIn (bits w 52 45) == some g
  | 5 =>
    (pairs.all fun p => !maskMeet 8 (s.rd (F.secPartStrips p.1)) (s.rd (F.secPartStrips p.2))) &&
    s.disp.places.all fun p => strict.all fun g =>
      let inside := (List.range p.height).filter fun k => tst (s.rd (F.secPartStrips g)) (p.strip + k)
      inside.isEmpty || inside.length == p.height
  | _ => (List.range 256).all fun t => (s.strictIn t).isNone || !s.lfPerm t

/-- The first condition of Table SEC-3 that fails. -/
def State.partFails (s : State) : Option Nat := [1, 2, 3, 4, 5, 6].find? fun c => !s.partHolds c

/-- A write of a register while strict partition is on: one that would break a condition of Table SEC-3 is discarded (R474).
`old` is the register before the write, and `look` shows the state that the write leads to. -/
def guarded (csa old : Nat) (look : State → State) (hook : Hook) : Hook := fun v s =>
  let (s', f) := hook v s
  let s0 := s.setReg csa old
  if s.on F.secPartCtlEn && s'.on F.secPartCtlEn && ([1, 2, 3, 4, 5, 6].any fun c => s0.partHolds c && !(look s').partHolds c)
  then (s0, fState)
  else (s', f)

end Sys2Proof.Machine
end

