-- ==== Sys2Proof/Machine/Traffic.lean ====
section
/-! DEFINITION. Ingress and traffic control: the check of arriving packets, freeze, lease, host selection, policing and
routing, policers, shapers and time gates, admission entries, leases as they open and renew, responses of peers
(R54 to R61, R346, R359 to R363, R370 to R390). -/

namespace Sys2Proof.Machine

/-! ## The arriving packet (R346, R347) -/

/-- LEN that Table TRN-2 gives a packet, as a range; `none` for an opcode the T7 does not accept from the fabric. -/
def lenRange (p : Pkt) : Option (Nat × Nat) :=
  match p.opc.toNat with
  | 0x01 => some (2, 2) | 0x02 => some (2, 2) | 0x03 => some (2, 2)
  | 0x04 => if p.vsel then some (3, 3) else some (2, 2)
  | 0x05 => some (11, 11) | 0x06 => some (3, 6) | 0x08 => some (10, 10) | 0x09 => some (2, 2) | 0x0A => some (2, 2)
  | 0x18 => some (2, 2) | 0x19 => some (10, 10) | 0x1A => some (2, 2) | 0x1B => some (10, 10) | 0x1C => some (2, 2)
  | 0x1D => some (2, 2) | 0x1E => some (10, 10)
  | 0x30 => some (3, 3) | 0x31 => some (3, 3) | 0x32 => some (3, 3) | 0x33 => some (3, 3) | 0x34 => some (3, 3)
  | 0x35 => some (3, 3) | 0x38 => some (4, 18) | 0x39 => some (3, 3)
  | 0x28 => some (3, 3) | 0x2A => some (2, 2) | 0x2C => some (2, 2) | 0x2D => some (3, 3)
  | 0x2E => some (3 + bits p.body.toNat 3 0, 3 + bits p.body.toNat 3 0)
  | 0x2F => some (3 + bits p.body.toNat 3 0, 3 + bits p.body.toNat 3 0)
  | 0x24 => some (10, 10) | 0x25 => some (3, 6) | 0x26 => some (2, 2) | 0x29 => some (3, 3) | 0x2B => some (3, 3)
  | 0x07 => some (2, 2)
  | _ => none

/-- Does the packet answer a request this T7 sent as a peer (R52, R346)? -/
def State.answersPeer (s : State) (p : Pkt) : Bool :=
  if p.opc = 0x29 || p.opc = 0x2B then s.hosts.peerLease.contains p.host.toNat
  else s.peers.any fun q => q.tag == p.tag.toNat && q.host == p.host.toNat

/-- Is a packet one that the T7 accepts (R346)? -/
def State.accepted (s : State) (p : Pkt) : Bool :=
  match lenRange p with
  | none => false
  | some (lo, hi) =>
    lo ≤ p.len.toNat && p.len.toNat ≤ hi &&
      (match p.opc.toNat with
       | 0x2E => s.partner p.port.val && 1 ≤ bits p.body.toNat 3 0 && bits p.body.toNat 3 0 ≤ 8
       | 0x2F => s.partner p.port.val && 1 ≤ bits p.body.toNat 3 0 && bits p.body.toNat 3 0 ≤ 8
       | 0x24 => s.answersPeer p | 0x25 => s.answersPeer p | 0x26 => s.answersPeer p | 0x29 => s.answersPeer p
       | 0x2B => s.answersPeer p | 0x07 => s.answersPeer p
       | _ => true)

/-! ## Policing (R371 to R378) -/

/-- A policer that is off. -/
def pol0 : Policer := ⟨false, 0, 1, 0, 0, 0, 0, 0, false, 0⟩

/-- Policer of a host. -/
def State.policer (s : State) (h : Nat) : Policer := SMap.get pol0 s.hosts.pol h

/-- Set a host's policer. -/
def State.setPol (s : State) (h : Nat) (p : Policer) : State :=
  { s with hosts := { s.hosts with pol := SMap.set pol0 s.hosts.pol h p } }

/-- Judge a charge (R373): 0 green, 1 yellow, 2 drop, with the policer after it. -/
def police (p : Policer) (c : Nat) : Nat × Policer :=
  if p.p < c then (2, p)
  else if c ≤ p.c then (0, { p with c := p.c - c, p := p.p - c })
  else (1, { p with p := p.p - c })

/-- LF[1:0] of a policer (R377, Table TRN-10). -/
def lfOf (p : Policer) : Nat :=
  if !p.en then 0 else if 304 ≤ p.c then 0 else if p.p < 304 then 3 else if p.pbs < 2 * p.p then 1 else 2

/-- Gain of a bucket at a tick under a slowdown step (R374). -/
def gain (rate slow : Nat) : Nat := rate * (8 - slow) / 8

/-- One refill of a policer, and its count of refill periods without a mark. -/
def refill (p : Policer) : Policer :=
  { p with
    c := min p.cbs (p.c + gain p.cir p.slow), p := min p.pbs (p.p + gain p.pir p.slow),
    quiet := if p.marked then 0 else p.quiet + 1, marked := false }

/-- Tokens of a port's shaper. -/
def State.tokens (s : State) (p : Nat) : Nat := SMap.get 0x10000 s.hosts.tokens p

/-- Set them. -/
def State.setTokens (s : State) (p n : Nat) : State :=
  { s with hosts := { s.hosts with tokens := SMap.set 0x10000 s.hosts.tokens p n } }

/-- REFILL_TICK (R374, R381): on a beat that is a multiple of 32, once. -/
def State.refillTick (s : State) : State :=
  if s.beat % 32 ≠ 0 || s.hosts.lastTick = s.beat + 1 then s
  else
    let s := each s.hosts.pol (fun e s => s.setPol e.1 (refill e.2)) s
    let s := each (List.range 64) (fun p s =>
      if s.on (F.fportShapeEn p) then
        s.setTokens p (min (s.rd (F.fportShapeBurst p)) (s.tokens p + s.rd (F.fportShapeRate p)))
      else s) s
    { s with hosts := { s.hosts with lastTick := s.beat + 1 } }

/-- SLOWDOWN_DECAY of a host (R389). -/
def State.slowDecay (s : State) (h : Nat) : State :=
  let p := s.policer h
  if 0 < p.slow && s.rd F.xbarCongDecay ≤ p.quiet then s.setPol h { p with slow := p.slow - 1, quiet := 0 } else s

/-- The policer entry that POL_DATA describes (Table TRF-2), and whether a bound clamped it. -/
def State.polEntry (s : State) (old : Policer) (fill : Bool) : Policer × Bool :=
  let w0 := s.rd (F.xbarPolDataWord 0)
  let w1 := s.rd (F.xbarPolDataWord 1)
  let cir := bits w0 27 8
  let pir := max (max (bits w0 47 28) 1) cir
  let cbs := max (bits w1 23 0) (max cir 543)
  let pbs := max (bits w1 47 24) (max pir cbs)
  ({ old with en := tst w0 0, cir := cir, pir := pir, cbs := cbs, pbs := pbs,
              c := if fill then cbs else min old.c cbs, p := if fill then pbs else min old.p pbs },
   pir ≠ bits w0 47 28 || cbs ≠ bits w1 23 0 || pbs ≠ bits w1 47 24)

/-- What POL_CMD.GO does (R378). -/
def hookPol : Hook := fun v s =>
  let w0 := s.rd (F.xbarPolDataWord 0)
  let w1 := s.rd (F.xbarPolDataWord 1)
  let res := if bits w0 7 1 + bits w0 63 48 + bits w1 63 48 = 0 then 0 else fReserved
  if !tst v 14 then (s, 0)
  else
    let h := bits v 11 0
    match bits v 13 12 with
    | 1 =>
      let (p, c) := s.polEntry (s.policer h) false
      (s.setPol h p, (if c then fRange else 0) ||| res)
    | 2 =>
      let p := s.policer h
      let s := s.wr (F.xbarPolDataWord 0) ((if p.en then 1 else 0) + p.cir * 2 ^ 8 + p.pir * 2 ^ 28)
      let s := s.wr (F.xbarPolDataWord 1) (p.cbs + p.pbs * 2 ^ 24)
      (s.wr (F.xbarPolDataWord 2) (p.c + p.p * 2 ^ 24 + p.slow * 2 ^ 48), 0)
    | 3 =>
      let (p, c) := s.polEntry (s.policer h) true
      (s.setPol h p, (if c then fRange else 0) ||| res)
    | _ => (s, 0)

/-! ## Ingress (R370) -/

/-- `sr_bits` of R258: the high half of a mixed 64-bit value. -/
def srBits (seed idx : Nat) : Nat :=
  let m (z : BitVec 64) (k : Nat) : BitVec 64 := z ^^^ (z >>> k)
  let z : BitVec 64 := BitVec.ofNat 64 seed ^^^ (BitVec.ofNat 64 idx * 0x9E3779B97F4A7C15#64)
  let z := m z 30 * 0xBF58476D1CE4E5B9#64
  let z := m z 27 * 0x94D049BB133111EB#64
  (m z 31).toNat / 2 ^ 32

/-- A packet as it is followed once tagged (R494, Table TEL-3), judged in the beat of its arrival. -/
def trackOf (p : Pkt) (tenant : Option Nat) (beat : Nat) : Track where
  die := p.port.val / 32
  beat0 := beat
  host := p.host.toNat
  tag := p.tag.toNat
  opc := p.opc.toNat
  port := p.port.val
  unit := if p.opc = 0x38 then 0x40 else homeOfPtr p.addr.toNat
  tenant := tenant.getD 0xFF
  status := 0xFF
  flags := if p.opc = 0x38 then 32 else 0
  stamps := [(2, beat)]

/-- Judge a packet for tagging (R494): the i-th judged packet of a port, i from 1. -/
def State.tagJudge (s : State) (p : Pkt) (tenant : Option Nat) : State :=
  let n := s.rd F.beatTelCtlTagn
  if n = 0 then s
  else
    let k := p.port.val
    let i := SMap.get 0 s.hosts.judged k + 1
    let s := { s with hosts := { s.hosts with judged := SMap.set 0 s.hosts.judged k i } }
    if srBits (s.rd F.beatTagSeedSeed ^^^ k) i % 2 ^ n ≠ 0 then s
    else if 256 ≤ (s.hosts.tagged.filter fun e => e.die == k / 32).length then s.tel (blkXbar (k / 32)) 0x0A 0 1
    else { s with hosts := { s.hosts with tagged := s.hosts.tagged ++ [trackOf p tenant s.beat] } }

/-- Answer a host's request with Cmp before it has reached a unit. -/
def State.ingressCmp (s : State) (p : Pkt) (st : Nat) : State :=
  s.sendHost p.host.toNat { pkt0 with
    opc := 0x26, len := 2, tag := p.tag, seq := p.seq, ccx := p.ccx, addr := p.addr, status := BitVec.ofNat 8 st,
    lf := BitVec.ofNat 4 (lfOf (s.policer p.host.toNat)) }

/-- Send again the snoops to a host that a flush lost (R358). -/
def State.resendSnoops (s : State) (h : Nat) : State :=
  let ls := s.hosts.lostSnoops.filter fun e => e.1 == h
  let s := { s with hosts := { s.hosts with lostSnoops := s.hosts.lostSnoops.filter fun e => e.1 ≠ h } }
  each ls (fun (e : Nat × Nat × Nat) (s : State) =>
    match s.homes.txns.find? fun t => t.home == e.2.1 && t.idx == e.2.2 with
    | none => s
    | some t =>
      each (t.snoops.filter fun n => n.host == h) (fun n s =>
        (s.sendSnoop { t with snoops := [] } n.slot n.opc (0x200 ≤ t.req.op)).2) s) s

/-- Stage 5: the packet waits for its unit with what ingress attached (R359). -/
def State.route (s : State) (p : Pkt) (atts : List Attach) (lf : Nat) : State :=
  s.voqEnter ⟨p, atts, lf, s.beat, false⟩

/-- Stages 4 and 5 for a request with its attachments: charge or drop, tag, route (R373, R376, R494). -/
def State.chargeRoute (s : State) (p : Pkt) (atts : List Attach) : State :=
  let h := p.host.toNat
  if !charged p.opc.toNat then s.route p atts 0
  else
    let t := (atts.head?).map (·.tenant)
    let s := s.tagJudge p t
    let pol := s.policer h
    let tc (s : State) (i n : Nat) : State := match t with
      | some t => s.ten t i n
      | none => s
    let c := p.len.toNat * 16 + s.rd (F.fportIngOvh p.port.val)
    let s := tc s 5 c
    if !pol.en then s.route p atts 0
    else
      let (r, pol) := police pol c
      let s := ((s.setPol h pol).tel (blkXbar (h % 2)) 0x05 (h + r * 2 ^ 12) 1)
      let s := tc s (6 + r) 1
      if r = 2 then
        ((s.track h p.tag.toNat fun x => { x with status := 0xFE }).tel (blkXbar (h % 2)) 0x09 0 1).sendHost h { pkt0 with
          opc := 0x07, len := 2, tag := p.tag, seq := p.seq, ccx := p.ccx, lf := 3 }
      else s.route p atts (lfOf pol)

/-- Ingress from the lease check on (R370 stages 2 to 5). -/
def State.ingressFrom2 (s : State) (p : Pkt) : State :=
  let h := p.host.toNat
  let o := p.opc.toNat
  if !s.leased h then s.ingressCmp p stNoLease
  else
    let named := isPublishOp o || o = 0x38 || o = 0x39
    let atts := s.attach h (if named then none else some (ptrSpace p.addr.toNat))
    let t := ((atts.head?).map (·.tenant)).getD 0
    let out := match s.strictOf t with
      | some g => if !atts.isEmpty && !tst (s.rd (F.secPartPorts g)) p.port.val then some g else none
      | none => none
    match out with
    | some g => s.add (F.secPartDrops g) 1
    | none =>
      if !named && !ptrOk p.addr.toNat then (s.violate (blkPort p.port.val) h p.port.val t 5).ingressCmp p stAdmission
      else if !named && atts.isEmpty then (s.violate (blkPort p.port.val) h p.port.val 0 1).ingressCmp p stAdmission
      else s.chargeRoute p atts

/-- INGRESS of a packet at its port (R370). A FwdData is not a packet of the host it names: HOST is there the host the data
are for (Table TRN-1, TRN-8), so it moves no response port. -/
def State.ingress (s : State) (p : Pkt) : State :=
  let h := p.host.toNat
  let o := p.opc.toNat
  let k := p.port.val
  if !s.accepted p then
    ({ s with hosts := { s.hosts with malformed := SMap.set 0 s.hosts.malformed k (SMap.get 0 s.hosts.malformed k + 1) } }).raise
      (blkPort k) 9 none
  else if h = 0xFFF then (if s.partner k then s.route p [] 0 else s)
  else
    let s := if o = 0x1E then s
      else (if s.rd (F.fportLstatState (s.rport h)) ≠ 3 then s.moveRport h k else s).resendSnoops h
    if !(charged o || o = 0x39) then
      if o = 8 || o = 9 then s.route p (s.attach h (some (ptrSpace p.addr.toNat))) 0 else s
    else if (s.frz h).state ≠ 0 then
      if 256 ≤ (s.hosts.frzq.filter fun q => q.port == p.port).length then
        s.setFrz h { s.frz h with dropped := satInc (s.frz h).dropped 16 }
      else { s with hosts := { s.hosts with frzq := s.hosts.frzq ++ [p] } }
    else s.ingressFrom2 p

/-- Release a frozen host (R61): its queued requests pass ingress in arrival order from the lease check on. -/
def State.frzRelease (s : State) (h : Nat) : State :=
  let s := s.setFrz h { s.frz h with state := 0, cause := 0 }
  let mine := s.hosts.frzq.filter fun q => q.host.toNat == h
  let s := { s with hosts := { s.hosts with frzq := s.hosts.frzq.filter fun q => q.host.toNat ≠ h } }
  each mine (fun q s => s.ingressFrom2 q) s

/-- Answer a frozen host's queued requests with EVICTED (R61). -/
def State.frzFlush (s : State) (h : Nat) : State :=
  let mine := s.hosts.frzq.filter fun q => q.host.toNat == h
  let s := { s with hosts := { s.hosts with frzq := s.hosts.frzq.filter fun q => q.host.toNat ≠ h } }
  let t := (((s.attach h none).head?).map (·.tenant))
  let s := each mine (fun q s => s.ingressCmp q stEvicted) s
  let s := match t with
    | some t => s.ten t 15 1
    | none => s
  s.setFrz h { s.frz h with state := 2 }

/-! ## Admission entries (R54, R56) -/

/-- Do two ranges meet? -/
def meet (a b c d : Nat) : Bool := a ≤ d && c ≤ b

/-- Would the entry be the fifth valid one over some (host, space) pair (R56)? -/
def State.fifthEntry (s : State) (idx w : Nat) : Bool :=
  let hl := bits w 12 1; let hh := bits w 24 13; let sl := bits w 34 25; let sh := bits w 44 35
  let os := (s.hosts.adm.filter fun e => e.1 ≠ idx && tst e.2.toNat 0).map fun e => e.2.toNat
  let os := os.filter fun x => meet hl hh (bits x 12 1) (bits x 24 13) && meet sl sh (bits x 34 25) (bits x 44 35)
  let ps := hl :: (os.map fun x => max hl (bits x 12 1))
  let qs := sl :: (os.map fun x => max sl (bits x 34 25))
  tst w 0 && hl ≤ hh && sl ≤ sh && ps.any fun h => qs.any fun q =>
    4 ≤ (os.filter fun x => bits x 12 1 ≤ h && h ≤ bits x 24 13 && bits x 34 25 ≤ q && q ≤ bits x 44 35).length

/-- Reserved bits of an admission entry (Table ADR-9): word 0 [63:60], word 1 [63:32], words 2 and 3. -/
def admReserved (w : Nat) : Nat := bits w 63 60 + bits w 255 96

/-- What ADM_CMD.GO does (R54, R56); reserved bits of an entry are forced to zero (R7). -/
def hookAdm : Hook := fun v s =>
  if !tst v 15 then (s, 0)
  else
    let i := bits v 12 0
    match bits v 14 13 with
    | 1 =>
      let w := s.rd (F.xbarAdmDataWord 0) + s.rd (F.xbarAdmDataWord 1) * 2 ^ 64 + s.rd (F.xbarAdmDataWord 2) * 2 ^ 128 +
        s.rd (F.xbarAdmDataWord 3) * 2 ^ 192
      let fl := if admReserved w = 0 then 0 else fReserved
      let w := setBits (w % 2 ^ 96) 63 60 0
      if s.fifthEntry i w then (s, fl ||| fDouble)
      else ({ s with hosts := { s.hosts with adm := SMap.set 0#256 s.hosts.adm i (BitVec.ofNat 256 w) } }, fl)
    | 2 =>
      let w := (SMap.get 0#256 s.hosts.adm i).toNat
      (each (List.range 4) (fun n s => s.wr (F.xbarAdmDataWord n) (bits w (64 * n + 63) (64 * n))) s, 0)
    | _ => (s, 0)

/-! ## Response ports, leases that open and renew (R360, R362, R363) -/

/-- What HOST_CTL.GO does (R360). -/
def hookHostCtl : Hook := fun v s =>
  if !tst v 20 then (s, 0)
  else
    let h := bits v 11 0
    match bits v 13 12 with
    | 1 => ({ s with hosts := { s.hosts with rport := SMap.set 0 s.hosts.rport h (64 + bits v 19 14) } }, 0)
    | 2 => ({ s with hosts := { s.hosts with rport := SMap.set 0 s.hosts.rport h (s.rport h) } }, 0)
    | _ => (s, 0)

/-- Beats a lease lasts. -/
def leaseBeats : Nat := 62500

/-- LEASE_OPEN (R68, R362). -/
def State.leaseOpen (s : State) (p : Pkt) : State :=
  let h := p.host.toNat
  let s := s.moveRport h p.port.val
  let ans (s : State) (st : Nat) : State := s.leaseRsp h p.tag.toNat p.seq.toNat p.ccx.toNat st
  if (s.attach h none).isEmpty then
    s.sendHost h { pkt0 with
      opc := 0x29, len := 3, tag := p.tag, seq := p.seq, ccx := p.ccx, status := BitVec.ofNat 8 stAdmission }
  else if s.leased h then ans s 0
  else
    let slot := if tst p.body.toNat 0 then findLow 256 fun i => !(s.hosts.slots.any fun e => e.1 == i) else none
    let s := s.setLease h ⟨1, ((s.leaseOf h).epoch + 1) % 256, s.beat, slot⟩
    let s := match slot with
      | some i => { s with hosts := { s.hosts with slots := SMap.insert (SMap.erase s.hosts.slots i) i h } }
      | none => s
    ans s 0

/-- HEARTBEAT (R360, R363). -/
def State.heartbeat (s : State) (p : Pkt) : State :=
  let h := p.host.toNat
  let s := s.moveRport h p.port.val
  let l := s.leaseOf h
  let ok := l.state = 1 && s.beat < l.renew + leaseBeats
  let s := if ok then s.setLease h { l with renew := s.beat } else s
  let st := if ok then 0 else if l.state = 0 then 2 else 1
  let rn := if st = 2 then 0 else (s.leaseOf h).renew
  s.sendHost h { pkt0 with
    opc := 0x2B, len := 3, tag := p.tag, seq := p.seq, ccx := p.ccx, body := BitVec.ofNat 2048 (st + rn * 2 ^ 64) }

/-! ## Peers (R52, R308) -/

/-- PEER_RESPONSE (R52): the response completes the request at its issuing unit; a DropNotice sends it again. -/
def State.peerResponse (s : State) (p : Pkt) : State :=
  if p.opc = 0x29 || p.opc = 0x2B then
    if p.status ≠ 0 || (p.opc = 0x2B && bits p.body.toNat 1 0 ≠ 0) then
      { s with hosts := { s.hosts with peerLease := s.hosts.peerLease.filter fun h => h ≠ p.host.toNat } }
    else s
  else
    match s.peers.find? fun q => q.tag == p.tag.toNat && q.host == p.host.toNat with
    | none => s
    | some q =>
      let r := q.req
      let hm := homeOfPtr r.addr
      if p.opc = 7 then
        match s.rgnAt (ptrSpace r.addr) (ptrOff r.addr) with
        | none => ({ s with peers := s.peers.erase q }).failReq hm r stGone
        | some _ =>
          match (s.walk hm (ptrSpace r.addr) (ptrOff r.addr) false false hm).1 with
          | .peer w _ _ => ({ s with peers := s.peers.erase q }).sendPeer w r
          | _ => ({ s with peers := s.peers.erase q }).failReq hm r stXlate
      else
        let s := { s with peers := s.peers.erase q }
        if p.opc = 0x26 && p.status ≠ 0 then s.failReq hm r p.status.toNat
        else if p.opc = 0x24 then s.replyData hm r (p.body.extractLsb' 0 1024) p.poison
        else if p.opc = 0x25 then
          match r.tile with
          | some m => s.sendMesh (meshReply m 0 0 false [(p.body.extractLsb' 0 512, if p.poison then 3#2 else 0#2)])
          | none =>
            (s.recDone r (if 4 < r.size then 3 else 2) 0 p.body.toNat).reply r
              (s.atomReply hm r p.body.toNat p.poison)
        else s.failReq hm r stOk

/-! ## Shapers and time gates (R382 to R385) -/

/-- What a write of SHAPE does, from EN before the write (R382). -/
def hookShape (p : Nat) (wasOn : Bool) : Hook := fun _ s =>
  let b := s.rd (F.fportShapeBurst p)
  (s.setTokens p (if s.on (F.fportShapeEn p) && !wasOn then b else min (s.tokens p) b), 0)

/-- What GATE_CTL.ARM does (R384, R385). -/
def hookGate (p : Nat) : Hook := fun v s =>
  if !tst v 0 then (s, 0)
  else
    let t := max (s.rd (F.fportGateAtBeat p)) (s.eff + 16)
    let others := dedup ((s.hosts.gates.filter fun e => e.1 / 32 == p / 32).map (·.2))
    if s.on (F.fportGateCtlArmed p) || (14 ≤ others.length && !others.contains t) then
      (s.wr (F.fportGateCtlRefused p) 1, if s.on (F.fportGateCtlArmed p) then fBusy else fState)
    else
      let clamped := s.rd (F.fportGateAtBeat p) < t
      let s := ((s.wr (F.fportGateAtBeat p) t).wr (F.fportGateCtlArmed p) 1).wr (F.fportGateCtlRefused p) 0
      ({ s with hosts := { s.hosts with gates := s.hosts.gates ++ [(p, t)] } }, if clamped then fRange else 0)

/-- GATE_TAKEOVER of a port (R384): at the first crossbar-bar boundary (every 12.8 beats) at or after the armed beat. -/
def State.gateTakeover (s : State) (p : Nat) : State :=
  match s.hosts.gates.find? fun e => e.1 == p with
  | none => s
  | some (_, t) =>
    if 5 * (s.beat + 1) ≤ 64 * ceilDiv (5 * t) 64 then s
    else
      let b := blkPort p * 0x100000
      let s := each (List.range 128) (fun i s => s.setReg (b + 0x1400 + 8 * i) (s.reg (b + 0x1000 + 8 * i))) s
      let s := s.wr (F.fportGateCtlArmed p) 0
      { s with hosts := { s.hosts with gates := s.hosts.gates.filter fun e => e.1 ≠ p } }

/-! ## Commands -/

/-- ADM_WRITE (R54, R56). -/
def execAdmWrite (index : BitVec 13) (c : Cmd) (s : State) : Host.Outcome State Fault Refusal :=
  live s fun s => s.ctlWrite F.xbarAdmCmdGo.csa
    (s.compose F.xbarAdmCmdGo.csa [(F.xbarAdmCmdIndex, index.toNat), (F.xbarAdmCmdOp, 1), (F.xbarAdmCmdGo, 1)]) c
    (guarded F.xbarAdmCmdGo.csa (s.reg F.xbarAdmCmdGo.csa) id hookAdm)

/-- ADM_READ (R54). -/
def execAdmRead (index : BitVec 13) (c : Cmd) (s : State) : Host.Outcome State Fault Refusal :=
  live s fun s => s.ctlWrite F.xbarAdmCmdGo.csa
    (s.compose F.xbarAdmCmdGo.csa [(F.xbarAdmCmdIndex, index.toNat), (F.xbarAdmCmdOp, 2), (F.xbarAdmCmdGo, 1)]) c hookAdm

/-- LEASE_OPEN (R362). -/
def execLeaseOpen (p : Pkt) (s : State) : Host.Outcome State Fault Refusal := live s fun s => s.leaseOpen p

/-- HEARTBEAT (R363). -/
def execHeartbeat (p : Pkt) (s : State) : Host.Outcome State Fault Refusal := live s fun s => s.heartbeat p

/-- PEER_RESPONSE (R52). -/
def execPeerResponse (p : Pkt) (s : State) : Host.Outcome State Fault Refusal := live s fun s => (s.peerResponse p).resumeInvokes

/-- HOST_PIN (R360). -/
def execHostPin (host : BitVec 12) (port : Fin 64) (c : Cmd) (s : State) : Host.Outcome State Fault Refusal :=
  live s fun s => s.ctlWrite F.xbarHostCtlGo.csa
    (s.compose F.xbarHostCtlGo.csa [(F.xbarHostCtlHost, host.toNat), (F.xbarHostCtlAction, 1),
      (F.xbarHostCtlPort, port.val), (F.xbarHostCtlGo, 1)]) c hookHostCtl

/-- HOST_UNPIN (R360). -/
def execHostUnpin (host : BitVec 12) (c : Cmd) (s : State) : Host.Outcome State Fault Refusal :=
  live s fun s => s.ctlWrite F.xbarHostCtlGo.csa
    (s.compose F.xbarHostCtlGo.csa [(F.xbarHostCtlHost, host.toNat), (F.xbarHostCtlAction, 2),
      (F.xbarHostCtlGo, 1)]) c hookHostCtl

/-- REFILL_TICK (R374). -/
def execRefillTick (s : State) : Host.Outcome State Fault Refusal := live s fun s => s.refillTick

/-- CONGESTION_MARK for a host (R389). -/
def execCongestionMark (host : BitVec 12) (s : State) : Host.Outcome State Fault Refusal :=
  live s fun s => s.congMark host.toNat

/-- SLOWDOWN_DECAY of a host (R389). -/
def execSlowdownDecay (host : BitVec 12) (s : State) : Host.Outcome State Fault Refusal :=
  live s fun s => s.slowDecay host.toNat

/-- A policer command (R378). -/
def State.polCmd (s : State) (h op : Nat) (c : Cmd) : State :=
  s.ctlWrite F.xbarPolCmdGo.csa
    (s.compose F.xbarPolCmdGo.csa [(F.xbarPolCmdHost, h), (F.xbarPolCmdOp, op), (F.xbarPolCmdGo, 1)]) c hookPol

/-- POL_WRITE (R378). -/
def execPolWrite (host : BitVec 12) (c : Cmd) (s : State) : Host.Outcome State Fault Refusal :=
  live s fun s => s.polCmd host.toNat 1 c

/-- POL_READ (R378). -/
def execPolRead (host : BitVec 12) (c : Cmd) (s : State) : Host.Outcome State Fault Refusal :=
  live s fun s => s.polCmd host.toNat 2 c

/-- POL_WRITE_FILL (R378). -/
def execPolWriteFill (host : BitVec 12) (c : Cmd) (s : State) : Host.Outcome State Fault Refusal :=
  live s fun s => s.polCmd host.toNat 3 c

/-- SHAPE_WRITE (R382). -/
def execShapeWrite (port : Fin 64) (en : Bool) (rate : BitVec 20) (burst : BitVec 24) (c : Cmd) (s : State) :
    Host.Outcome State Fault Refusal :=
  live s fun s =>
    let a := (F.fportShapeEn port.val).csa
    s.ctlWrite a (s.compose a [(F.fportShapeEn port.val, if en then 1 else 0), (F.fportShapeRate port.val, rate.toNat),
      (F.fportShapeBurst port.val, burst.toNat)]) c (hookShape port.val (s.on (F.fportShapeEn port.val)))

/-- GATE_ARM (R384). -/
def execGateArm (port : Fin 64) (c : Cmd) (s : State) : Host.Outcome State Fault Refusal :=
  live s fun s =>
    let a := (F.fportGateCtlArm port.val).csa
    s.ctlWrite a (s.compose a [(F.fportGateCtlArm port.val, 1)]) c (hookGate port.val)

/-- GATE_TAKEOVER (R384). -/
def execGateTakeover (port : Fin 64) (s : State) : Host.Outcome State Fault Refusal :=
  live s fun s => s.gateTakeover port.val

end Sys2Proof.Machine
end

