-- ==== Sys2Proof/Machine/Flits.lean ====
section
/-! DEFINITION. Flits of the Ilusia link: packets as bytes, headers and CRC, virtual channels, credits, the roll, and one
flit slot of a port in both directions (R315 to R331, R346, R347, R379 to R381, R386). -/

namespace Sys2Proof.Machine

/-- LSTAT.STATE of a port (Table LNK-6). -/
def State.lstate (s : State) (p : Nat) : Nat := s.rd (F.fportLstatState p)

/-! ## Packets as 16-byte units (R320, R346) -/

/-- The 32-byte header of Table TRN-1 as a number. -/
def packetHeader (p : Pkt) : Nat :=
  p.opc.toNat + p.len.toNat * 2 ^ 8 + p.host.toNat * 2 ^ 16 + p.tag.toNat * 2 ^ 28 + p.ccx.toNat * 2 ^ 43 +
  p.lf.toNat * 2 ^ 47 + (if p.poison then 2 ^ 51 else 0) + p.status.toNat * 2 ^ 52 + p.seq.toNat * 2 ^ 64 +
  p.addr.toNat * 2 ^ 96 + p.snpid.toNat * 2 ^ 160 + p.way.toNat * 2 ^ 176 + (if p.binv then 2 ^ 179 else 0) +
  (if p.data then 2 ^ 180 else 0) + (if p.loc then 2 ^ 181 else 0) + (if p.vsel then 2 ^ 182 else 0) +
  p.aop.toNat * 2 ^ 184 + p.size.toNat * 2 ^ 192 + p.fwdhost.toNat * 2 ^ 200 + p.fwdtag.toNat * 2 ^ 212 +
  p.set.toNat * 2 ^ 227

/-- Unit `i` of a number. -/
def unitOf (v i : Nat) : BitVec 128 := BitVec.ofNat 128 (v / 2 ^ (128 * i))

/-- The units of a packet: header, then body. -/
def packetUnits (p : Pkt) : List (BitVec 128) :=
  [unitOf (packetHeader p) 0, unitOf (packetHeader p) 1] ++ (List.range (p.len.toNat - 2)).map (unitOf p.body.toNat)

/-- The number that a list of units spells. -/
def unitsNat : List (BitVec 128) → Nat
  | [] => 0
  | u :: t => u.toNat + 2 ^ 128 * unitsNat t

/-- The packet that units received at a port spell. -/
def pktOfUnits (port : Nat) (us : List (BitVec 128)) : Pkt :=
  let h := unitsNat (us.take 2)
  { port := Fin.ofNat 64 port
    opc := BitVec.ofNat 6 (bits h 5 0)
    len := BitVec.ofNat 5 (bits h 12 8)
    host := BitVec.ofNat 12 (bits h 27 16)
    tag := BitVec.ofNat 15 (bits h 42 28)
    ccx := BitVec.ofNat 4 (bits h 46 43)
    lf := BitVec.ofNat 4 (bits h 50 47)
    poison := tst h 51
    status := BitVec.ofNat 8 (bits h 59 52)
    seq := BitVec.ofNat 32 (bits h 95 64)
    addr := BitVec.ofNat 64 (bits h 159 96)
    snpid := BitVec.ofNat 16 (bits h 175 160)
    way := BitVec.ofNat 3 (bits h 178 176)
    binv := tst h 179
    data := tst h 180
    loc := tst h 181
    vsel := tst h 182
    aop := BitVec.ofNat 8 (bits h 191 184)
    size := BitVec.ofNat 3 (bits h 194 192)
    fwdhost := BitVec.ofNat 12 (bits h 211 200)
    fwdtag := BitVec.ofNat 15 (bits h 226 212)
    set := BitVec.ofNat 12 (bits h 238 227)
    body := BitVec.ofNat 2048 (unitsNat (us.drop 2)) }

/-- Virtual channel of an opcode (Tables LNK-4, COH-2, MOD-2, OPS-1, TRN-3). -/
def vcOf (o : Nat) : Nat :=
  if o = 0x05 || o = 0x08 || o = 0x19 || o = 0x1B || o = 0x1E || o = 0x24 || o = 0x25 || o = 0x3B || o = 0x3C then 3
  else if o = 0x38 || o = 0x39 then 4
  else if 0x28 ≤ o && o ≤ 0x2D then 5
  else if 0x10 ≤ o && o ≤ 0x13 then 1
  else if (1 ≤ o && o ≤ 4) || o = 6 || (0x30 ≤ o && o ≤ 0x35) then 0
  else 2

/-- System traffic at a crossbar output (R380): snoops, stamps, carillon copies, the CTL channel and DropNotice. -/
def systemPkt (o : Nat) : Bool := (0x10 ≤ o && o ≤ 0x13) || (0x28 ≤ o && o ≤ 0x2F) || o == 0x36 || o == 0x07

/-! ## The crossbar output to a port (R379, R380, R383) -/

/-- Flow of a packet: the admitting tenant of its host. -/
def State.flowOf (s : State) (k : Pkt) : Nat :=
  (((s.attach k.host.toNat (if k.addr = 0 then none else some (ptrSpace k.addr.toNat))).head?).map (·.tenant)).getD 0

/-- WT of a tenant. -/
def State.weightOf (s : State) (t : Nat) : Nat :=
  bits (s.reg (blkXbar 0 * 0x100000 + 0x600 + 8 * (t / 8))) (8 * (t % 8) + 3) (8 * (t % 8))

/-- Is the time gate of a tenant open at a port, in the first crossbar cycle of the beat? -/
def State.gateOpen (s : State) (p t : Nat) : Bool :=
  let c := s.beat * 80 % 1024
  tst (s.reg (blkPort p * 0x100000 + 0x1400 + c / 8 * 8)) (c % 8 * 8 + s.gateOf t)

/-- The crossbar input that a packet of the T7's units comes through (R386): home slices 0 to 63 for snoops, mirror traffic and
answers that name a line, 64 the dispatcher, 65 the units of the crossbar itself (DESIGN CHOICE, log entry 63). -/
def sourceOf (k : Pkt) : Nat :=
  let o := k.opc.toNat
  if 0x10 ≤ o && o ≤ 0x13 then bits k.snpid.toNat 15 10
  else if 0x38 ≤ o || o = 0x2D then 64
  else if k.addr = 0 then 65 else homeOfPtr k.addr.toNat

/-- The heads of the virtual output queues: the first packet of each crossbar input, in order of arrival (R386). -/
def headsOf (ks : List Pkt) : List Pkt :=
  ks.foldl (fun (acc : List Pkt) k => if acc.any fun e => sourceOf e == sourceOf k then acc else acc ++ [k]) []

/-- No flow of a channel is eligible: V and every finish tag become zero (R379). -/
def State.fqClear (s : State) (p v : Nat) : State :=
  let clear (m : SMap Nat) : SMap Nat := m.filter fun e => e.1 / 256 ≠ v
  s.setLink p fun l => { l with fqV := l.fqV.set v 0, fqF := clear l.fqF, fqH := clear l.fqH }

/-- The next packet that the crossbar grants to channel `v` of a port, out of the heads of the queues aimed at it: system traffic
first, in order, then the eligible flow with the least finish tag. -/
def State.grantPkt (s : State) (p v : Nat) : Option Pkt × State :=
  let mine := headsOf (s.out.filter fun k => k.port.val == p && vcOf k.opc.toNat == v)
  match mine.find? fun k => systemPkt k.opc.toNat with
  | some k =>
    let on := mine.any fun e => let t := s.flowOf e; !systemPkt e.opc.toNat && 0 < s.weightOf t && s.gateOpen p t
    let s := if on then s else s.fqClear p v
    (some k, { s with out := s.out.erase k })
  | none =>
    let l := s.link p
    let V := l.fqV.getD v 0
    let hs : List (Nat × Pkt) := mine.foldl (fun (acc : List (Nat × Pkt)) k =>
      let t := s.flowOf k
      if acc.any fun e => e.1 == t then acc else acc ++ [(t, k)]) []
    let tag (e : Nat × Pkt) : Nat :=
      let i := 256 * v + e.1
      match SMap.get 0 l.fqH i with
      | 0 => max V (SMap.get 0 l.fqF i) + e.2.len.toNat * 360360 / max 1 (s.weightOf e.1)
      | f => f
    let s := s.setLink p fun l => { l with fqH := hs.foldl (fun m e => SMap.set 0 m (256 * v + e.1) (tag e)) l.fqH }
    let ok := hs.filter fun e => 0 < s.weightOf e.1 && s.gateOpen p e.1
    match minBy? (fun (e : Nat × Pkt) => tag e * 256 + e.1) ok with
    | none => (none, s.fqClear p v)
    | some e =>
      let i := 256 * v + e.1
      let f := tag e
      let s := s.setLink p fun l =>
        { l with fqV := l.fqV.set v f, fqF := SMap.set 0 l.fqF i f, fqH := SMap.set 0 l.fqH i 0 }
      (some e.2, ({ s with out := s.out.erase e.2 }).tel (blkXbar (p / 32)) 0x01 (p + 64 * v) 1)

/-- Is a packet a final response of a request or an Invoke (stage 8 of Table TEL-2)? -/
def finalResponse (k : Pkt) : Bool := [0x20, 0x21, 0x22, 0x24, 0x25, 0x26, 0x37, 0x3C].contains k.opc.toNat

/-- Fill a channel's units up to 15, starting packets while the crossbar grants some: SOP and the units. -/
def State.fillUnits (s : State) (p v : Nat) (us : List (BitVec 128)) (sop : Nat) : Nat → List (BitVec 128) × Nat × State
  | 0 => (us, sop, s)
  | n + 1 =>
    if 15 ≤ us.length then (us, sop, s)
    else match s.grantPkt p v with
      | (none, s) => (us, sop, s)
      | (some k, s) => (if finalResponse k then s.stage k.host.toNat k.tag.toNat 8 else s).fillUnits p v (us ++ packetUnits k) (if sop = 15 then us.length else sop) n

/-! ## Sending (R318, R321, R324, R329) -/

/-- Bytes of a flit: header of Table LNK-3, payload, CRC. -/
def linkFlit (l : Link) (ft fseq vc sop : Nat) (us : List (BitVec 128)) : BitVec 2048 :=
  let h := ft + fseq * 2 ^ 2 + (if l.av then (l.expect + 16383) % 16384 * 2 ^ 16 + 2 ^ 30 else 0) +
    (if l.rr then 2 ^ 31 else 0) + l.rnum * 2 ^ 32 + vc * 2 ^ 34 + sop * 2 ^ 37 + l.report * 2 ^ 41 +
    l.freed.getD l.report 0 * 2 ^ 44
  let v := h + unitsNat us * 2 ^ 64
  BitVec.ofNat 2048 (v + (crc64 (natLe 248 v)).toNat * 2 ^ 1984)

/-- Put a flit on a lane: one more channel has been reported. -/
def State.putFlit (s : State) (p lane ft fseq vc sop : Nat) (us : List (BitVec 128)) : State :=
  (s.setLink p fun l =>
    { l with tx := l.tx ++ [(lane, linkFlit l ft fseq vc sop us)], report := (l.report + 1) % 6 }).tel
    (blkPort p) 0x01 (ft + 4 * vc) 1

/-- Send a new sequenced flit: it joins the replay buffer. -/
def State.sendNew (s : State) (p lane ft vc sop : Nat) (us : List (BitVec 128)) : State :=
  let n := (s.link p).next
  let s := s.putFlit p lane ft n vc sop us
  s.setLink p fun l => { l with next := (n + 1) % 16384, replay := l.replay ++ [⟨n, ft, vc, sop, us⟩] }

/-- A link message of Table LNK-5. -/
def linkMsg (code fields : Nat) : BitVec 128 := BitVec.ofNat 128 (code + fields * 256)

/-- Does a channel hold data that may be sent: an open packet, or a packet the crossbar has for it while packets may start? -/
def State.hasData (s : State) (p v : Nat) (start : Bool) : Bool :=
  !((s.link p).sending.getD v []).isEmpty ||
    (start && s.out.any fun k => k.port.val == p && vcOf k.opc.toNat == v)

/-- Does the egress shaper hold a channel (R381)? -/
def State.shaped (s : State) (p v : Nat) : Bool := v ≠ 5 && s.on (F.fportShapeEn p) && s.tokens p < 256

/-- Try to send a PAYLOAD flit on the first channel of a list that has data, credit and tokens. -/
def State.sendPayload (s : State) (p lane : Nat) (start : Bool) : List Nat → Option State × State
  | [] => (none, s)
  | v :: vs =>
    let l := s.link p
    if !s.hasData p v start || l.credit.getD v 0 = 0 || s.shaped p v then s.sendPayload p lane start vs
    else
      let (us, sop, s) := s.fillUnits p v (l.sending.getD v []) 15 (if start then 8 else 0)
      if us.isEmpty then s.sendPayload p lane start vs
      else
        let s := if v ≠ 5 && s.on (F.fportShapeEn p) then s.setTokens p (s.tokens p - 256) else s
        let s := s.sendNew p lane 1 v sop (us.take 15)
        let upd (l : Link) : Link :=
          { l with sending := l.sending.set v (us.drop 15), credit := l.credit.set v (l.credit.getD v 0 - 1) }
        let s := s.setLink p upd
        (some (if v = 5 then s else s.setLink p fun l => { l with robin := v }), s)

/-- One lane of a send slot: rolled flits first, then link messages, then payload of the CTL channel and the others in
round robin, else IDLE (R321).  The WGO of a width change goes when every open packet has ended (R334). -/
def State.sendLane (s : State) (p lane : Nat) : State :=
  let l := s.link p
  let idle (s : State) : State := s.putFlit p lane 0 (s.link p).next 0 0 []
  let going := match l.width with
    | some w => w.go && w.sent.isNone
    | none => false
  if !tst (s.rd (F.fportLstatTxmask p)) lane then idle s
  else match l.roll with
  | f :: fs => (s.setLink p fun l => { l with roll := fs }).putFlit p lane f.ft f.seq f.vc f.sop f.units
  | [] =>
    if 4096 ≤ l.replay.length then idle s
    else if !l.ctl.isEmpty then
      (s.setLink p fun l => { l with ctl := l.ctl.drop 15 }).sendNew p lane 2 0 0 (l.ctl.take 15)
    else if going && l.sending.all (·.isEmpty) then
      match l.width with
      | some w =>
        let s := s.sendNew p lane 2 0 0 [linkMsg 3 (w.token + w.mask * 256)]
        (s.setLink p fun x => { x with width := some { w with sent := some l.next } }).wr (F.fportLstatTxmask p) w.mask
      | none => s
    else
      let order := 5 :: (List.range 5).map fun i => (l.robin + 1 + i) % 5
      match s.sendPayload p lane (!going) order with
      | (some s, _) => s
      | (none, s) =>
        let held := (List.range 5).any fun v => s.hasData p v (!going) && 0 < l.credit.getD v 0 && s.shaped p v
        idle (if held then s.tel (blkPort p) 0x09 0 1 else s)

/-- The message of a lane marker (Table LNK-2). -/
def State.marker (s : State) (p lane : Nat) : Nat :=
  let l := s.link p
  let v := 0x494C4D4B + lane * 2 ^ 32 + l.lit * 2 ^ 34 + s.rd (F.fportLstatRate p) * 2 ^ 38 + l.period * 2 ^ 40 +
    s.rd (F.fportEndIdId p) * 2 ^ 72
  v + (crc64 (natLe 17 v)).toNat * 2 ^ 136

/-- The slot's flits join the codewords of their lanes: at the first slot of a marker period every lit lane sends its marker, and
the codewords that become whole are sent (R315, R316). -/
def State.fecSend (s : State) (p : Nat) : State :=
  let l := s.link p
  let o := 2048 * l.txSlot % wordBits
  let lanes := (List.range 4).filter fun i => tst l.lit i
  let marks := if l.txSlot = 0 then lanes.map fun i => (i, rsEncode (s.marker p i)) else []
  let flit (i : Nat) : Nat := match l.tx.find? fun e => e.1 == i with
    | some e => e.2.toNat
    | none => 0
  let acc := (List.range 4).map fun i => l.txBits.getD i 0 + flit i * 2 ^ o
  let whole := decide (wordBits ≤ o + 2048)
  let last := decide (l.txSlot + 1 = periodFlits)
  s.setLink p fun l => { l with
    words := marks ++ (if whole then lanes.map fun i => (i, rsEncode (acc.getD i 0)) else [])
    txBits := if whole then acc.map (· / 2 ^ wordBits) else acc
    txSlot := (l.txSlot + 1) % periodFlits
    period := if last then (l.period + 1) % 2 ^ 32 else l.period }

/-- A send slot: one flit on every lit lane (R321), and which channels are stalled for want of credit (R464). -/
def State.sendSlot (s : State) (p : Nat) : State :=
  let s := (s.carDeliver p).setLink p fun l => { l with tx := [] }
  let s := each ((List.range 4).filter fun i => tst (s.link p).lit i) (fun i s => s.sendLane p i) s
  let s := s.fecSend p
  let st (l : Link) (v : Nat) : Option Nat :=
    if s.hasData p v true && l.credit.getD v 0 = 0 then some ((l.stalled.getD v none).getD s.beat) else none
  s.setLink p fun l => { l with stalled := (List.range 6).map (st l) }

/-! ## Receiving (R319 to R329) -/

/-- Ask for a roll: RNUM rises and RR is set (R328). -/
def State.askRoll (s : State) (p : Nat) : State :=
  let n (l : Link) : Nat := if l.rr then l.rrCount + 1 else 1
  s.setLink p fun l => { l with rnum := (l.rnum + 1) % 4, rr := true, rrSince := s.beat, rrCount := n l }

/-- A flit was discarded or lost: the first time after an acceptance, ask for a roll. -/
def State.flitLost (s : State) (p : Nat) : State := if (s.link p).rr then s else s.askRoll p

/-- Resend every unacknowledged flit (R329). -/
def State.rollNow (s : State) (p : Nat) : State :=
  (s.setLink p fun l => { l with roll := l.replay }).tel (blkPort p) 0x04 0 1

/-- Flits up to an acknowledged sequence number leave the replay buffer. -/
def acked (a : Nat) (fs : List SentFlit) : List SentFlit :=
  if fs.any fun f => f.seq == a then (fs.dropWhile fun f => f.seq ≠ a).drop 1 else fs

/-- An acknowledgement. -/
def State.takeAck (s : State) (p a : Nat) : State :=
  s.setLink p fun l =>
    let r := acked a l.replay
    { l with replay := r, roll := l.roll.filter fun f => r.any fun g => g.seq == f.seq }

/-- One unit of a channel's byte stream: it continues a packet, begins one, or is padding.  The last part is set once the
rest of the flit is padding. -/
def takeUnit (port v beat : Nat) (acc : Link × Bool) (u : BitVec 128) : Link × Bool :=
  let (l, pad) := acc
  let st := l.stream.getD v []
  if pad || (st.isEmpty && u.toNat % 256 = 0) then (l, pad || st.isEmpty)
  else
    let st := st ++ [u]
    let len := max 2 (bits ((st.headD 0).toNat) 12 8)
    if st.length < len then ({ l with stream := l.stream.set v st }, false)
    else ({ l with stream := l.stream.set v [], rx := l.rx ++ [⟨v, pktOfUnits port st, 0, beat⟩] }, false)

/-- A PAYLOAD flit accepted on a channel: its packets wait for ingress, and the last of them frees the flits held. -/
def takePayload (port v beat : Nat) (us : List (BitVec 128)) (l : Link) : Link :=
  let n := l.rx.length
  let (l, _) := us.foldl (takeUnit port v beat) (l, false)
  let h := l.held.getD v 0 + 1
  if n < l.rx.length then
    { l with
      rx := l.rx.take (l.rx.length - 1) ++ ((l.rx.drop (l.rx.length - 1)).map fun x => { x with flits := h }),
      held := l.held.set v 0 }
  else if (l.stream.getD v []).isEmpty then
    { l with freed := l.freed.set v ((l.freed.getD v 0 + h) % 4096), held := l.held.set v 0 }
  else { l with held := l.held.set v h }

/-- A good flit: acknowledgement, credit, roll request, and the flit itself by its sequence number. -/
def State.goodFlit (s : State) (p : Nat) (f : Nat) : State :=
  let ft := bits f 1 0
  let fseq := bits f 15 2
  let vc := if ft = 1 then bits f 36 34 else 0
  let cvc := bits f 43 41
  let s := s.tel (blkPort p) 0x02 (ft + 4 * vc) 1
  let s := s.setLink p fun l => { l with lastGood := s.beat }
  let s := if tst f 30 then s.takeAck p (bits f 29 16) else s
  let s := if 6 ≤ cvc then s else s.setLink p fun l =>
    let d := (bits f 55 44 + 4096 - l.ctot.getD cvc 0) % 4096
    { l with credit := l.credit.set cvc (l.credit.getD cvc 0 + d), ctot := l.ctot.set cvc (bits f 55 44) }
  let s := if tst f 31 && (s.link p).rolled ≠ some (bits f 33 32) then
      (s.setLink p fun l => { l with rolled := some (bits f 33 32) }).rollNow p
    else s
  let l := s.link p
  if ft = 0 then (if fseq = l.expect then s else s.flitLost p)
  else if fseq ≠ l.expect then s.flitLost p
  else
    let us := (List.range 15).map fun i => unitOf (f / 2 ^ 64) i
    let s := s.setLink p fun l => { l with expect := (fseq + 1) % 16384, av := true, rr := false, rrCount := 0 }
    if ft = 1 then s.setLink p (takePayload p vc s.beat us)
    else s.setLink p fun l => { l with inbox := l.inbox ++ us.takeWhile fun u => u.toNat % 256 ≠ 0 }

/-- Is a flit bad (R319)? -/
def flitBad (x : FlitIn) : Bool :=
  let f := x.data.toNat
  x.bad || (crc64 (natLe 248 f)).toNat ≠ f / 2 ^ 1984 || bits f 1 0 == 3 || (bits f 1 0 == 1 && 6 ≤ bits f 36 34)

/-- One lane's flit. -/
def State.laneFlit (s : State) (p : Nat) (x : FlitIn) : State :=
  let s := if x.corrected then s.tel (blkPort p) 0x05 x.lane 1 else s
  let s := if x.lost then s.tel (blkPort p) 0x06 x.lane 1 else s
  if flitBad x then s.tel (blkPort p) 0x03 0 1 else s.goodFlit p x.data.toNat

/-- A width change is done once the peer has acknowledged this port's WGO and its own has been accepted (R334). -/
def State.widthDone (s : State) (p : Nat) : State :=
  match (s.link p).width with
  | none => s
  | some w =>
    match w.sent with
    | none => s
    | some n =>
      if !w.got || ((s.link p).replay.any fun f => f.seq == n) then s
      else
        let rest := w.mask - (w.mask &&& (s.link p).dark)
        let s := ((s.wr (F.fportLstatRxmask p) (if rest = 0 then w.mask else rest)).wr (F.fportLstatWbusy p) 0).wr
          (F.fportLstatWres p) 0
        (s.setLink p fun l => { l with width := none, lit := w.mask, dark := 0 }).raise (blkPort p) 9 none

/-- The logical lane that a received marker names, if it is one (R316). -/
def markerLane (w : BitVec 5440) : Option Nat :=
  match rsDecode w with
  | some (v, _) =>
    if bits v 31 0 = 0x494C4D4B && bits v 199 136 = (crc64 (natLe 17 (bits v 135 0))).toNat then some (bits v 33 32) else none
  | none => none

/-- At the first slot of a marker period each lane's marker comes before its codewords, and maps the lane (R316). -/
def Link.takeMarkers (l : Link) (fs : List LaneFlit) : Link :=
  if l.rxSlot ≠ 0 then l
  else fs.foldl (fun l x => match (x.words.head?).bind markerLane with
    | some i => { l with lanes := l.lanes.set x.lane.val i }
    | none => l) l

/-- The flits that a slot's lanes deliver, by logical lane (R315, R316). -/
def Link.flitsOf (l : Link) (fs : List LaneFlit) : List FlitIn :=
  fs.map fun x => fecFlit (l.lanes.getD x.lane.val x.lane.val) l.rxSlot (if l.rxSlot = 0 then x.words.drop 1 else x.words)

/-- One flit slot of an ACTIVE port: the good flits of the receive mask in ascending lane order (R322), then the T7's own
slot. -/
def State.flitReceive (s : State) (p : Nat) (fs : List LaneFlit) : State :=
  if s.lstate p ≠ 3 then s
  else
    let s := s.setLink p fun l => l.takeMarkers fs
    let xs := (sortBy (fun (x : FlitIn) => x.lane) ((s.link p).flitsOf fs)).filter fun x => tst (s.rd (F.fportLstatRxmask p)) x.lane
    let s := s.setLink p fun l => { l with rxSlot := (l.rxSlot + 1) % periodFlits }
    let s := each xs (fun x s => s.laneFlit p x) s
    (s.widthDone p).sendSlot p

/-- Does a waiting packet carry a charge of the host? -/
def RxPkt.charges (x : RxPkt) (h : BitVec 12) : Bool := x.pkt.host == h && charged x.pkt.opc.toNat

/-- The waiting packet that enters ingress when `p` is due: charges of one policer are judged by the slot that brought them, then
by arrival port, and on one port in arrival order (R375); any other packet is itself. -/
def State.rxFirst (s : State) (p : Pkt) (x : RxPkt) : RxPkt :=
  if !charged p.opc.toNat then x
  else
    let all := (List.range 64).flatMap fun k => (s.link k).rx.filter fun y => y.charges p.host
    (minBy? (fun (y : RxPkt) => y.at_ * 64 + y.pkt.port.val) all).getD x

/-- INGRESS of a packet, from the receive buffer where it waits there: its flits' credits are freed when it leaves the input, at
once or, when its virtual output queue is full, later (R386). -/
def State.rxIngress (s : State) (p : Pkt) : State :=
  match (s.link p.port.val).rx.find? fun x => x.pkt == p with
  | none => s.ingress p
  | some x =>
    let x := s.rxFirst p x
    let k := x.pkt.port.val
    let n := s.hosts.inHold.length
    let s := (s.setLink k fun l => { l with rx := l.rx.erase x }).ingress x.pkt
    if n < s.hosts.inHold.length then
      let tag := s.hosts.inHold.drop n |>.map fun e => (e.1, x.vc, x.flits)
      { s with hosts := { s.hosts with inHold := s.hosts.inHold.take n ++ tag } }
    else s.freeFlits k x.vc x.flits

/-- INGRESS (R370). -/
def execIngress (p : Pkt) (s : State) : Host.Outcome State Fault Refusal := live s fun s => s.rxIngress p

/-- FLIT_RECEIVE (R327, R329). -/
def execFlitReceive (port : Fin 64) (fs : List LaneFlit) (s : State) : Host.Outcome State Fault Refusal :=
  live s fun s => if s.on (F.hdrStateInreset (blkPort port.val)) then s else s.flitReceive port.val fs

end Sys2Proof.Machine
end

