-- ==== Sys2Proof/Machine/Link.lean ====
section
/-! DEFINITION. Link states of the fabric ports: lane loss, the roll timeout, width changes, retraining, training, HOLD and
the flush, and the laser modules (R309 to R317, R328, R331 to R345, R358). -/

namespace Sys2Proof.Machine

/-- Lane masks and other four-bit sets: `a` without `b`. -/
def without (a b : Nat) : Nat := a - (a &&& b)

/-- Queue a link message for the next CONTROL flit (R331). -/
def State.linkSay (s : State) (p code fields : Nat) : State :=
  s.setLink p fun l => { l with ctl := l.ctl ++ [linkMsg code fields] }

/-- A received link message leaves the inbox that a CONTROL flit put it in. -/
def State.linkHeard (s : State) (p code fields : Nat) : State :=
  s.setLink p fun l => { l with inbox := l.inbox.erase (linkMsg code fields) }

/-! ## Requests and width changes (R333 to R335) -/

/-- Is a width change under way: requested, or agreed on? -/
def State.changing (s : State) (p : Nat) : Bool :=
  (s.link p).width.isSome || (match (s.link p).req with
    | some r => !r.retrain
    | none => false)

/-- End a width change with a result in LSTAT.WRES; both masks stay (R335). -/
def State.widthEnd (s : State) (p res : Nat) : State :=
  if !s.changing p then s
  else
    let s := (s.wr (F.fportLstatWbusy p) 0).wr (F.fportLstatWres p) res
    let keep (l : Link) : Option LinkReq := match l.req with
      | some r => if r.retrain then some r else none
      | none => none
    (s.setLink p fun l => { l with width := none, req := keep l }).raise (blkPort p) 9 none

/-- Send the oldest request that waits, when none is outstanding (R333). -/
def State.linkAsk (s : State) (p : Nat) : State :=
  let l := s.link p
  if s.lstate p ≠ 3 || l.req.isSome || l.width.isSome then s
  else match l.want with
    | [] => s
    | (retrain, arg) :: ws =>
      let t := l.token
      let s := s.setLink p fun l =>
        { l with want := ws, token := (t + 1) % 256, req := some ⟨retrain, t, arg, s.beat⟩ }
      if retrain then s.linkSay p 4 (t + arg * 256)
      else
        let s := s.setLink p fun l => { l with lit := l.lit ||| arg }
        (s.wr (F.fportLstatWbusy p) 1).linkSay p 1 (t + arg * 256)

/-- Ask for a retrain with a cause, or for a width change to a mask. -/
def State.linkWant (s : State) (p : Nat) (retrain : Bool) (arg : Nat) : State :=
  (s.setLink p fun l => { l with want := l.want ++ [(retrain, arg)] }).linkAsk p

/-- A request of the peer meets this end's own outstanding one (R333): does this end go on without answering?  Otherwise it
withdraws its own. -/
def State.collide (s : State) (p : Nat) (peerRetrain : Bool) : Bool × State :=
  match (s.link p).req with
  | none => (false, s)
  | some r =>
    if s.rd (F.fportPeerIdId p) < s.rd (F.fportEndIdId p) then (true, s)
    else
      let s := s.linkSay p 6 r.token
      let s := if r.retrain then s else s.widthEnd p 1
      let again (l : Link) : List (Bool × Nat) := if r.retrain && !peerRetrain then (true, r.arg) :: l.want else l.want
      (false, s.setLink p fun l => { l with req := none, want := again l })

/-- A retrain has been agreed on (R341). -/
def State.retrainGo (s : State) (p : Nat) : State :=
  let s := (s.widthEnd p 2).wr (F.fportLstatState p) 4
  (s.setLink p fun l => { l with
    req := none, retrainAt := s.beat, training := some s.beat, ident := false,
    resumed := none, roll := [], want := l.want.filter fun w => !w.1 }).raise (blkPort p) 9 none

/-! ## Link down, grace and flush (R337, R339, R342, R343, R358) -/

/-- Grace expiry beat of a link that goes down now. -/
def State.graceBeat (s : State) (p : Nat) : Nat := s.eff + ceilDiv (s.rd (F.fportLctlGrace p) * 625) 2

/-- The link goes down into HOLD with a cause, an event of class 5: no lane carries flits, and replay buffer, sequence numbers and
credits stay. -/
def State.linkDown (s : State) (p cause : Nat) : State :=
  let s := ((s.widthEnd p 2).wr (F.fportLstatState p) 5).wr (F.fportLstatCause p) cause
  let s := (s.wr (F.fportLstatTxmask p) 0).wr (F.fportLstatRxmask p) 0
  (s.setLink p fun l => { l with
    req := none, want := [], ctl := [], roll := [], rr := false, rrCount := 0, dark := 0,
    lostAt := none, training := none, ident := false, resumed := none, expiry := s.graceBeat p, tx := [] }).raise
    (blkPort p) 5 none

/-- Count packets and requests by their row of Table TRN-8. -/
def State.flushTel (s : State) (p row n : Nat) : State := if n = 0 then s else s.tel (blkXbar (p / 32)) 0x08 row n

/-- The port flushes (R343, R358): its queues and buffers are gone, snoops to hosts behind it wait for the host to be heard
from, requests sent through it as a peer end with LINK_LOST, sequence numbers and credits are cleared. -/
def State.flush (s : State) (p : Nat) : State :=
  let inb := (s.link p).rx.length + (s.hosts.inHold.filter fun e => e.1.pkt.port.val == p).length + (s.hosts.frzq.filter fun k => k.port.val == p).length
  let outs := s.out.filter fun k => k.port.val == p
  let lost := s.homes.txns.flatMap fun t =>
    (t.snoops.filter fun n => s.rport n.host == p).map fun n => (n.host, t.home, t.idx)
  let mine := s.peers.filter fun q => q.port == p
  let behind := (s.homes.txns.filter fun t => t.req.host < 4096 && s.rport t.req.host == p).length
  let row6 (k : Pkt) : Bool := k.opc == 0x07 || k.opc == 0x2B || k.opc == 0x2D || k.opc == 0x36
  let snp (k : Pkt) : Bool := vcOf k.opc.toNat == 1
  let s := ((s.flushTel p 1 inb).flushTel p 2 behind).flushTel p 3 (outs.filter fun k => !row6 k && !snp k).length
  let s := ((s.flushTel p 4 lost.length).flushTel p 5 mine.length).flushTel p 6
    ((outs.filter row6).length + (s.hosts.carillon.filter fun c => tst c.mask p).length)
  let s := { s with
    out := s.out.filter (fun k => k.port.val ≠ p),
    hosts := { s.hosts with
      frzq := s.hosts.frzq.filter (fun k => k.port.val ≠ p),
      inHold := s.hosts.inHold.filter (fun e => e.1.pkt.port.val ≠ p),
      lostSnoops := s.hosts.lostSnoops ++ (lost.filter fun e => !s.hosts.lostSnoops.contains e) } }
  let s := s.setLink p fun l => { Link.reset with token := l.token, widenAt := l.widenAt, hungAt := l.hungAt }
  let s := ((s.carDone p).wr (F.fportLstatTxmask p) 0).wr (F.fportLstatRxmask p) 0
  each mine (fun q s => ({ s with peers := s.peers.erase q }).failReq (homeOfPtr q.req.addr) q.req stLinkLost) s

/-- The flush that ends in DOWN with a cause, an event of a class. -/
def State.flushDown (s : State) (p cause cls : Nat) : State :=
  let s := (s.widthEnd p 2).flush p
  ((s.wr (F.fportLstatState p) 1).wr (F.fportLstatCause p) cause).raise (blkPort p) cls none

/-- Taking a port out of service (R344): packets end, DISABLE is sent, the lanes go dark and the port flushes. -/
def State.linkOff (s : State) (p : Nat) : State :=
  let up := s.lstate p == 3
  let l := s.link p
  let f := linkFlit l 2 l.next 0 0 [linkMsg 0x0A 0]
  let sent : List (Nat × BitVec 2048) := if up then [((findLow 4 fun i => tst l.lit i).getD 0, f)] else []
  let s := (s.widthEnd p 2).flush p
  let s := s.setLink p fun l => { l with tx := sent }
  ((s.wr (F.fportLstatState p) 0).wr (F.fportLstatCause p) 4).raise (blkPort p) 5 none

/-! ## Training and resumption (R339 to R341) -/

/-- Training from DOWN fails with a cause. -/
def State.trainFail (s : State) (p cause : Nat) : State :=
  let s := s.setLink p fun l => { Link.reset with token := l.token, widenAt := l.widenAt, hungAt := l.hungAt }
  ((s.wr (F.fportLstatState p) 1).wr (F.fportLstatCause p) cause).raise (blkPort p) 9 none

/-- Rate that LCTL.RATE selects (R340): 0 full, 1 half. -/
def pickRate (sel rtt : Nat) (full half : Bool) : Option Nat :=
  if sel = 1 then (if full then some 0 else none)
  else if sel = 2 then (if half then some 1 else none)
  else if full && rtt ≤ 8900 then some 0 else if half then some 1 else none

/-- RESUME has been exchanged: the replay buffer rolls from the peer's ACKSEQ + 1 and the link is ACTIVE (R341, R342). -/
def State.resumeNow (s : State) (p : Nat) : State :=
  match (s.link p).resumed with
  | none => s
  | some a =>
    if !(s.link p).ident then s
    else
      let held := s.lstate p == 5
      let s := (s.takeAck p a).setLink p fun l => { l with
        resumed := none, ident := false, training := none, rr := false,
        rrCount := 0, rolled := none, lastGood := s.beat, lostAt := none, dark := 0,
        txBits := [0, 0, 0, 0], txSlot := 0, rxSlot := 0, lanes := [0, 1, 2, 3] }
      let s := (s.rollNow p).wr (F.fportLstatState p) 3
      (if held then s.raise (blkPort p) 9 none else s).linkAsk p

/-- TRAINING_START: a lane detects signal. -/
def State.trainStart (s : State) (p : Nat) : State :=
  let go (s : State) : State := s.setLink p fun l => { l with training := some s.beat, ident := false, credited := false }
  if s.lstate p = 1 then (go s).wr (F.fportLstatState p) 2
  else if s.lstate p = 5 && (s.link p).training.isNone then go s else s

/-- TRAINING_COMPLETE: what IDENT found (the peer's END_ID, its resumable flag, the measured RTT in ns), the lanes that
trained, and whether each rate trained on them. -/
def State.trainDone (s : State) (p id : Nat) (resumable : Bool) (lanes rtt : Nat) (full half : Bool) : State :=
  let rate := pickRate (s.rd (F.fportLctlRate p)) rtt full half
  let note (s : State) (r : Nat) : State :=
    ((s.wr (F.fportPeerIdId p) id).wr (F.fportLstatRtt p) rtt).wr (F.fportLstatRate p) r
  let masks (s : State) : State :=
    ((s.wr (F.fportLstatTxmask p) lanes).wr (F.fportLstatRxmask p) lanes).setLink p fun l => { l with lit := lanes }
  let resume (s : State) : State :=
    let l := s.link p
    (s.linkSay p 8 (if l.av then (l.expect + 16383) % 16384 else 0)).setLink p fun l => { l with ident := true }
  match s.lstate p with
  | 2 =>
    match rate with
    | none => s.trainFail p 6
    | some r =>
      if lanes % 16 = 0 then s.trainFail p 6
      else if id = s.rd (F.fportEndIdId p) then ((note s r).trainFail p 7)
      else if !(s.link p).credited then s
      else
        let s := (masks (note s r)).wr (F.fportLstatState p) 3
        (s.setLink p fun l => { l with training := none, lastGood := s.beat }).raise (blkPort p) 9 none
  | 4 =>
    if (s.link p).retrainAt + 2500 ≤ s.beat then s
    else match rate with
    | none => s
    | some r => (resume (note s r)).resumeNow p
  | 5 =>
    if (s.link p).training.isNone || (s.link p).expiry ≤ s.beat then s
    else match rate with
    | none => s.setLink p fun l => { l with training := none }
    | some r =>
      if lanes % 16 = 0 then s.setLink p fun l => { l with training := none }
      else if id ≠ s.rd (F.fportPeerIdId p) || !resumable then (note s r).flushDown p 11 9
      else (resume (masks (note s r))).resumeNow p
  | _ => s

/-- RESUME with the peer's ACKSEQ; in the grace expiry beat it is too late (R343). -/
def State.resumeIn (s : State) (p a : Nat) : State :=
  let s := s.linkHeard p 8 a
  let l := s.link p
  let ok := (s.lstate p == 4 && s.beat < l.retrainAt + 2500) || (s.lstate p == 5 && l.training.isSome && s.beat < l.expiry)
  if !ok then s else (s.setLink p fun l => { l with resumed := some a }).resumeNow p

/-- CREDIT_INIT: the peer's receive credits (R324). -/
def State.creditInit (s : State) (p : Nat) (cs : List Nat) : State :=
  if s.lstate p ≠ 2 then s
  else if cs.any fun c => c < 8 then s.trainFail p 8
  else s.setLink p fun l => { l with credit := cs, ctot := [0, 0, 0, 0, 0, 0], credited := true }

/-! ## Lanes (R336 to R338) -/

/-- LANE_LOSS: some lanes of the receive mask are lost, or all have lost signal. -/
def State.laneLoss (s : State) (p lanes : Nat) (skew : Bool) : State :=
  let m := s.rd (F.fportLstatRxmask p)
  let x := lanes &&& m
  if s.lstate p ≠ 3 || x = 0 then s
  else if without m x = 0 then
    let at_ (l : Link) : Nat := l.lostAt.getD s.beat
    s.setLink p fun l => { l with dark := m, lostAt := some (at_ l) }
  else
    let early := match (s.link p).width with
      | some w => w.sent.isNone && !w.got
      | none => true
    let s := if early then s.widthEnd p 2 else s.setLink p fun l => { l with dark := l.dark ||| x }
    let s := s.wr (F.fportLstatRxmask p) (without m x)
    let s := if skew then s.wr (F.fportLstatCause p) 9 else s
    let s := ((s.linkSay p 7 x).askRoll p).tel (blkPort p) 0x07 0 (popcount x 4)
    s.raise (blkPort p) 9 none

/-- LANE_REJOIN: a lane is back within 500 beats of the loss of all (R317, R337). -/
def State.laneRejoin (s : State) (p lane : Nat) : State :=
  match (s.link p).lostAt with
  | none => s
  | some t =>
    if s.lstate p ≠ 3 || t + 500 ≤ s.beat || !tst (s.link p).dark lane then s
    else (s.setLink p fun l => { l with dark := without l.dark (2 ^ lane), lostAt := none }).askRoll p

/-- LDOWN from the peer: the lanes leave the transmit mask at once and the port rolls on the others. -/
def State.laneDown (s : State) (p x : Nat) : State :=
  let s := s.linkHeard p 7 x
  let m := s.rd (F.fportLstatTxmask p)
  if s.lstate p ≠ 3 || m &&& x = 0 || without m x = 0 then s
  else
    let early := match (s.link p).width with
      | some w => w.sent.isNone && !w.got
      | none => true
    let s := if early then s.widthEnd p 2 else s
    ((s.wr (F.fportLstatTxmask p) (without m x)).setLink p fun l => { l with lit := without l.lit x }).rollNow p

/-- AUTO_WIDEN (R338). -/
def State.autoWiden (s : State) (p : Nat) : State :=
  let w := s.rd (F.fportLctlWmask p)
  let narrow (m : Nat) : Bool := without w m ≠ 0
  let l := s.link p
  if s.lstate p ≠ 3 || !s.on (F.fportLctlAutow p) || s.beat < l.widenAt + 3125000 || s.changing p ||
      !(narrow (s.rd (F.fportLstatTxmask p)) || narrow (s.rd (F.fportLstatRxmask p))) then s
  else (s.setLink p fun l => { l with widenAt := s.beat }).linkWant p false w

/-! ## Link messages (R334, R341) -/

/-- WREQ accepted; `locked` tells whether the port's receivers lock every lane of the mask. -/
def State.wreqIn (s : State) (p token mask : Nat) (locked : Bool) : State :=
  let s := s.linkHeard p 1 (token + mask * 256)
  if s.lstate p ≠ 3 || mask = 0 then s
  else
    let (on, s) := s.collide p false
    if on then s
    else
      let s := s.setLink p fun l => { l with lit := l.lit ||| mask, width := some ⟨token, mask, false, none, false⟩ }
      let s := s.wr (F.fportLstatWbusy p) 1
      if locked then s.linkSay p 2 token else s.widthEnd p 2

/-- WACK accepted: the packets in progress end and WGO follows. -/
def State.wackIn (s : State) (p token : Nat) (locked : Bool) : State :=
  let s := s.linkHeard p 2 token
  match (s.link p).req with
  | none => s
  | some r =>
    if s.lstate p ≠ 3 || r.retrain || r.token ≠ token then s
    else if !locked then s.widthEnd p 2
    else s.setLink p fun l => { l with req := none, width := some ⟨token, r.arg, true, none, false⟩ }

/-- WGO accepted: this end ends its packets and sends its own. -/
def State.wgoIn (s : State) (p token mask : Nat) : State :=
  let s := s.linkHeard p 3 (token + mask * 256)
  match (s.link p).width with
  | none => s
  | some w =>
    if s.lstate p ≠ 3 || w.token ≠ token || w.mask ≠ mask then s
    else (s.setLink p fun l => { l with width := some { w with go := true, got := true } }).widthDone p

/-- RTREQ accepted. -/
def State.rtreqIn (s : State) (p token cause : Nat) : State :=
  let s := s.linkHeard p 4 (token + cause * 256)
  if s.lstate p ≠ 3 then s
  else
    let (on, s) := s.collide p true
    if on then s else (s.linkSay p 5 token).retrainGo p

/-- RTACK accepted. -/
def State.rtackIn (s : State) (p token : Nat) : State :=
  let s := s.linkHeard p 5 token
  match (s.link p).req with
  | some r => if s.lstate p = 3 && r.retrain && r.token = token then s.retrainGo p else s
  | none => s

/-- WITHDRAW accepted: the peer's request, or the one that matches this end's, is over. -/
def State.withdrawIn (s : State) (p token : Nat) : State :=
  let s := s.linkHeard p 6 token
  let peers := match (s.link p).width with
    | some w => w.token == token && !w.go
    | none => false
  if peers then (s.widthEnd p 1).linkAsk p
  else match (s.link p).req with
    | some r =>
      if r.token ≠ token then s
      else if r.retrain then (s.setLink p fun l => { l with req := none }).linkAsk p else (s.widthEnd p 1).linkAsk p
    | none => s

/-- WREQ_TIMEOUT (R335). -/
def State.wreqTimeout (s : State) (p : Nat) : State :=
  match (s.link p).req with
  | some r => if !r.retrain && r.since + 31250 ≤ s.beat then (s.widthEnd p 3).linkAsk p else s
  | none => s

/-- ROLL_TIMEOUT (R328): the larger of 64 beats and twice the measured RTT. -/
def State.rollTimeout (s : State) (p : Nat) : State :=
  let l := s.link p
  if s.lstate p ≠ 3 || !l.rr || s.beat < l.rrSince + max 64 (ceilDiv (2 * s.rd (F.fportLstatRtt p)) 32) then s
  else
    let s := s.askRoll p
    if 8 ≤ (s.link p).rrCount then (s.setLink p fun l => { l with rrCount := 0 }).linkWant p true 3 else s

/-! ## Registers -/

/-- What a write of LCTL does, from DISABLE before it (R334, R341, R344). -/
def hookLctl (p : Nat) (wasOff : Bool) : Hook := fun v s =>
  let off := s.on (F.fportLctlDisable p)
  let s := if off && !wasOff then s.linkOff p
    else if !off && wasOff && s.lstate p = 0 then s.wr (F.fportLstatState p) 1
    else s
  let (s, f) := if !tst v 6 then (s, 0) else if s.lstate p ≠ 3 then (s, fState) else (s.linkWant p true 0, 0)
  let w := s.rd (F.fportLctlWmask p)
  if s.lstate p = 3 && w ≠ s.rd (F.fportLstatTxmask p) then (s.linkWant p false w, f) else (s, f)

/-- What a write of LASER does (R313). -/
def hookLaser (g : Nat) : Hook := fun v s =>
  if !tst v 4 then (s, 0)
  else
    let a := s.rd (F.fportLaserActive g)
    if (if a = 0 then s.on (F.fportLaserBok g) else s.on (F.fportLaserAok g)) then (s.wr (F.fportLaserActive g) (1 - a), 0)
    else (s, fState)

/-- LASER_FAULT (R313, R314), with the module's health as it answers on its management interface. -/
def State.laserFault (s : State) (g : Nat) (present aok bok : Bool) : State :=
  let b (x : Bool) : Nat := if x then 1 else 0
  let s := ((s.wr (F.fportLaserPresent g) (b present)).wr (F.fportLaserAok g) (b aok)).wr (F.fportLaserBok g) (b bok)
  let s := s.raise (blkPort (8 * g)) 9 none
  let a := s.rd (F.fportLaserActive g)
  (s.wr (F.fportLaserActive g) (1 - a)).inc (F.fportLaserFailovers g)

/-- A write of LCTL that changes some fields. -/
def State.lctlWrite (s : State) (p : Nat) (fs : List (Fld × Nat)) (c : Cmd) : State :=
  s.ctlWrite (F.fportLctlWmask p).csa (s.compose (F.fportLctlWmask p).csa fs) c (hookLctl p (s.on (F.fportLctlDisable p)))

/-! ## Commands -/

/-- LANE_LOSS (R336). -/
def execLaneLoss (port : Fin 64) (lanes : BitVec 4) (skew : Bool) (s : State) : Host.Outcome State Fault Refusal :=
  live s fun s => s.laneLoss port.val lanes.toNat skew

/-- LANE_REJOIN (R317). -/
def execLaneRejoin (port : Fin 64) (lane : Fin 4) (s : State) : Host.Outcome State Fault Refusal :=
  live s fun s => s.laneRejoin port.val lane.val

/-- ALL_LANES_LOST (R337). -/
def execAllLanesLost (port : Fin 64) (s : State) : Host.Outcome State Fault Refusal :=
  live s fun s => match (s.link port.val).lostAt with
    | some t => if s.lstate port.val = 3 && t + 500 ≤ s.beat then s.linkDown port.val 1 else s
    | none => s

/-- ROLL_TIMEOUT (R328). -/
def execRollTimeout (port : Fin 64) (s : State) : Host.Outcome State Fault Refusal := live s fun s => s.rollTimeout port.val

/-- NO_GOOD_FLIT (R339); the cause reads LANES (DESIGN CHOICE, log entry 56). -/
def execNoGoodFlit (port : Fin 64) (s : State) : Host.Outcome State Fault Refusal :=
  live s fun s =>
    if s.lstate port.val = 3 && (s.link port.val).lastGood + 500 ≤ s.beat then s.linkDown port.val 1 else s

/-- LASER_FAULT (R313). -/
def execLaserFault (g : Fin 8) (present aok bok : Bool) (s : State) : Host.Outcome State Fault Refusal :=
  live s fun s => s.laserFault g.val present aok bok

/-- LASER_SWAP (R313). -/
def execLaserSwap (g : Fin 8) (c : Cmd) (s : State) : Host.Outcome State Fault Refusal :=
  live s fun s => s.ctlWrite (F.fportLaserSwap g.val).csa (s.compose (F.fportLaserSwap g.val).csa [(F.fportLaserSwap g.val, 1)]) c
    (hookLaser g.val)

/-- WIDTH_CHANGE_START (R334). -/
def execWidthChangeStart (port : Fin 64) (mask : BitVec 4) (c : Cmd) (s : State) : Host.Outcome State Fault Refusal :=
  live s fun s => s.lctlWrite port.val [(F.fportLctlWmask port.val, mask.toNat)] c

/-- AUTO_WIDEN (R338). -/
def execAutoWiden (port : Fin 64) (s : State) : Host.Outcome State Fault Refusal := live s fun s => s.autoWiden port.val

/-- WREQ_TIMEOUT (R335). -/
def execWreqTimeout (port : Fin 64) (s : State) : Host.Outcome State Fault Refusal := live s fun s => s.wreqTimeout port.val

/-- WREQ (R334). -/
def execWreq (port : Fin 64) (token : BitVec 8) (mask : BitVec 4) (locked : Bool) (s : State) :
    Host.Outcome State Fault Refusal :=
  live s fun s => s.wreqIn port.val token.toNat mask.toNat locked

/-- WACK (R334). -/
def execWack (port : Fin 64) (token : BitVec 8) (locked : Bool) (s : State) : Host.Outcome State Fault Refusal :=
  live s fun s => s.wackIn port.val token.toNat locked

/-- WGO (R334). -/
def execWgo (port : Fin 64) (token : BitVec 8) (mask : BitVec 4) (s : State) : Host.Outcome State Fault Refusal :=
  live s fun s => s.wgoIn port.val token.toNat mask.toNat

/-- RTREQ (R341). -/
def execRtreq (port : Fin 64) (token : BitVec 8) (cause : BitVec 4) (s : State) : Host.Outcome State Fault Refusal :=
  live s fun s => s.rtreqIn port.val token.toNat cause.toNat

/-- RTACK (R341). -/
def execRtack (port : Fin 64) (token : BitVec 8) (s : State) : Host.Outcome State Fault Refusal :=
  live s fun s => s.rtackIn port.val token.toNat

/-- WITHDRAW (R333). -/
def execWithdraw (port : Fin 64) (token : BitVec 8) (s : State) : Host.Outcome State Fault Refusal :=
  live s fun s => s.withdrawIn port.val token.toNat

/-- LDOWN (R336). -/
def execLdown (port : Fin 64) (lost : BitVec 4) (s : State) : Host.Outcome State Fault Refusal :=
  live s fun s => s.laneDown port.val lost.toNat

/-- RESUME (R341, R342). -/
def execResume (port : Fin 64) (ackseq : BitVec 14) (s : State) : Host.Outcome State Fault Refusal :=
  live s fun s => s.resumeIn port.val ackseq.toNat

/-- CREDIT_INIT (R324): six 16-bit counts, VC 0 first. -/
def execCreditInit (port : Fin 64) (credits : BitVec 96) (s : State) : Host.Outcome State Fault Refusal :=
  live s fun s => (s.linkHeard port.val 9 credits.toNat).creditInit port.val
    ((List.range 6).map fun i => bits credits.toNat (16 * i + 15) (16 * i))

/-- DISABLE from the peer (R339). -/
def execDisable (port : Fin 64) (s : State) : Host.Outcome State Fault Refusal :=
  live s fun s => if s.lstate port.val = 0 then s else (s.linkHeard port.val 0x0A 0).flushDown port.val 5 5

/-- LINK_RETRAIN (R341). -/
def execLinkRetrain (port : Fin 64) (c : Cmd) (s : State) : Host.Outcome State Fault Refusal :=
  live s fun s => s.lctlWrite port.val [(F.fportLctlRetrain port.val, 1)] c

/-- CSYM_RETRAIN (R341): corrected symbols of a lane in the last 1 ms. -/
def execCsymRetrain (port : Fin 64) (lane : Fin 4) (count : BitVec 32) (s : State) : Host.Outcome State Fault Refusal :=
  live s fun s =>
    if s.lstate port.val = 3 && tst (s.rd (F.fportLstatRxmask port.val)) lane.val &&
        s.rd (F.fportLctlCsymMax port.val) < count.toNat then s.linkWant port.val true 0 else s

/-- LINK_DISABLE (R344). -/
def execLinkDisable (port : Fin 64) (c : Cmd) (s : State) : Host.Outcome State Fault Refusal :=
  live s fun s => s.lctlWrite port.val [(F.fportLctlDisable port.val, 1)] c

/-- LINK_ENABLE (R339). -/
def execLinkEnable (port : Fin 64) (c : Cmd) (s : State) : Host.Outcome State Fault Refusal :=
  live s fun s => s.lctlWrite port.val [(F.fportLctlDisable port.val, 0)] c

/-- TRAINING_START (R339). -/
def execTrainingStart (port : Fin 64) (s : State) : Host.Outcome State Fault Refusal := live s fun s => s.trainStart port.val

/-- TRAINING_COMPLETE (R340). -/
def execTrainingComplete (port : Fin 64) (id : BitVec 64) (resumable : Bool) (lanes : BitVec 4) (rtt : BitVec 32)
    (full half : Bool) (s : State) : Host.Outcome State Fault Refusal :=
  live s fun s => s.trainDone port.val id.toNat resumable lanes.toNat rtt.toNat full half

/-- TRAINING_TIMEOUT (R339): training fails with cause 6 (or 9, a lane's skew), or has run for 20 ms. -/
def execTrainingTimeout (port : Fin 64) (failed skew : Bool) (s : State) : Host.Outcome State Fault Refusal :=
  live s fun s => match (s.link port.val).training with
    | none => s
    | some t =>
      if !failed && s.beat < t + 625000 then s
      else if s.lstate port.val = 2 then s.trainFail port.val (if failed && skew then 9 else 6)
      else if s.lstate port.val = 5 then s.setLink port.val fun l => { l with training := none, ident := false, resumed := none }
      else s

/-- RETRAIN_TIMEOUT (R339): 80 µs. -/
def execRetrainTimeout (port : Fin 64) (s : State) : Host.Outcome State Fault Refusal :=
  live s fun s =>
    if s.lstate port.val = 4 && (s.link port.val).retrainAt + 2500 ≤ s.beat then s.linkDown port.val 2 else s

/-- GRACE_EXPIRY (R343). -/
def execGraceExpiry (port : Fin 64) (s : State) : Host.Outcome State Fault Refusal :=
  live s fun s =>
    if s.lstate port.val = 5 && (s.link port.val).expiry ≤ s.beat then s.flushDown port.val 10 9 else s

end Sys2Proof.Machine
end

