-- ==== Sys2Proof/Machine/Leases.lean ====
section
/-! DEFINITION. Leases that end, freezes, and the page-fault records of the fault homes with their queue (R60 to R65, R92, R95,
R96, R364, R513). -/

namespace Sys2Proof.Machine

/-! ## Leases (R92, R95, R96, R364) -/

/-- A host's lease expires, an event of class 4 of a block: what the homes, the publish homes and DISP do. -/
def State.leaseGone (s : State) (blk h : Nat) : State :=
  if !s.leased h then s else (((s.raise blk 4 none).homesExpire h).leaseInsts h).resumeInvokes

/-- LEASE_EXPIRY: the lease has not been renewed for its 62,500 beats. -/
def State.leaseTimer (s : State) (h : Nat) : State :=
  if s.beat < (s.leaseOf h).renew + leaseBeats then s else s.leaseGone (blkPort (s.rport h)) h

/-- SNOOP_TIMEOUT of a transaction: holders that have not answered for SNP_TMO beats lose their leases (R92). -/
def State.snoopTimer (s : State) (hm i : Nat) : State :=
  match s.homes.txns.find? fun t => t.home == hm && t.idx == i with
  | none => s
  | some t =>
    let late := t.snoops.filter fun n => n.sent + s.rd F.homeCohCtlSnpTmo ≤ s.beat
    each (dedup (late.map (·.host))) (fun h s => s.leaseGone (blkHome hm) h) s

/-- LEASE_CLOSE (R364): operators, stagings, pins and subscriptions end; the slot is back-invalidated, then freed. -/
def State.leaseClose (s : State) (p : Pkt) : State :=
  let h := p.host.toNat
  if !s.leased h then
    s.sendHost h { pkt0 with
      opc := 0x29, len := 3, tag := p.tag, seq := p.seq, ccx := p.ccx, status := BitVec.ofNat 8 stNoLease }
  else
    let s := (s.leaseInsts h).dropPublisher h
    match (s.leaseOf h).slot with
    | none => s.leaseEnd h p.tag.toNat p.seq.toNat p.ccx.toNat
    | some x =>
      let j := jobClose h + (p.tag.toNat + p.ccx.toNat * 2 ^ 15 + p.seq.toNat * 2 ^ 19) * 0x2000000000000
      if s.homes.jobs.any fun k => k % 0x2000000000000 == jobClose h then s
      else s.binvJob j false (some x) fun e => keySlot e.1 == x

/-! ## Freezes (R61) -/

/-- What FRZ_CMD.GO does. -/
def hookFrz : Hook := fun v s =>
  if !tst v 14 then (s, 0)
  else
    let h := bits v 11 0
    let st := (s.frz h).state
    match bits v 13 12 with
    | 1 => if st = 0 then (s, fState) else (s.frzRelease h, 0)
    | 2 => if st ≠ 1 then (s, fState) else ((s.frzFlush h).leaseGone (blkXbar 0) h, 0)
    | 3 =>
      if st ≠ 0 then (s, fState)
      else
        let s := match (s.attach h none).head? with
          | some a => s.ten a.tenant 14 1
          | none => s
        (s.setFrz h { s.frz h with state := 1, cause := 7 }, 0)
    | _ => (s, 0)

/-- A write of FRZ_CMD with GO. -/
def State.frzCmd (s : State) (h action : Nat) (c : Cmd) : State :=
  s.ctlWrite F.xbarFrzCmdGo.csa
    (s.compose F.xbarFrzCmdGo.csa [(F.xbarFrzCmdHost, h), (F.xbarFrzCmdAction, action), (F.xbarFrzCmdGo, 1)]) c hookFrz

/-! ## Fault records (R63 to R65, R513) -/

/-- FAULT_RECORD_OPEN: the forwarded fault that its home takes next, lowest forwarding home first. -/
def State.faultNext (s : State) (hm : Nat) : State :=
  match minBy? (fun (f : PageFault) => f.src) (s.homes.faults.filter fun f => f.home == hm) with
  | none => s
  | some f => (({ s with homes := { s.homes with faults := s.homes.faults.erase f } }).faultArrive f).wantPage f

/-- FAULT_PENDING_RETRY: the fault that waits for a record or a waiter slot of the home and ranks first, a host's or tile's request
with priority before the others and then the oldest, is forwarded again (R64, R90). -/
def State.faultRetry (s : State) (hm : Nat) : State :=
  let key (f : PageFault) : Nat := match f.waiter with
    | .req r => s.rank f.src r
    | _ => 2 ^ 77
  match minBy? key (s.homes.faultWait.filter fun f => f.home == hm) with
  | none => s
  | some f =>
    let s1 := ({ s with homes := { s.homes with faultWait := s.homes.faultWait.erase f } }).faultArrive f
    if s1.homes.faultWait.length < s.homes.faultWait.length then s1.wantPage f else s

/-- Beats that FLT_TMO allows an open record. -/
def State.faultLimit (s : State) : Nat := s.rd F.homeFltTmoTmo * 3125

/-- FAULT_TIMEOUT of a record. -/
def State.faultTimer (s : State) (hm i : Nat) : State :=
  match s.recOf hm i with
  | none => s
  | some x => if s.beat ≤ x.first + s.faultLimit then s else (s.closeRec x 3 stTimeout).resumeInvokes

/-- What FLT_DONE.GO does (R65): an open NOT_PRESENT record closes as filled. -/
def hookFltDone : Hook := fun v s =>
  if !tst v 16 then (s, 0)
  else match s.recOf (bits v 5 0) (bits v 15 8) with
    | some x => if x.cause = 0 then
        let s := match s.rgn? x.region with | some g => s.recount g | none => s
        ((s.closeRec x 2 0).resumeInvokes, 0) else (s, fState)
    | none => (s, fState)

/-- The 32 bytes of Table ADR-11. -/
def recordWord (x : FaultRec) : Nat :=
  x.space + x.page * 2 ^ 16 + x.size * 2 ^ 48 + x.cause * 2 ^ 50 + x.first * 2 ^ 64 + x.region * 2 ^ 128 +
    x.state * 2 ^ 144 + x.waiters.length * 2 ^ 152

/-- FAULT_QUEUE_ENTRY: the oldest NOT_PRESENT record without an entry gets one, where the queue is set and has a slot. -/
def State.queueFault (s : State) : State :=
  let base := s.rd F.homeFltQBase
  let n := s.rd F.homeFltQLen * 1024
  let h := s.rd F.homeFltQptrHead % max 1 n
  if base = 0 || n = 0 || (h + 1) % n = s.rd F.homeFltQptrTail % n then s
  else match minBy? (fun (x : FaultRec) => x.first * 64 + x.home)
      (s.homes.recs.filter fun x => x.state == 1 && x.cause == 0 && !x.queued) with
    | none => s
    | some x =>
      let bs := natLe 64 (recordWord x + x.home * 2 ^ 256 + x.idx * 2 ^ 264)
      let s := s.writeBytes (base * 0x10000 + 64 * h) bs x.home
      let s := s.wr F.homeFltQptrHead ((h + 1) % n)
      let mark (y : FaultRec) : FaultRec := if y = x then { y with queued := true } else y
      ({ s with homes := { s.homes with recs := s.homes.recs.map mark } }).raise (blkHome x.home) 9 (some 16)

/-! ## Commands -/

/-- LEASE_EXPIRY (R95, R96). -/
def execLeaseExpiry (host : BitVec 12) (s : State) : Host.Outcome State Fault Refusal := live s fun s => s.leaseTimer host.toNat

/-- SNOOP_TIMEOUT (R92). -/
def execSnoopTimeout (home : Fin 64) (entry : BitVec 10) (s : State) : Host.Outcome State Fault Refusal :=
  live s fun s => s.snoopTimer home.val entry.toNat

/-- LEASE_CLOSE (R364). -/
def execLeaseClose (p : Pkt) (s : State) : Host.Outcome State Fault Refusal := live s fun s => s.leaseClose p

/-- FRZ_RELEASE (R61). -/
def execFrzRelease (host : BitVec 12) (c : Cmd) (s : State) : Host.Outcome State Fault Refusal :=
  live s fun s => s.frzCmd host.toNat 1 c

/-- FRZ_EVICT (R61). -/
def execFrzEvict (host : BitVec 12) (c : Cmd) (s : State) : Host.Outcome State Fault Refusal :=
  live s fun s => s.frzCmd host.toNat 2 c

/-- FRZ_FREEZE (R61). -/
def execFrzFreeze (host : BitVec 12) (c : Cmd) (s : State) : Host.Outcome State Fault Refusal :=
  live s fun s => s.frzCmd host.toNat 3 c

/-- FAULT_RECORD_OPEN (R63). -/
def execFaultRecordOpen (home : Fin 64) (s : State) : Host.Outcome State Fault Refusal := live s fun s => s.faultNext home.val

/-- FAULT_PENDING_RETRY (R64). -/
def execFaultPendingRetry (home : Fin 64) (s : State) : Host.Outcome State Fault Refusal := live s fun s => s.faultRetry home.val

/-- FAULT_TIMEOUT (R65). -/
def execFaultTimeout (home : Fin 64) (index : BitVec 8) (s : State) : Host.Outcome State Fault Refusal :=
  live s fun s => s.faultTimer home.val index.toNat

/-- FLT_DONE (R65). -/
def execFltDone (home : BitVec 6) (index : BitVec 8) (c : Cmd) (s : State) : Host.Outcome State Fault Refusal :=
  live s fun s => s.ctlWrite F.homeFltDoneGo.csa
    (s.compose F.homeFltDoneGo.csa [(F.homeFltDoneHome, home.toNat), (F.homeFltDoneIndex, index.toNat), (F.homeFltDoneGo, 1)])
    c hookFltDone

/-- FAULT_QUEUE_ENTRY (R513). -/
def execFaultQueueEntry (s : State) : Host.Outcome State Fault Refusal := live s fun s => s.queueFault

end Sys2Proof.Machine
end

