-- ==== Sys2Proof/Machine/Operands.lean ====
section
/-! DEFINITION. Operand forms of the core operations: register fields, scratchpad addresses and their bank ports,
elements of vector registers with their block scales, rounding fields, and results by lane (R181 to R185, R224, R248,
R249, R253, R257, R259). -/

namespace Sys2Proof.Machine

/-- Scratchpad address of format A: (ra + OFF × unit) mod 2^20, bits below the unit ignored. -/
def addrA (ra : Word) (off : BitVec 12) (unit : Nat) : Nat :=
  (((ra.toNat : Int) + off.toInt * unit) % 2 ^ 20).toNat / unit * unit

/-- Element `e` of a vector register, elements of `w` bits. -/
def elemOf (v : BitVec 256) (w e : Nat) : Nat := bits v.toNat (w * e + w - 1) (w * e)

/-- Lane `j` of a vector register, and its poison bit. -/
def VReg.lane (v : VReg) (j : Nat) : Nat := elemOf v.val 32 j
def VReg.bad (v : VReg) (j : Nat) : Bool := v.poison.getLsbD j

/-- Is the lane that holds element `e` of `w` bits poisoned? -/
def VReg.badElem (v : VReg) (w e : Nat) : Bool := v.bad (w * e / 32)

/-- Any lane poisoned. -/
def VReg.anyBad (v : VReg) : Bool := v.poison ≠ 0

/-- Value of element `e` of a format in a register: plain, or with the scale of its block from a scalar register. -/
def elemVal (v : VReg) (f e : Nat) (scales : Option Word) : FV :=
  let w := elemOf v.val (boxBits f) e
  match scales with
  | none => decodeF f w
  | some sc => mxValue f w (bits sc.toNat (8 * (e / 32) + 7) (8 * (e / 32)))

/-- Formats that can be MX elements (R247). -/
def isMx (f : Nat) : Bool := (3 ≤ f && f ≤ 7) || f == 0xA

/-- Rounding field of an operation into a format of `w` bits (R253): the mode of element `k`, and IV where the field is
reserved or SR is not valid. -/
def roundOf (rm : Nat) (w : Nat) (seed b : Word) (k : Nat) : RMode × Nat :=
  match rm with
  | 0 => (.rne, 0) | 1 => (.rz, 0) | 2 => (.rd, 0) | 3 => (.ru, 0)
  | 4 => if w ≤ 16 then (.sr (srRandom seed.toNat ((b.toNat + k) % 2 ^ 64)), 0) else (.rne, fIV)
  | _ => (.rne, fIV)

/-- Rounding field of an operation that cannot round stochastically. -/
def roundV (rm : Nat) : RMode × Nat := roundOf rm 32 0 0 0

/-- Strip-local number of a site (R242). -/
def siteNum (site : Nat) : Nat := (findAll (site % 84) fun i => !isSparePos (site / 84 * 84 + i)).length

/-- Write a vector register by lanes at a cycle: value, flags and poison of each lane; a poisoned lane sets no flag and
its value bits are free (R257). -/
def State.putLanes (s : State) (k at_ slot vd : Nat) (g : Nat → Nat × Nat × Bool) : State :=
  let rs := (List.range 8).map g
  let n := s.free
  let v := (List.range 8).foldl (fun a j =>
    let r := rs.getD j (0, 0, false)
    a + (if r.2.2 then (Config.poisonedLane (n + j)).toNat else r.1 % 2 ^ 32) * 2 ^ (32 * j)) 0
  let p := (List.range 8).foldl (fun a j => if (rs.getD j (0, 0, false)).2.2 then a + 2 ^ j else a) 0
  let f := rs.foldl (fun a r => if r.2.2 then a else a ||| r.2.1) 0
  let s := if p = 0 then s else { s with free := n + 8 }
  (s.later k at_ slot (.vreg vd (BitVec.ofNat 256 v) (BitVec.allOnes 256) (BitVec.ofNat 8 p) 0xFF)).flag k f

end Sys2Proof.Machine
end

