-- ==== Sys2Proof/Machine/Cores.lean ====
section
/-! DEFINITION. The operations of a core: how a bundle's operation issues, and the S, M, V and X slots (R177 to R186,
R222 to R224, R247 to R266, R405). -/

namespace Sys2Proof.Machine

/-- Waits of a core for the cycle of an issue: two mesh bars. -/
def portFuel : Nat := 2048

/-- Bundle index at cycle `t`: one bundle a cycle, a taken branch's target from its cycle on (R180). -/
def CoreSt.pcAt (c : CoreSt) (t : Nat) : Nat :=
  match c.branch with
  | some (b, g) => if b ≤ t then (g + (t - b)) % 256 else (c.pc + (t - c.cyc)) % 256
  | none => (c.pc + (t - c.cyc)) % 256

/-- Let the clock run to the first cycle from `t` on in which a core can issue from a slot: not before the cycle of its last bundle,
nor twice from one slot of a bundle, nor while a lost bank port stalls it (R177, R185). -/
def State.coreCycle (s : State) (k slot t : Nat) : Nat → Nat × State
  | 0 => (t, s.tick t)
  | n + 1 =>
    let s := s.tick t
    let c := s.core k
    let u := max t (max c.cyc c.stallTo)
    let u := if u = c.cyc && tst c.slots slot then u + 1 else u
    if u = t then (t, s) else s.coreCycle k slot u n

/-- Issue operation `i` from a slot of the present bundle: not on a tile whose cores are off or whose clock is halted; a dynamic-phase
operation not in a pattern phase.  In a dynamic phase a core stalls on a counter or on a vector register it names, and holds this and
every later operation in order until the wait ends (R177, R178, R180, R208).  `f` gets the cycle. -/
def State.issue (s : State) (i : Instr) (a : CoreAt) (slot : Nat) (dyn : Bool) (regs : List Nat) (f : Nat → State → State) : State :=
  let tile := a.tile.val
  let k := 128 * tile + a.core.val
  let on := s.tileState tile ≤ 1 && s.pwr.halt.isNone && !s.on (F.hdrStateInreset tile)
  let pat := s.inPattern tile a.core.val
  if !on || (dyn && pat) then s
  else
    let (t, s) := s.coreCycle k slot (max a.cyc.toNat s.tiles.clock) portFuel
    let c := s.core k
    let unmet := match c.waiting with
      | some (cc, v) => (SMap.get 0#32 s.tiles.counts (16 * tile + cc) - v).toInt < 0
      | none => false
    let pending := s.tiles.dlds.any fun d => d.tile == tile && d.core == a.core.val && regs.contains d.reg
    if !pat && (!c.held.isEmpty || unmet || pending) then s.setCore k fun c => { c with held := c.held ++ [i] }
    else
      let br := match c.branch with
        | some (b, _) => if b ≤ t then none else c.branch
        | none => none
      let used := if slot < 4 then 2 ^ slot else 0
      f t (s.setCore k fun c => { c with
        pc := c.pcAt t, cyc := t, slots := if c.cyc = t then c.slots ||| used else used, branch := br, waiting := none })

/-- Key of the issuing core. -/
def coreKey (a : CoreAt) : Nat := 128 * a.tile.val + a.core.val

/-! ## S slot (Table TIL-8) -/

/-- An S-slot operation with a scalar result, readable at t + 1. -/
def State.scalar (s : State) (i : Instr) (a : CoreAt) (rd : BitVec 5) (f : CoreSt → Word × Bool) : State :=
  s.issue i a 0 false [] fun t s =>
    let (v, p) := f (s.core (coreKey a))
    s.later (coreKey a) (t + 1) 0 (.sreg rd.toNat v p)

/-- Two register operands (format R). -/
def State.opR (s : State) (i : Instr) (a : CoreAt) (rd ra rb : BitVec 5) (f : Word → Word → Word) : State :=
  s.scalar i a rd fun c =>
    let x := c.sreg ra.toNat
    let y := c.sreg rb.toNat
    (f x.val y.val, x.poison || y.poison)

/-- A register and a sign-extended immediate (format I). -/
def State.opI (s : State) (i : Instr) (a : CoreAt) (rd ra : BitVec 5) (imm : BitVec 8) (f : Word → Word → Word) : State :=
  s.scalar i a rd fun c =>
    let x := c.sreg ra.toNat
    (f x.val (imm.signExtend 64), x.poison)

/-- Shift amount: the low six bits. -/
def sh6 (w : Word) : Nat := w.toNat % 64

/-- A conditional branch of a dynamic phase (format B): a poisoned condition ends the instance. -/
def State.opB (s : State) (i : Instr) (a : CoreAt) (ra rb : BitVec 5) (target : BitVec 8) (f : Word → Word → Bool) : State :=
  s.issue i a 0 true [] fun t s =>
    let x := (s.core (coreKey a)).sreg ra.toNat
    let y := (s.core (coreKey a)).sreg rb.toNat
    if x.poison || y.poison then s.poisonEnd (coreKey a)
    else if f x.val y.val then s.setCore (coreKey a) fun c => { c with branch := some (t + 2, target.toNat) } else s

/-- Special value of Table TIL-9; none for a reserved SEL. -/
def State.special (s : State) (a : CoreAt) (sel : Nat) : Option Nat :=
  let i := s.instAt a.tile.val a.core.val
  let site := s.rd (F.tileStateSite a.tile.val)
  let sites := ((i.bind (·.place)).bind s.place?).map fun p => p.sites.length
  match sel with
  | 0 => some a.core.val
  | 1 => some site
  | 2 => some ((i.map (·.round)).getD 0)
  | 3 => some (s.core (coreKey a)).flags
  | 4 => some ((i.map (·.descAt)).getD 0)
  | 5 => some (sites.getD 0)
  | 6 => some (siteNum site)
  | _ => none

/-- NOP: nothing but the issue of the bundle. -/
def execNop (a : CoreAt) (s : State) : Host.Outcome State Fault Refusal := live s fun s => s.issue (.nop a) a 4 false [] fun _ s => s

/-- ADD. -/
def execAdd (a : CoreAt) (rd ra rb : BitVec 5) (s : State) : Host.Outcome State Fault Refusal :=
  live s fun s => s.opR (.add a rd ra rb) a rd ra rb (· + ·)

/-- SUB. -/
def execSub (a : CoreAt) (rd ra rb : BitVec 5) (s : State) : Host.Outcome State Fault Refusal :=
  live s fun s => s.opR (.sub a rd ra rb) a rd ra rb (· - ·)

/-- AND. -/
def execAnd (a : CoreAt) (rd ra rb : BitVec 5) (s : State) : Host.Outcome State Fault Refusal :=
  live s fun s => s.opR (.and a rd ra rb) a rd ra rb (· &&& ·)

/-- OR. -/
def execOr (a : CoreAt) (rd ra rb : BitVec 5) (s : State) : Host.Outcome State Fault Refusal :=
  live s fun s => s.opR (.or a rd ra rb) a rd ra rb (· ||| ·)

/-- XOR. -/
def execXor (a : CoreAt) (rd ra rb : BitVec 5) (s : State) : Host.Outcome State Fault Refusal :=
  live s fun s => s.opR (.xor a rd ra rb) a rd ra rb (· ^^^ ·)

/-- SHL. -/
def execShl (a : CoreAt) (rd ra rb : BitVec 5) (s : State) : Host.Outcome State Fault Refusal :=
  live s fun s => s.opR (.shl a rd ra rb) a rd ra rb fun x y => x <<< sh6 y

/-- SHR. -/
def execShr (a : CoreAt) (rd ra rb : BitVec 5) (s : State) : Host.Outcome State Fault Refusal :=
  live s fun s => s.opR (.shr a rd ra rb) a rd ra rb fun x y => x >>> sh6 y

/-- SRA. -/
def execSra (a : CoreAt) (rd ra rb : BitVec 5) (s : State) : Host.Outcome State Fault Refusal :=
  live s fun s => s.opR (.sra a rd ra rb) a rd ra rb fun x y => x.sshiftRight (sh6 y)

/-- MUL. -/
def execMul (a : CoreAt) (rd ra rb : BitVec 5) (s : State) : Host.Outcome State Fault Refusal :=
  live s fun s => s.opR (.mul a rd ra rb) a rd ra rb (· * ·)

/-- SLT. -/
def execSlt (a : CoreAt) (rd ra rb : BitVec 5) (s : State) : Host.Outcome State Fault Refusal :=
  live s fun s => s.opR (.slt a rd ra rb) a rd ra rb fun x y => if x.slt y then 1 else 0

/-- SLTU. -/
def execSltu (a : CoreAt) (rd ra rb : BitVec 5) (s : State) : Host.Outcome State Fault Refusal :=
  live s fun s => s.opR (.sltu a rd ra rb) a rd ra rb fun x y => if x.ult y then 1 else 0

/-- MIN, signed. -/
def execMin (a : CoreAt) (rd ra rb : BitVec 5) (s : State) : Host.Outcome State Fault Refusal :=
  live s fun s => s.opR (.min a rd ra rb) a rd ra rb fun x y => if y.slt x then y else x

/-- MAX, signed. -/
def execMax (a : CoreAt) (rd ra rb : BitVec 5) (s : State) : Host.Outcome State Fault Refusal :=
  live s fun s => s.opR (.max a rd ra rb) a rd ra rb fun x y => if x.slt y then y else x

/-- ADDI. -/
def execAddi (a : CoreAt) (rd ra : BitVec 5) (imm : BitVec 8) (s : State) : Host.Outcome State Fault Refusal :=
  live s fun s => s.opI (.addi a rd ra imm) a rd ra imm (· + ·)

/-- ANDI. -/
def execAndi (a : CoreAt) (rd ra : BitVec 5) (imm : BitVec 8) (s : State) : Host.Outcome State Fault Refusal :=
  live s fun s => s.opI (.andi a rd ra imm) a rd ra imm (· &&& ·)

/-- ORI. -/
def execOri (a : CoreAt) (rd ra : BitVec 5) (imm : BitVec 8) (s : State) : Host.Outcome State Fault Refusal :=
  live s fun s => s.opI (.ori a rd ra imm) a rd ra imm (· ||| ·)

/-- XORI. -/
def execXori (a : CoreAt) (rd ra : BitVec 5) (imm : BitVec 8) (s : State) : Host.Outcome State Fault Refusal :=
  live s fun s => s.opI (.xori a rd ra imm) a rd ra imm (· ^^^ ·)

/-- SHLI. -/
def execShli (a : CoreAt) (rd ra : BitVec 5) (imm : BitVec 8) (s : State) : Host.Outcome State Fault Refusal :=
  live s fun s => s.opI (.shli a rd ra imm) a rd ra imm fun x y => x <<< sh6 y

/-- SHRI. -/
def execShri (a : CoreAt) (rd ra : BitVec 5) (imm : BitVec 8) (s : State) : Host.Outcome State Fault Refusal :=
  live s fun s => s.opI (.shri a rd ra imm) a rd ra imm fun x y => x >>> sh6 y

/-- SRAI. -/
def execSrai (a : CoreAt) (rd ra : BitVec 5) (imm : BitVec 8) (s : State) : Host.Outcome State Fault Refusal :=
  live s fun s => s.opI (.srai a rd ra imm) a rd ra imm fun x y => x.sshiftRight (sh6 y)

/-- LI. -/
def execLi (a : CoreAt) (rd : BitVec 5) (imm : BitVec 13) (s : State) : Host.Outcome State Fault Refusal :=
  live s fun s => s.scalar (.li a rd imm) a rd fun _ => (imm.signExtend 64, false)

/-- LIH. -/
def execLih (a : CoreAt) (rd : BitVec 5) (imm : BitVec 13) (s : State) : Host.Outcome State Fault Refusal :=
  live s fun s => s.scalar (.lih a rd imm) a rd fun c =>
    let x := c.sreg rd.toNat
    ((x.val <<< 13) ||| imm.zeroExtend 64, x.poison)

/-- BEQ. -/
def execBeq (a : CoreAt) (ra rb : BitVec 5) (target : BitVec 8) (s : State) : Host.Outcome State Fault Refusal :=
  live s fun s => s.opB (.beq a ra rb target) a ra rb target fun x y => x == y

/-- BNE. -/
def execBne (a : CoreAt) (ra rb : BitVec 5) (target : BitVec 8) (s : State) : Host.Outcome State Fault Refusal :=
  live s fun s => s.opB (.bne a ra rb target) a ra rb target fun x y => x != y

/-- BLT, signed. -/
def execBlt (a : CoreAt) (ra rb : BitVec 5) (target : BitVec 8) (s : State) : Host.Outcome State Fault Refusal :=
  live s fun s => s.opB (.blt a ra rb target) a ra rb target fun x y => x.slt y

/-- BGE, signed. -/
def execBge (a : CoreAt) (ra rb : BitVec 5) (target : BitVec 8) (s : State) : Host.Outcome State Fault Refusal :=
  live s fun s => s.opB (.bge a ra rb target) a ra rb target fun x y => !(x.slt y)

/-- JMP. -/
def execJmp (a : CoreAt) (target : BitVec 8) (s : State) : Host.Outcome State Fault Refusal :=
  live s fun s => s.opB (.jmp a target) a 0 0 target fun _ _ => true

/-- END: the core has finished its part of the dynamic phase. -/
def execCoreEnd (a : CoreAt) (s : State) : Host.Outcome State Fault Refusal :=
  live s fun s => s.issue (.coreEnd a) a 0 true [] fun _ s => s.setCore (coreKey a) fun c => { c with ended := true }

/-- RDSP. -/
def execRdsp (a : CoreAt) (rd sel : BitVec 5) (s : State) : Host.Outcome State Fault Refusal :=
  live s fun s => s.issue (.rdsp a rd sel) a 0 false [] fun t s =>
    match s.special a sel.toNat with
    | some v => s.later (coreKey a) (t + 1) 0 (.sreg rd.toNat (BitVec.ofNat 64 v) false)
    | none => s

/-! ## M slot (Table TIL-10) -/

/-- An access at a scratchpad address held in a scalar register, at its bank port from `t + 1` on: a poisoned address ends the
instance.  `act` is what the bank cycle does. -/
def State.access (s : State) (i : Instr) (a : CoreAt) (ra : BitVec 5) (off : BitVec 12) (regs : List Nat) (n : Nat)
    (act : CoreSt → Bank) : State :=
  s.issue i a 1 false regs fun t s =>
    let c := s.core (coreKey a)
    let x := c.sreg ra.toNat
    if x.poison then s.poisonEnd (coreKey a)
    else s.later (coreKey a) (t + 1) 1 (.bank (addrA x.val off n) n (s.inPattern a.tile.val a.core.val) (act c))

/-- VLD: the bank is read at t + 1, the register written at t + 3. -/
def execVld (a : CoreAt) (vr : BitVec 6) (ra : BitVec 5) (off : BitVec 12) (s : State) : Host.Outcome State Fault Refusal :=
  live s fun s => s.access (.vld a vr ra off) a ra off [vr.toNat] 32 fun _ => .load vr.toNat

/-- VST: the bank is written at t + 1. -/
def execVst (a : CoreAt) (vr : BitVec 6) (ra : BitVec 5) (off : BitVec 12) (s : State) : Host.Outcome State Fault Refusal :=
  live s fun s => s.access (.vst a vr ra off) a ra off [vr.toNat] 32 fun c =>
    let v := c.vreg vr.toNat
    .store ((List.range 32).map fun i => (v.val.extractLsb' (8 * i) 8, v.bad (i / 4)))

/-- SLD: readable at t + 3. -/
def execSld (a : CoreAt) (rd ra : BitVec 5) (off : BitVec 12) (s : State) : Host.Outcome State Fault Refusal :=
  live s fun s => s.access (.sld a rd ra off) a ra off [] 8 fun _ => .sload rd.toNat

/-- SST: the bank is written at t + 1. -/
def execSst (a : CoreAt) (rs ra : BitVec 5) (off : BitVec 12) (s : State) : Host.Outcome State Fault Refusal :=
  live s fun s => s.access (.sst a rs ra off) a ra off [] 8 fun c =>
    let x := c.sreg rs.toNat
    .store ((List.range 8).map fun i => (x.val.extractLsb' (8 * i) 8, x.poison))

/-- SEND: the half-block is at the router's local input at t + 2. -/
def execSend (a : CoreAt) (ra : BitVec 5) (off : BitVec 12) (s : State) : Host.Outcome State Fault Refusal :=
  live s fun s => s.access (.send a ra off) a ra off [] 64 fun _ => .half

/-- SENDE: a slot entry; a poisoned field ends the instance. -/
def execSende (a : CoreAt) (ra : BitVec 5) (off : BitVec 12) (s : State) : Host.Outcome State Fault Refusal :=
  live s fun s => s.access (.sende a ra off) a ra off [] 64 fun _ => .entry

/-! ### Dynamic packets (R197 to R205) -/

/-- DREQ: the packet whose header, inline data and flits lie in scratchpad, read 32 bytes in a bank cycle; a poisoned header ends the
instance. -/
def execDreq (a : CoreAt) (ra : BitVec 5) (off : BitVec 12) (s : State) : Host.Outcome State Fault Refusal :=
  live s fun s => s.issue (.dreq a ra off) a 1 true [] fun t s =>
    let x := (s.core (coreKey a)).sreg ra.toNat
    if x.poison then s.poisonEnd (coreKey a)
    else s.later (coreKey a) (t + 1) 1 (.bank (addrA x.val off 32) 32 false (.packet []))

/-- DLD: an RDV to the home of the line, the register pending until its data arrive. -/
def execDld (a : CoreAt) (vr : BitVec 6) (ra : BitVec 5) (cc : BitVec 4) (s : State) : Host.Outcome State Fault Refusal :=
  live s fun s => s.issue (.dld a vr ra cc) a 1 true [vr.toNat] fun _ s =>
    let x := (s.core (coreKey a)).sreg ra.toNat
    let tile := a.tile.val
    if x.poison then s.poisonEnd (coreKey a)
    else
      let hm := homeOfPtr x.val.toNat
      let job := ((s.instAt tile a.core.val).map (·.job)).getD 0
      let h := (if hm < 32 then 62 else 63) + hm % 24 * 2 ^ 6 + cc.toNat * 2 ^ 45 + 0x21 * 2 ^ 65 + x.val.toNat * 2 ^ 80 +
        job * 2 ^ 144
      let w : DldWait := ⟨tile, SMap.get 0 s.tiles.seqs tile, a.core.val, vr.toNat⟩
      (s.setTiles fun t => { t with dlds := t.dlds ++ [w] }).request tile (mpktOf h 0 false [])

/-- WAITC: stall until counter CC minus ra[31:0] is not negative. -/
def execWaitc (a : CoreAt) (cc : BitVec 4) (ra : BitVec 5) (s : State) : Host.Outcome State Fault Refusal :=
  live s fun s => s.issue (.waitc a cc ra) a 1 true [] fun _ s =>
    let x := (s.core (coreKey a)).sreg ra.toNat
    if x.poison then s.poisonEnd (coreKey a)
    else s.setCore (coreKey a) fun c => { c with waiting := some (cc.toNat, x.val.extractLsb' 0 32) }

/-- RDC: counter CC into a scalar register, readable at t + 1. -/
def execRdc (a : CoreAt) (cc : BitVec 4) (ra : BitVec 5) (s : State) : Host.Outcome State Fault Refusal :=
  live s fun s => s.issue (.rdc a cc ra) a 1 false [] fun t s =>
    s.later (coreKey a) (t + 1) 1 (.sreg ra.toNat ((SMap.get 0#32 s.tiles.counts (16 * a.tile.val + cc.toNat)).zeroExtend 64) false)

/-- Counter CC = ra[31:0] (Table TIL-10). -/
def State.clrc (s : State) (a : CoreAt) (cc : BitVec 4) (ra : BitVec 5) : State :=
  s.issue (.clrc a cc ra) a 1 true [] fun _ s =>
    let x := (s.core (coreKey a)).sreg ra.toNat
    if x.poison then s.poisonEnd (coreKey a)
    else s.setTiles fun t => { t with
      counts := SMap.set 0#32 t.counts (16 * a.tile.val + cc.toNat) (x.val.extractLsb' 0 32) }

/-! ## V slot (Table TIL-11) -/

/-- A lane-wise V operation on registers va, vb and vd, results at t + 4. -/
def State.vec (s : State) (i : Instr) (a : CoreAt) (vd va vb : BitVec 6) (useD : Bool)
    (f : Nat → Nat → Nat → Nat → Nat × Nat) : State :=
  s.issue i a 2 false [vd.toNat, va.toNat, vb.toNat] fun t s =>
    let c := s.core (coreKey a)
    let x := c.vreg va.toNat
    let y := c.vreg vb.toNat
    let z := c.vreg vd.toNat
    s.putLanes (coreKey a) (t + 4) 2 vd.toNat fun j =>
      let (r, g) := f j (x.lane j) (y.lane j) (z.lane j)
      (r, g, x.bad j || y.bad j || (useD && z.bad j))

/-- VFMA. -/
def execVfma (a : CoreAt) (vd va vb : BitVec 6) (rm : BitVec 3) (s : State) : Host.Outcome State Fault Refusal :=
  live s fun s => s.vec (.vfma a vd va vb rm) a vd va vb true fun _ x y z =>
    let (m, g) := roundV rm.toNat
    let (r, f) := fmaF32 m x y z
    (r, f ||| g)

/-- VFMA.H: 16-bit operands 2j + H (FA and FB 0x1 or 0x2; others are reserved and issue nothing). -/
def execVfmaH (a : CoreAt) (vd va vb : BitVec 6) (fa fb : BitVec 4) (h : Bool) (rm : BitVec 3) (s : State) :
    Host.Outcome State Fault Refusal :=
  live s fun s =>
    if !((fa = 1 || fa = 2) && (fb = 1 || fb = 2)) then s
    else s.vec (.vfmaH a vd va vb fa fb h rm) a vd va vb true fun _ x y z =>
      let (m, g) := roundV rm.toNat
      let e (w : Nat) : Nat := if h then bits w 31 16 else bits w 15 0
      let (r, f) := fmaFV m (decodeF fa.toNat (e x)) (decodeF fb.toNat (e y)) (decodeF 0 z)
      (r, f ||| g)

/-- Operand formats of a dot product: VDOT.8 takes the 8-bit and 6-bit formats, VDOT.4 the 4-bit ones; under MX both
must be MX formats; an integer operand accumulates only into the exact accumulator (R182, R251). -/
def dotOk (four : Bool) (fa fb rsp : Nat) (toa : Bool) : Bool :=
  let ok (f : Nat) : Bool := if four then f == 7 || f == 9 else (3 ≤ f && f ≤ 6) || f == 8 || f == 0xA
  ok fa && ok fb && (rsp == 0 || (isMx fa && isMx fb)) && (toa || !(fa == 8 || fa == 9 || fb == 8 || fb == 9))

/-- VDOT of R251, R252 and R261. -/
def State.dot (s : State) (i : Instr) (four : Bool) (a : CoreAt) (vd va vb : BitVec 6) (fa fb : BitVec 4) (h : Bool) (rm : BitVec 3)
    (acc : BitVec 2) (toa : Bool) (rsp : BitVec 4) : State :=
  if !dotOk four fa.toNat fb.toNat rsp.toNat toa then s
  else s.issue i a 2 false (if toa then [va.toNat, vb.toNat] else [vd.toNat, va.toNat, vb.toNat]) fun t s =>
    let c := s.core (coreKey a)
    let x := c.vreg va.toNat
    let y := c.vreg vb.toNat
    let sa := c.sreg (2 * rsp.toNat)
    let sb := c.sreg (2 * rsp.toNat + 1)
    let mx := rsp ≠ 0
    let sbad := mx && (sa.poison || sb.poison)
    let n := if four then 4 else 2
    let idx (j i : Nat) : Nat := 2 * n * j + (if h then n else 0) + i
    let prods (j : Nat) : List (FV × Nat) := (List.range n).map fun i =>
      mulFV (elemVal x fa.toNat (idx j i) (if mx then some sa.val else none))
        (elemVal y fb.toNat (idx j i) (if mx then some sb.val else none))
    if toa then
      let s := (s.tel a.tile.val 0x09 0 (8 * n)).flag (coreKey a) (if sbad || x.anyBad || y.anyBad then 0 else (roundV rm.toNat).2)
      each (List.range 8) (fun j s =>
        s.later (coreKey a) (t + 6) 2 (.terms acc.toNat j (prods j) (sbad || x.bad j || y.bad j))) s
    else
      let z := c.vreg vd.toNat
      let (m, g) := roundV rm.toNat
      s.putLanes (coreKey a) (t + 4) 2 vd.toNat fun j =>
        let ps := prods j
        let (v, f) := sumFV m (decodeF 0 (z.lane j) :: ps.map (·.1))
        let (r, e) := encodeF 0 m false v
        (r, ps.foldl (fun w p => w ||| p.2) (f ||| e ||| g), sbad || x.bad j || y.bad j || z.bad j)

/-- VDOT.8. -/
def execVdot8 (a : CoreAt) (vd va vb : BitVec 6) (fa fb : BitVec 4) (h : Bool) (rm : BitVec 3) (acc : BitVec 2) (toa : Bool)
    (rsp : BitVec 4) (s : State) : Host.Outcome State Fault Refusal :=
  live s fun s => s.dot (.vdot8 a vd va vb fa fb h rm acc toa rsp) false a vd va vb fa fb h rm acc toa rsp

/-- VDOT.4. -/
def execVdot4 (a : CoreAt) (vd va vb : BitVec 6) (fa fb : BitVec 4) (h : Bool) (rm : BitVec 3) (acc : BitVec 2) (toa : Bool)
    (rsp : BitVec 4) (s : State) : Host.Outcome State Fault Refusal :=
  live s fun s => s.dot (.vdot4 a vd va vb fa fb h rm acc toa rsp) true a vd va vb fa fb h rm acc toa rsp

/-- VADD. -/
def execVadd (a : CoreAt) (vd va vb : BitVec 6) (rm : BitVec 3) (s : State) : Host.Outcome State Fault Refusal :=
  live s fun s => s.vec (.vadd a vd va vb rm) a vd va vb false fun _ x y _ =>
    let (m, g) := roundV rm.toNat
    let (r, f) := addF32 m x y
    (r, f ||| g)

/-- VSUB. -/
def execVsub (a : CoreAt) (vd va vb : BitVec 6) (rm : BitVec 3) (s : State) : Host.Outcome State Fault Refusal :=
  live s fun s => s.vec (.vsub a vd va vb rm) a vd va vb false fun _ x y _ =>
    let (m, g) := roundV rm.toNat
    let (r, f) := addF32 m x (negF32 y)
    (r, f ||| g)

/-- VMUL. -/
def execVmul (a : CoreAt) (vd va vb : BitVec 6) (rm : BitVec 3) (s : State) : Host.Outcome State Fault Refusal :=
  live s fun s => s.vec (.vmul a vd va vb rm) a vd va vb false fun _ x y _ =>
    let (m, g) := roundV rm.toNat
    let (r, f) := mulF32 m x y
    (r, f ||| g)

/-- VMAX. -/
def execVmax (a : CoreAt) (vd va vb : BitVec 6) (s : State) : Host.Outcome State Fault Refusal :=
  live s fun s => s.vec (.vmax a vd va vb) a vd va vb false fun _ x y _ => maxMinF32 true x y

/-- VMIN. -/
def execVmin (a : CoreAt) (vd va vb : BitVec 6) (s : State) : Host.Outcome State Fault Refusal :=
  live s fun s => s.vec (.vmin a vd va vb) a vd va vb false fun _ x y _ => maxMinF32 false x y

/-- VCMP: all ones or zero by the condition in FB, 0 equal, 1 less, 2 less or equal, 3 unordered (others reserved). -/
def execVcmp (a : CoreAt) (vd va vb : BitVec 6) (cond : BitVec 4) (s : State) : Host.Outcome State Fault Refusal :=
  live s fun s =>
    if 3 < cond.toNat then s
    else s.vec (.vcmp a vd va vb cond) a vd va vb false fun _ x y _ =>
      let (b, f) := cmpF32 cond.toNat x y
      (if b then 0xFFFFFFFF else 0, f)

/-- VRED: the fixed-order sum into lane 0, +0 in the others (R264). -/
def execVred (a : CoreAt) (vd va : BitVec 6) (s : State) : Host.Outcome State Fault Refusal :=
  live s fun s => s.issue (.vred a vd va) a 2 false [vd.toNat, va.toNat] fun t s =>
    let x := (s.core (coreKey a)).vreg va.toNat
    let add (p q : Nat × Nat) : Nat × Nat :=
      let (r, f) := addF32 .rne p.1 q.1
      (r, p.2 ||| q.2 ||| f)
    let l (j : Nat) : Nat × Nat := (x.lane j, 0)
    let (r, f) := add (add (add (l 0) (l 1)) (add (l 2) (l 3))) (add (add (l 4) (l 5)) (add (l 6) (l 7)))
    s.putLanes (coreKey a) (t + 4) 2 vd.toNat fun j => if j = 0 then (r, f, x.anyBad) else (0, 0, false)

/-- ACCZ: every lane cleared with Q from a scalar register; a poisoned Q poisons the lanes. -/
def execAccz (a : CoreAt) (acc : BitVec 2) (ra : BitVec 5) (s : State) : Host.Outcome State Fault Refusal :=
  live s fun s => s.issue (.accz a acc ra) a 2 false [] fun t s =>
    let x := (s.core (coreKey a)).sreg ra.toNat
    s.later (coreKey a) (t + 6) 2 (.accz acc.toNat (sext 10 x.val.toNat) x.poison)

/-- ACCI: an accumulator image into a lane (R261). -/
def execAcci (a : CoreAt) (acc : BitVec 2) (va : BitVec 6) (lane : BitVec 3) (s : State) : Host.Outcome State Fault Refusal :=
  live s fun s => s.issue (.acci a acc va lane) a 2 false [va.toNat] fun t s =>
    let x := (s.core (coreKey a)).vreg va.toNat
    s.later (coreKey a) (t + 6) 2 (.merge acc.toNat lane.toNat x.val x.anyBad)

/-- VMOV. -/
def execVmov (a : CoreAt) (vd va : BitVec 6) (s : State) : Host.Outcome State Fault Refusal :=
  live s fun s => s.issue (.vmov a vd va) a 2 false [vd.toNat, va.toNat] fun t s =>
    let x := (s.core (coreKey a)).vreg va.toNat
    s.later (coreKey a) (t + 4) 2 (.vreg vd.toNat x.val (BitVec.allOnes 256) x.poison 0xFF)

/-- VBC: the low 32 bits of a scalar register in every lane. -/
def execVbc (a : CoreAt) (vd : BitVec 6) (ra : BitVec 5) (s : State) : Host.Outcome State Fault Refusal :=
  live s fun s => s.issue (.vbc a vd ra) a 2 false [vd.toNat] fun t s =>
    let x := (s.core (coreKey a)).sreg ra.toNat
    s.putLanes (coreKey a) (t + 4) 2 vd.toNat fun _ => (x.val.toNat % 2 ^ 32, 0, x.poison)

/-! ## X slot (Table TIL-12) -/

/-- A special function on each lane, results at t + 8 (R265). -/
def State.xfn (s : State) (i : Instr) (a : CoreAt) (vd va : BitVec 6) (fn : Nat) : State :=
  s.issue i a 3 false [vd.toNat, va.toNat] fun t s =>
    let x := (s.core (coreKey a)).vreg va.toNat
    (s.tel a.tile.val 0x0B 0 1).putLanes (coreKey a) (t + 8) 3 vd.toNat fun j =>
      let (r, f) := specialF fn (x.lane j)
      (r, f, x.bad j)

/-- EXP. -/
def execExp (a : CoreAt) (vd va : BitVec 6) (s : State) : Host.Outcome State Fault Refusal := live s fun s => s.xfn (.exp a vd va) a vd va 1

/-- EXP2. -/
def execExp2 (a : CoreAt) (vd va : BitVec 6) (s : State) : Host.Outcome State Fault Refusal := live s fun s => s.xfn (.exp2 a vd va) a vd va 2

/-- LOG. -/
def execLog (a : CoreAt) (vd va : BitVec 6) (s : State) : Host.Outcome State Fault Refusal := live s fun s => s.xfn (.log a vd va) a vd va 3

/-- LOG2. -/
def execLog2 (a : CoreAt) (vd va : BitVec 6) (s : State) : Host.Outcome State Fault Refusal := live s fun s => s.xfn (.log2 a vd va) a vd va 4

/-- RCP. -/
def execRcp (a : CoreAt) (vd va : BitVec 6) (s : State) : Host.Outcome State Fault Refusal := live s fun s => s.xfn (.rcp a vd va) a vd va 5

/-- RSQRT. -/
def execRsqrt (a : CoreAt) (vd va : BitVec 6) (s : State) : Host.Outcome State Fault Refusal := live s fun s => s.xfn (.rsqrt a vd va) a vd va 6

/-- LSEM: m in the lanes of va, d in the lanes of vd. -/
def execLsem (a : CoreAt) (vd va : BitVec 6) (s : State) : Host.Outcome State Fault Refusal :=
  live s fun s => s.issue (.lsem a vd va) a 3 false [vd.toNat, va.toNat] fun t s =>
    let x := (s.core (coreKey a)).vreg va.toNat
    let y := (s.core (coreKey a)).vreg vd.toNat
    (s.tel a.tile.val 0x0B 0 1).putLanes (coreKey a) (t + 8) 3 vd.toNat fun j =>
      let (r, f) := lsemF (x.lane j) (y.lane j)
      (r, f, x.bad j || y.bad j)

/-- Seed and index base of a stochastic rounding (R183), and whether either is poisoned. -/
def CoreSt.srPair (c : CoreSt) (srp : BitVec 2) : Word × Word × Bool :=
  let x := c.sreg (24 + 2 * srp.toNat)
  let y := c.sreg (25 + 2 * srp.toNat)
  (x.val, y.val, x.poison || y.poison)

/-- Advance the index base by the number of elements converted (R259). -/
def State.advanceSr (s : State) (k t : Nat) (rm : BitVec 3) (adv : Bool) (srp : BitVec 2) (n : Nat) : State :=
  if adv && rm = 4 then
    let y := (s.core k).sreg (25 + 2 * srp.toNat)
    s.later k (t + 3) 3 (.sreg (25 + 2 * srp.toNat) (y.val + BitVec.ofNat 64 n) y.poison)
  else s

/-- The eight lanes of a register converted to a format: element bits, flags and poison (R183, R255).  A result in
E8M0, which no rule rounds to, is a free value. -/
def convert8 (c : CoreSt) (x : VReg) (f : Nat) (rm : BitVec 3) (satf : Bool) (srp : BitVec 2) (free : Nat) (k : Nat) :
    Nat × Nat × Bool :=
  let (seed, b, bad) := c.srPair srp
  let (m, g) := roundOf rm.toNat (fmtBits f) seed b k
  if f = 0xB then ((Config.toE8M0 free (BitVec.ofNat 32 (x.lane k))).toNat, 0, x.bad k)
  else
    let (r, e) := encodeF f m satf (decodeF 0 (x.lane k))
    let sig := if isSig (x.lane k) then fIV else 0
    (r, e ||| g ||| sig, x.bad k || (rm = 4 && fmtBits f ≤ 16 && bad))

/-- CVT: elements 8 × PART to 8 × PART + 7 of vd, the others kept. -/
def execCvt (a : CoreAt) (vd va : BitVec 6) (fmt : BitVec 4) (rm : BitVec 3) (satf adv : Bool) (part : BitVec 3)
    (srp : BitVec 2) (s : State) : Host.Outcome State Fault Refusal :=
  live s fun s =>
    let f := fmt.toNat
    let w := boxBits f
    if 0xB < f || 256 < 8 * w * (part.toNat + 1) then s
    else s.issue (.cvt a vd va fmt rm satf adv part srp) a 3 false [vd.toNat, va.toNat] fun t s =>
      let c := s.core (coreKey a)
      let x := c.vreg va.toNat
      let es := (List.range 8).map (convert8 c x f rm satf srp s.free)
      let base := 8 * w * part.toNat
      let v := (List.range 8).foldl (fun m k => m + (es.getD k (0, 0, false)).1 * 2 ^ (base + w * k)) 0
      let lanes := findAll 8 fun j => base < 32 * j + 32 && 32 * j < base + 8 * w
      let badL (j : Nat) : Bool := (List.range 8).any fun k =>
        (es.getD k (0, 0, false)).2.2 && 32 * j < base + w * k + w && base + w * k < 32 * j + 32
      let pm := lanes.foldl (fun m j => m + 2 ^ j) 0
      let p := lanes.foldl (fun m j => if badL j then m + 2 ^ j else m) 0
      let fl := es.foldl (fun m e => if e.2.2 then m else m ||| e.2.1) 0
      let s := if f = 0xB then { s with free := s.free + 1 } else s
      ((s.later (coreKey a) (t + 3) 3 (.vreg vd.toNat (BitVec.ofNat 256 v) (BitVec.ofNat 256 ((2 ^ (8 * w) - 1) * 2 ^ base))
        (BitVec.ofNat 8 p) (BitVec.ofNat 8 pm))).flag (coreKey a) fl).advanceSr (coreKey a) t rm adv srp 8

/-- CVTW: elements 8 × PART to 8 × PART + 7 of va widened into the FP32 lanes of vd. -/
def execCvtw (a : CoreAt) (vd va : BitVec 6) (fmt : BitVec 4) (part : BitVec 3) (s : State) : Host.Outcome State Fault Refusal :=
  live s fun s =>
    let f := fmt.toNat
    let w := boxBits f
    if 0xB < f || 256 < 8 * w * (part.toNat + 1) then s
    else s.issue (.cvtw a vd va fmt part) a 3 false [vd.toNat, va.toNat] fun t s =>
      let x := (s.core (coreKey a)).vreg va.toNat
      s.putLanes (coreKey a) (t + 3) 3 vd.toNat fun j =>
        let e := 8 * part.toNat + j
        let (r, g) := encodeF 0 .rne false (elemVal x f e none)
        (r, g, x.badElem w e)

/-- XST: the eight lanes converted and stored, packed, at the address in a scalar register; the bank is written at
t + 3. -/
def execXst (a : CoreAt) (ra : BitVec 5) (va : BitVec 6) (fmt : BitVec 4) (rm : BitVec 3) (satf adv : Bool) (srp : BitVec 2)
    (s : State) : Host.Outcome State Fault Refusal :=
  live s fun s =>
    let f := fmt.toNat
    let w := fmtBits f
    if 0xB < f then s
    else s.issue (.xst a ra va fmt rm satf adv srp) a 3 false [va.toNat] fun t s =>
      let c := s.core (coreKey a)
      let r := c.sreg ra.toNat
      if r.poison then s.poisonEnd (coreKey a)
      else
        let x := c.vreg va.toNat
        let es := (List.range 8).map (convert8 c x f rm satf srp s.free)
        let v := (List.range 8).foldl (fun m k => m + (es.getD k (0, 0, false)).1 * 2 ^ (w * k)) 0
        let badB (i : Nat) : Bool := (List.range 8).any fun k =>
          (es.getD k (0, 0, false)).2.2 && 8 * i < w * k + w && w * k < 8 * i + 8
        let fl := es.foldl (fun m e => if e.2.2 then m else m ||| e.2.1) 0
        let s := if f = 0xB then { s with free := s.free + 1 } else s
        let s := if rm = 4 then s.tel a.tile.val 0x0A 0 1 else s
        let s := s.later (coreKey a) (t + 3) 3 (.bank (r.val.toNat % 2 ^ 20) w (s.inPattern a.tile.val a.core.val)
          (.store ((List.range w).map fun i => (BitVec.ofNat 8 (v / 2 ^ (8 * i)), badB i))))
        (s.flag (coreKey a) fl).advanceSr (coreKey a) t rm adv srp 8

/-- UNPK6: the low 24 bytes of va into 32 containers (FMT 0x5 or 0x6). -/
def execUnpk6 (a : CoreAt) (vd va : BitVec 6) (fmt : BitVec 4) (s : State) : Host.Outcome State Fault Refusal :=
  live s fun s =>
    if !(fmt = 5 || fmt = 6) then s
    else s.issue (.unpk6 a vd va fmt) a 3 false [vd.toNat, va.toNat] fun t s =>
      let x := (s.core (coreKey a)).vreg va.toNat
      s.putLanes (coreKey a) (t + 3) 3 vd.toNat fun j =>
        ((List.range 4).foldl (fun m i => m + elemOf x.val 6 (4 * j + i) * 2 ^ (8 * i)) 0, 0,
         x.bad (24 * j / 32) || x.bad ((24 * j + 23) / 32))

/-- PACK6: the 32 containers of va into the low 24 bytes of vd, the rest zero (FMT 0x5 or 0x6). -/
def execPack6 (a : CoreAt) (vd va : BitVec 6) (fmt : BitVec 4) (s : State) : Host.Outcome State Fault Refusal :=
  live s fun s =>
    if !(fmt = 5 || fmt = 6) then s
    else s.issue (.pack6 a vd va fmt) a 3 false [vd.toNat, va.toNat] fun t s =>
      let x := (s.core (coreKey a)).vreg va.toNat
      let v := (List.range 32).foldl (fun m i => m + elemOf x.val 8 i % 64 * 2 ^ (6 * i)) 0
      s.putLanes (coreKey a) (t + 3) 3 vd.toNat fun j =>
        (bits v (32 * j + 31) (32 * j), 0,
         (List.range 32).any fun i => 32 * j < 6 * i + 6 && 6 * i < 32 * j + 32 && x.badElem 8 i)

/-- MXENC: va to va + 3 as one MX block: elements to vd, the others of vd kept, and the scale byte alone in vd + 1. -/
def execMxenc (a : CoreAt) (vd va : BitVec 6) (fmt : BitVec 4) (rm : BitVec 3) (adv : Bool) (srp : BitVec 2) (s : State) :
    Host.Outcome State Fault Refusal :=
  live s fun s =>
    let f := fmt.toNat
    let w := boxBits f
    let v1 := (vd.toNat + 1) % 64
    if va.toNat % 4 ≠ 0 || !isMx f then s
    else s.issue (.mxenc a vd va fmt rm adv srp) a 3 false [vd.toNat, v1, va.toNat, va.toNat + 1, va.toNat + 2, va.toNat + 3] fun t s =>
      let c := s.core (coreKey a)
      let xs := (List.range 32).map fun i => (c.vreg (va.toNat + i / 8)).lane (i % 8)
      let (seed, b, sbad) := c.srPair srp
      let bad := ((List.range 4).any fun i => (c.vreg (va.toNat + i)).anyBad) || (rm = 4 && sbad)
      let g := (roundOf rm.toNat (fmtBits f) 0 0 0).2
      let sig := if xs.any isSig then fIV else 0
      let (sc, es, fl) := mxEncode f (fun k => (roundOf rm.toNat (fmtBits f) seed b k).1) xs
      let n := s.free
      let v := (List.range 32).foldl (fun m k => m + es.getD k 0 * 2 ^ (w * k)) 0
      let v : Nat := if bad then (Config.droppedLoad n).toNat % 2 ^ (32 * w) else v
      let m : Nat := 2 ^ (32 * w) - 1
      let pm : Nat := 2 ^ w - 1
      let sc : Nat := if bad then (Config.poisonedLane n).toNat else sc
      let s := if bad then { s with free := n + 1 } else s
      let s := s.later (coreKey a) (t + 3) 3 (.vreg vd.toNat (BitVec.ofNat 256 v) (BitVec.ofNat 256 m)
        (if bad then BitVec.ofNat 8 pm else 0) (BitVec.ofNat 8 pm))
      let s := s.later (coreKey a) (t + 3) 3 (.vreg v1 (BitVec.ofNat 256 sc) (BitVec.allOnes 256) (if bad then 1 else 0) 0xFF)
      (s.flag (coreKey a) (if bad then 0 else fl ||| g ||| sig)).advanceSr (coreKey a) t rm adv srp 32

/-- ACCX: the image of an accumulator lane; a poisoned lane poisons all eight lanes of vd. -/
def execAccx (a : CoreAt) (vd : BitVec 6) (acc : BitVec 2) (lane : BitVec 3) (s : State) : Host.Outcome State Fault Refusal :=
  live s fun s => s.issue (.accx a vd acc lane) a 3 false [vd.toNat] fun t s =>
    let l := (s.core (coreKey a)).acc acc.toNat lane.toNat
    s.putLanes (coreKey a) (t + 3) 3 vd.toNat fun j => (bits l.image (32 * j + 31) (32 * j), 0, l.poison)

/-- ACC2F: accumulator lanes to FP32 (R262). -/
def execAcc2f (a : CoreAt) (vd : BitVec 6) (acc : BitVec 2) (rm : BitVec 3) (satf : Bool) (s : State) :
    Host.Outcome State Fault Refusal :=
  live s fun s => s.issue (.acc2f a vd acc rm satf) a 3 false [vd.toNat] fun t s =>
    let (m, g) := roundV rm.toNat
    s.putLanes (coreKey a) (t + 3) 3 vd.toNat fun j =>
      let l := (s.core (coreKey a)).acc acc.toNat j
      let (r, f) := l.toF32 m satf
      (r, f ||| g, l.poison)

/-- ACC2I: accumulator lanes to INT32 (R262). -/
def execAcc2i (a : CoreAt) (vd : BitVec 6) (acc : BitVec 2) (rm : BitVec 3) (satf : Bool) (s : State) :
    Host.Outcome State Fault Refusal :=
  live s fun s => s.issue (.acc2i a vd acc rm satf) a 3 false [vd.toNat] fun t s =>
    let (m, g) := roundV rm.toNat
    s.putLanes (coreKey a) (t + 3) 3 vd.toNat fun j =>
      let l := (s.core (coreKey a)).acc acc.toNat j
      let (r, f) := l.toI32 m satf
      (r, f ||| g, l.poison)

end Sys2Proof.Machine
end

