-- ==== Sys2Proof/Machine/Bundle.lean ====
section
/-! DEFINITION. Which 128-bit bundles the load checks accept (R179 to R183, R216, Tables TIL-7 to TIL-12). -/

namespace Sys2Proof.Machine

/-- S slot (Table TIL-8): `body` is whether the bundle lies in a pattern body. -/
def slotSOk (w : Nat) (body : Bool) : Bool :=
  let op := bits w 5 0
  if op = 0 then true
  else if 0x01 ≤ op && op ≤ 0x0D then bits w 23 21 == 0
  else if op = 0x11 || (0x13 ≤ op && op ≤ 0x18) || op = 0x20 || op = 0x21 then true
  else if 0x28 ≤ op && op ≤ 0x2B then !body
  else if op = 0x2C then !body && bits w 15 6 == 0
  else if op = 0x2D then !body && bits w 23 6 == 0
  else if op = 0x30 then bits w 23 16 == 0 && bits w 15 11 ≤ 6
  else false

/-- M slot (Table TIL-10). -/
def slotMOk (w : Nat) (body : Bool) : Bool :=
  match bits w 4 0 with
  | 0x00 => true
  | 0x01 => true
  | 0x02 => true
  | 0x03 => bit w 10 == 0
  | 0x04 => bit w 10 == 0
  | 0x05 => bits w 10 5 == 0
  | 0x06 => bits w 10 5 == 0
  | 0x07 => bits w 10 5 == 0 && !body
  | 0x08 => bits w 27 20 == 0 && !body
  | 0x09 => bits w 27 14 == 0 && !body
  | 0x0A => bits w 27 14 == 0
  | 0x0B => bits w 27 14 == 0 && !body
  | _ => false

/-- V slot (Table TIL-11); FP32 operands cannot be MX, so RSP is zero with them (R182). -/
def slotVOk (w : Nat) : Bool :=
  let op := bits w 5 0
  let fa := bits w 27 24
  let fb := bits w 31 28
  let rsp := bits w 42 39
  if tst w 43 then false
  else match op with
    | 0x00 => true
    | 0x01 => fa == 0 && fb == 0 && rsp == 0
    | 0x02 => (fa == 1 || fa == 2) && (fb == 1 || fb == 2) && rsp == 0
    | 0x03 => dotOk false fa fb rsp (tst w 38)
    | 0x04 => dotOk true fa fb rsp (tst w 38)
    | 0x08 => rsp == 0
    | 0x09 => rsp == 0
    | 0x0A => rsp == 0
    | 0x0B => rsp == 0
    | 0x0C => rsp == 0
    | 0x0D => fb ≤ 3 && rsp == 0
    | 0x0E => rsp == 0
    | 0x10 => bit w 17 == 0
    | 0x11 => bits w 23 21 == 0
    | 0x14 => true
    | 0x15 => true
    | _ => false

/-- X slot (Table TIL-12). -/
def slotXOk (w : Nat) : Bool :=
  let fmt := bits w 21 18
  match bits w 5 0 with
  | 0x00 => true
  | 0x01 => true
  | 0x02 => true
  | 0x03 => true
  | 0x04 => true
  | 0x05 => true
  | 0x06 => true
  | 0x07 => true
  | 0x10 => fmt ≤ 0xB && 8 * boxBits fmt * (bits w 29 27 + 1) ≤ 256
  | 0x11 => fmt ≤ 0xB && 8 * boxBits fmt * (bits w 29 27 + 1) ≤ 256
  | 0x12 => fmt ≤ 0xB && bit w 11 == 0
  | 0x13 => fmt == 5 || fmt == 6
  | 0x14 => fmt == 5 || fmt == 6
  | 0x15 => bits w 13 12 == 0 && isMx fmt
  | 0x18 => bits w 17 14 == 0
  | 0x19 => true
  | 0x1A => true
  | _ => false

/-- A bundle (Table TIL-7). -/
def bundleOk (w : Nat) (body : Bool) : Bool :=
  slotSOk (bits w 23 0) body && slotMOk (bits w 51 24) body && slotVOk (bits w 95 52) && slotXOk (bits w 127 96)

end Sys2Proof.Machine
end

