-- ==== Sys2Proof/Machine/Replay.lean ====
section
/-! DEFINITION. A stalled core goes on: the operations it holds issue in order once its wait has ended (R178). -/

namespace Sys2Proof.Machine

/-- The state that a core operation leaves. -/
def after (s : State) : Host.Outcome State Fault Refusal → State
  | .next t => t
  | _ => s

/-- Issue a core operation that was held. -/
def State.replay (s : State) (i : Instr) : State :=
  match i with
  | .nop a => after s (execNop a s)
  | .add a rd ra rb => after s (execAdd a rd ra rb s)
  | .sub a rd ra rb => after s (execSub a rd ra rb s)
  | .and a rd ra rb => after s (execAnd a rd ra rb s)
  | .or a rd ra rb => after s (execOr a rd ra rb s)
  | .xor a rd ra rb => after s (execXor a rd ra rb s)
  | .shl a rd ra rb => after s (execShl a rd ra rb s)
  | .shr a rd ra rb => after s (execShr a rd ra rb s)
  | .sra a rd ra rb => after s (execSra a rd ra rb s)
  | .mul a rd ra rb => after s (execMul a rd ra rb s)
  | .slt a rd ra rb => after s (execSlt a rd ra rb s)
  | .sltu a rd ra rb => after s (execSltu a rd ra rb s)
  | .min a rd ra rb => after s (execMin a rd ra rb s)
  | .max a rd ra rb => after s (execMax a rd ra rb s)
  | .addi a rd ra imm => after s (execAddi a rd ra imm s)
  | .andi a rd ra imm => after s (execAndi a rd ra imm s)
  | .ori a rd ra imm => after s (execOri a rd ra imm s)
  | .xori a rd ra imm => after s (execXori a rd ra imm s)
  | .shli a rd ra imm => after s (execShli a rd ra imm s)
  | .shri a rd ra imm => after s (execShri a rd ra imm s)
  | .srai a rd ra imm => after s (execSrai a rd ra imm s)
  | .li a rd imm => after s (execLi a rd imm s)
  | .lih a rd imm => after s (execLih a rd imm s)
  | .beq a ra rb target => after s (execBeq a ra rb target s)
  | .bne a ra rb target => after s (execBne a ra rb target s)
  | .blt a ra rb target => after s (execBlt a ra rb target s)
  | .bge a ra rb target => after s (execBge a ra rb target s)
  | .jmp a target => after s (execJmp a target s)
  | .coreEnd a => after s (execCoreEnd a s)
  | .rdsp a rd sel => after s (execRdsp a rd sel s)
  | .vld a vr ra off => after s (execVld a vr ra off s)
  | .vst a vr ra off => after s (execVst a vr ra off s)
  | .sld a rd ra off => after s (execSld a rd ra off s)
  | .sst a rs ra off => after s (execSst a rs ra off s)
  | .send a ra off => after s (execSend a ra off s)
  | .sende a ra off => after s (execSende a ra off s)
  | .dreq a ra off => after s (execDreq a ra off s)
  | .dld a vr ra cc => after s (execDld a vr ra cc s)
  | .waitc a cc ra => after s (execWaitc a cc ra s)
  | .rdc a cc ra => after s (execRdc a cc ra s)
  | .clrc a cc ra => s.clrc a cc ra
  | .vfma a vd va vb rm => after s (execVfma a vd va vb rm s)
  | .vfmaH a vd va vb fa fb h rm => after s (execVfmaH a vd va vb fa fb h rm s)
  | .vdot8 a vd va vb fa fb h rm acc toa rsp => after s (execVdot8 a vd va vb fa fb h rm acc toa rsp s)
  | .vdot4 a vd va vb fa fb h rm acc toa rsp => after s (execVdot4 a vd va vb fa fb h rm acc toa rsp s)
  | .vadd a vd va vb rm => after s (execVadd a vd va vb rm s)
  | .vsub a vd va vb rm => after s (execVsub a vd va vb rm s)
  | .vmul a vd va vb rm => after s (execVmul a vd va vb rm s)
  | .vmax a vd va vb => after s (execVmax a vd va vb s)
  | .vmin a vd va vb => after s (execVmin a vd va vb s)
  | .vcmp a vd va vb cond => after s (execVcmp a vd va vb cond s)
  | .vred a vd va => after s (execVred a vd va s)
  | .accz a acc ra => after s (execAccz a acc ra s)
  | .acci a acc va lane => after s (execAcci a acc va lane s)
  | .vmov a vd va => after s (execVmov a vd va s)
  | .vbc a vd ra => after s (execVbc a vd ra s)
  | .exp a vd va => after s (execExp a vd va s)
  | .exp2 a vd va => after s (execExp2 a vd va s)
  | .log a vd va => after s (execLog a vd va s)
  | .log2 a vd va => after s (execLog2 a vd va s)
  | .rcp a vd va => after s (execRcp a vd va s)
  | .rsqrt a vd va => after s (execRsqrt a vd va s)
  | .lsem a vd va => after s (execLsem a vd va s)
  | .cvt a vd va fmt rm satf adv part srp => after s (execCvt a vd va fmt rm satf adv part srp s)
  | .cvtw a vd va fmt part => after s (execCvtw a vd va fmt part s)
  | .xst a ra va fmt rm satf adv srp => after s (execXst a ra va fmt rm satf adv srp s)
  | .unpk6 a vd va fmt => after s (execUnpk6 a vd va fmt s)
  | .pack6 a vd va fmt => after s (execPack6 a vd va fmt s)
  | .mxenc a vd va fmt rm adv srp => after s (execMxenc a vd va fmt rm adv srp s)
  | .accx a vd acc lane => after s (execAccx a vd acc lane s)
  | .acc2f a vd acc rm satf => after s (execAcc2f a vd acc rm satf s)
  | .acc2i a vd acc rm satf => after s (execAcc2i a vd acc rm satf s)
  | _ => s

/-- The cores of a tile that hold operations try again, each up to the next wait. -/
def State.wake (s : State) (tile : Nat) : State :=
  each ((s.tiles.cores.filter fun e => e.1 / 128 == tile && !e.2.held.isEmpty).map (·.1)) (fun k s =>
    let ops := (s.core k).held
    each ops (fun i s => s.replay i) (s.setCore k fun c => { c with held := [] })) s

/-- Every tile's cores that hold operations try again. -/
def State.wakeAll (s : State) : State :=
  each (dedup ((s.tiles.cores.filter fun e => !e.2.held.isEmpty).map fun e => e.1 / 128)) (fun t s => s.wake t) s

/-- CLRC: a core that waits on the counter may go on. -/
def execClrc (a : CoreAt) (cc : BitVec 4) (ra : BitVec 5) (s : State) : Host.Outcome State Fault Refusal :=
  live s fun s => (s.clrc a cc ra).wake a.tile.val

end Sys2Proof.Machine
end

