-- ==== Sys2Proof/Machine/Mesh.lean ====
section
/-! DEFINITION. The dynamic mesh: tiles' requests at the homes, messages, what DISP sends and receives, responses, plan
takeover and the mesh-bar boundary (R188, R196 to R205). -/

namespace Sys2Proof.Machine

/-- The instance to which a packet's JOB belongs on a tile: one of the job that runs there. -/
def State.mInst (s : State) (tile job : Nat) : Option Inst :=
  s.disp.insts.find? fun i => i.state == 1 && i.job == job && match i.place.bind s.place? with
    | some p => (s.placeTiles p).contains tile
    | none => false

/-- May an instance's own accesses reach peer pages (R308)? -/
def State.instPeer (s : State) (i : Inst) : Bool :=
  i.opid == 5 || i.opid == 7 || (!opBuiltin i.opid && match s.demandOf i.opid with
    | some d => Config.demandPeer d
    | none => false)

/-- Take a packet off the mesh. -/
def State.meshTake (s : State) (m : MPkt) : State :=
  s.setTiles fun t => { t with mesh := t.mesh.eraseP fun x => mKey x = mKey m }

/-- Cycles for which a packet's row lets the clock run at most. -/
def flowFuel : Nat := 2 ^ 20

/-- A packet comes to its end: the tile clock runs until none of its flits is on its way, and `f` gets the packet with the marks
it has gathered.  While the tile clocks are halted nothing comes (R26). -/
def State.comes (s : State) (m : MPkt) (f : MPkt → State → State) : State :=
  if s.pwr.halt.isSome then s
  else
    let s := s.flowTo m flowFuel
    if s.inNet m then s
    else f (((s.tiles.mesh ++ s.meshResp).find? fun x => mKey x = mKey m).getD m) s

/-- The line that a packet's first two data flits carry, and whether it is poisoned. -/
def mLine (m : MPkt) : Line × Bool :=
  let a := m.flits.getD 0 (0, 0)
  let b := m.flits.getD 1 (0, 0)
  (flitLine a.1 b.1, a.2 ≠ 0 || b.2 ≠ 0)

/-- A tile's request reaches the home of its line (Table TIL-13). -/
def State.tileRequest (s : State) (m : MPkt) (op : Nat) : State :=
  let m := { m with op := BitVec.ofNat 8 op, cls := false }
  let s := s.meshTake m
  let i := s.mInst (mSource m) m.job.toNat
  let a := m.addr.toNat
  let d := m.flits.getD 0 (0, 0)
  let (l, po) := mLine m
  let r : HomeReq := { req0 with
    op := 0x100 + op, addr := a, tile := some m, arrive := s.beat,
    tenant := (i.map (·.tenant)).getD 0, job := (i.map (·.idx)).getD 0xFFFF,
    peerOk := match i with
      | some i => s.instPeer i
      | none => false,
    aop := op, size := m.size.toNat, operands := d.1,
    mask := m.inl.extractLsb' 0 128, data := l,
    poison := if op = 0x22 then po || m.inlPoison else d.2 ≠ 0 }
  if op < 0x20 && !atomOk op m.size.toNat a then s.replyCmp (homeOfPtr a) r stBadAtomic
  else (s.submit (homeOfPtr a) r).settle (homeOfPtr a)

/-- The bytes that follow a header: inline data first, then data flits (for DESC and LOAD flits only: DESIGN CHOICE, log entry 48). -/
def mBytes (m : MPkt) (inline : Bool) : List (Byte × Bool) :=
  (if inline then (List.range 32).map fun i => (m.inl.extractLsb' (8 * i) 8, m.inlPoison) else []) ++
    m.flits.flatMap fun f => flitBytes f.1 f.2

/-- A message reaches every tile it names; one that is off is answered for with TILE_RETIRED (R201, R204). -/
def State.tileMessage (s : State) (m : MPkt) (f : Nat → State → State) : State :=
  each (mTargets m) (fun t s => if s.tileOff t then s.tileAnswer m t 0x20 else (f t s).tileAnswer m t 0) (s.meshTake m)

/-- MSG (Table TIL-13). -/
def State.msg (s : State) (m : MPkt) : State :=
  let m := { m with op := 0x24, cls := false }
  s.tileMessage m fun t s => s.spadWrite t m.addr.toNat (mBytes m true)

/-- DESC: the descriptor of the job's instance on the tile, whose address RDSP tells (Table TIL-9). -/
def State.desc (s : State) (m : MPkt) : State :=
  let m := { m with op := 0x25, cls := false }
  s.tileMessage m fun t s =>
    let s := s.spadWrite t m.addr.toNat (mBytes m false)
    match s.mInst t m.job.toNat with
    | some i => s.setInst i.idx fun x => { x with descAt := m.addr.toNat % 2 ^ 20 }
    | none => s

/-- Write instruction memory bytes of a tile from an address of its 512 KiB on. -/
def State.imemWrite (s : State) (tile a : Nat) (bs : List Byte) : State :=
  s.setTiles fun t => { t with
    imem := (List.range bs.length).foldl (fun m i =>
      SMap.set 0#8 m (tile * 2 ^ 19 + (a + i) % 2 ^ 19) (bs.getD i 0#8)) t.imem }

/-- LOAD: instruction memory when bit 63 of ADDR is 1, else scratchpad. -/
def State.loadMsg (s : State) (m : MPkt) : State :=
  let m := { m with op := 0x26, cls := false }
  s.tileMessage m fun t s =>
    if m.addr.getLsbD 63 then s.imemWrite t m.addr.toNat ((mBytes m false).map (·.1))
    else s.spadWrite t m.addr.toNat (mBytes m false)

/-- RESULT: result lines for OpData; the stream and the offset follow from the pool pointer in ADDR (R283). -/
def State.resultMsg (s : State) (m : MPkt) : State :=
  let m := { m with op := 0x27, cls := false }
  let s := s.meshTake m
  let a := m.addr.toNat
  let s := match s.mInst (mSource m) m.job.toNat with
    | none => s
    | some i =>
      match i.streams.findIdx? fun (x : Strm) => x.wr && x.base ≤ a && a < x.base + x.len with
      | none => s
      | some k =>
        if !i.rpkt then s
        else
          each (List.range (m.flits.length / 2)) (fun n s =>
            let f := m.flits.getD (2 * n) (0, 0)
            let g := m.flits.getD (2 * n + 1) (0, 0)
            s.sendOpData i.idx k (a + 128 * n - (strm i.streams k).base) (flitLine f.1 g.1) (f.2 ≠ 0 || g.2 ≠ 0)) s
  s.sendMesh (meshReply m 0 0 false [])

/-- A round of an instance has ended: the next one starts at phase 0, or the work is done (R281). -/
def State.roundEnd (s : State) (i : Inst) : State :=
  let dg := ((i.place.bind s.place?).map (·.digest)).getD 0
  let n := Config.imageRounds dg (BitVec.ofNat 2048 (leNat i.desc))
  s.setInst i.idx fun x =>
    if x.round + 1 < n then { x with round := x.round + 1, phase := 0, dones := [], bodyAt := none, ran := none, since := s.beat }
    else { x with done := true, dones := [], bodyAt := none }

/-- DONE: the site has finished its share of the round; the round ends when every site has. -/
def State.doneMsg (s : State) (m : MPkt) : State :=
  let m := { m with op := 0x28, cls := false }
  let s := s.meshTake m
  let s := match s.mInst (mSource m) m.job.toNat, s.siteOf (mSource m) with
    | some i, some site =>
      let ds := if i.dones.contains site then i.dones else i.dones ++ [site]
      let s := s.setInst i.idx fun x => { x with dones := ds }
      match i.place.bind s.place? with
      | some p => if p.sites.all fun e => ds.contains e.1 then s.roundEnd i else s
      | none => s
    | _, _ => s
  s.sendMesh (meshReply m 0 0 false [])

/-! ## Responses and the window (R203, R205) -/

/-- Send the requests of a tile that waited at injection while its window has room, `fuel` at most. -/
def State.injectMore (s : State) (tile : Nat) : Nat → State
  | 0 => s
  | n + 1 =>
    let out := (s.tiles.sent.filter fun e => e.1 == tile).length
    match s.tiles.inject.find? fun m => mSource m == tile with
    | none => s
    | some m =>
      if s.rd (F.tileCongW tile) ≤ out then s
      else
        let k := max 1 (mTargets m).length
        ((s.setTiles fun t => { t with
          inject := t.inject.erase m, sent := t.sent ++ (List.range k).map fun _ => (tile, m.seq.toNat) }).meshSend m).injectMore tile n

/-- A congestion echo at a tile: counted, and W halved once in a mesh bar. -/
def State.echo (s : State) (t : Nat) : State :=
  let s := s.inc (F.tileCongMarks t)
  let s := s.setTiles fun x => { x with marked := if x.marked.contains t then x.marked else x.marked ++ [t] }
  if s.tiles.halved.contains t then s
  else (s.wr (F.tileCongW t) (max 1 (s.rd (F.tileCongW t) / 2))).setTiles fun x => { x with halved := x.halved ++ [t] }

/-- The data of a response reach the tile: flits at RADDR, the pending register of a DLD, a leaf entry for a WALK. -/
def State.respData (s : State) (t : Nat) (m : MPkt) : State :=
  let s := if m.flits.isEmpty then s else s.spadWrite t m.raddr.toNat (mBytes m false)
  if m.op = 0x21 then
    match s.tiles.dlds.find? fun d => d.tile == t && d.seq == m.seq.toNat with
    | none => s
    | some d =>
      let (n, s) := s.draw
      let bad := m.status ≠ 0 || m.inlPoison
      let v : VReg := ⟨if m.status = 0 then m.inl else Config.droppedLoad n, if bad then 0xFF else 0⟩
      (s.setCore (128 * t + d.core) fun c => c.setVreg d.reg v).setTiles fun x => { x with dlds := x.dlds.erase d }
  else if m.op = 0x23 && m.status = 0 then
    s.tlbPut (64 + t) (ptrSpace m.addr.toNat) (ptrOff m.addr.toNat) (bits m.inl.toNat 127 0) (bits m.inl.toNat 135 128) none
  else s

/-- A dynamic response reaches its source; one to a tile that is off is discarded, one to a mesh edge is sunk. -/
def State.meshResponse (s : State) (m : MPkt) : State :=
  if !(s.meshResp.contains m) then s
  else
    let s := { s with meshResp := s.meshResp.erase m }
    let t := 28 * m.dy.toNat + m.dx.toNat
    if 28 ≤ m.dx.toNat || 24 ≤ m.dy.toNat || s.tileOff t then s
    else
      let s := s.respData t m
      let s := s.setTiles fun x => { x with
        sent := x.sent.erase (t, m.seq.toNat),
        counts := SMap.set 0#32 x.counts (16 * t + m.cc.toNat) (SMap.get 0#32 x.counts (16 * t + m.cc.toNat) + 1#32) }
      let s := if m.cee then s.echo t else s
      let st := m.status.toNat
      let s := match s.mInst t m.job.toNat with
        | some i => if (5 ≤ st && st ≤ 9) || st = 0x0C then s.stopInst i.idx (opStatus st) else s
        | none => s
      (s.injectMore t (s.tiles.inject.length)).wake t

/-! ## Plan takeover (R196, R230) -/

/-- Copy `n` words of the control space from one address to another. -/
def State.copyWords (s : State) (src dst n : Nat) : State :=
  let old := (s.regs.filter fun e => dst ≤ e.1 && e.1 < dst + 8 * n).map (·.1)
  let new := (dedup ((s.regs.filter fun e => src ≤ e.1 && e.1 < src + 8 * n).map (·.1))).map fun a => (a, s.reg a)
  let s := each old (fun a s => s.setReg a 0) s
  each new (fun e s => s.setReg (e.1 - src + dst) e.2) s

/-- Slot groups with PATTERN entries in a tile's active plan. -/
def State.planGroups (s : State) (t : Nat) : Nat :=
  let ws := s.regs.filter fun e => t * 0x100000 + 0x8000 ≤ e.1 && e.1 < t * 0x100000 + 0x8000 + 10240
  (dedup ((ws.flatMap fun e => (List.range 4).map fun i => bits e.2.toNat (16 * i + 15) (16 * i)).filterMap fun x =>
    if meshPattern x then some (meshGroup x) else none)).length

/-- Is the present a mesh-bar boundary: has no cycle of the bar passed? -/
def State.meshEdge (s : State) : Bool := s.tiles.clock ≤ 1024 * s.mbar

/-- A placement's slots that have come into force are used one bar later (R196). -/
def State.slotsNew (s t : State) : State :=
  let next (p : Placement) : Placement :=
    if !s.slotsServe p && t.slotsServe p then { p with ready := max p.ready (s.beat + s.barBeats) } else p
  t.setDisp fun d => { d with places := d.places.map next }

/-- At a mesh-bar boundary the armed mesh plans whose beat has come take over, in every island at once; armed home-port plans at their
home-bar boundary (R196, R230). -/
def State.meshTakeover (s : State) : State :=
  let s0 := s
  let due := if s.meshEdge then s.tiles.armed.filter fun t => s.rd (F.tileMplanAtBeat t) ≤ s.beat else []
  let s := s.setTiles fun x => { x with armed := x.armed.filter fun t => !due.contains t }
  let s := each due (fun t s =>
    let s := s.copyWords (t * 0x100000 + 0x4000) (t * 0x100000 + 0x8000) 1280
    (s.wr (F.tileMplanArmed t) 0).wr (F.tileMplanGroups t) (s.planGroups t)) s
  if s.beat < s.tiles.harmedAt then s0.slotsNew s
  else
    let s := each s.tiles.harmed (fun k s => s.copyWords (blkHome k * 0x100000 + 0x4000) (blkHome k * 0x100000 + 0x8000) 256) s
    s0.slotsNew (s.setTiles fun x => { x with harmed := [] })

/-! ## The mesh-bar boundary (R188, R205, R284) -/

/-- Every island advances its bar counter; windows without an echo in the bar grow; stopped instances stop. -/
def State.meshBar (s : State) : State :=
  if s.pwr.halt.isSome then s
  else
    let b := s.mbar + 1
    let s := { (s.tick (1024 * b)) with mbar := b % 2 ^ 64 }
    let ws := dedup ((s.regs.filter fun e => e.1 / 0x100000 < 672 && e.1 % 0x100000 == 0x300).map fun e => e.1 / 0x100000)
    let s := each ws (fun t s =>
      let w := s.rd (F.tileCongW t)
      let m := s.rd (F.tileCongWmax t)
      (s.wr (F.tileCongW t) (if s.tiles.marked.contains t then min w m else min (w + 1) m)).injectMore t
        s.tiles.inject.length) s
    (s.setTiles fun x => { x with halved := [], marked := [] }).stopNow.wakeAll

/-! ## Rows -/

/-- RD. -/
def execRd (m : MPkt) (s : State) : Host.Outcome State Fault Refusal :=
  live s fun s => s.comes m fun m s => s.tileRequest m 0x20

/-- RDV. -/
def execRdv (m : MPkt) (s : State) : Host.Outcome State Fault Refusal :=
  live s fun s => s.comes m fun m s => s.tileRequest m 0x21

/-- WR. -/
def execWr (m : MPkt) (s : State) : Host.Outcome State Fault Refusal :=
  live s fun s => s.comes m fun m s => s.tileRequest m 0x22

/-- WALK. -/
def execWalk (m : MPkt) (s : State) : Host.Outcome State Fault Refusal :=
  live s fun s => s.comes m fun m s => s.tileRequest m 0x23

/-- MSG. -/
def execMsg (m : MPkt) (s : State) : Host.Outcome State Fault Refusal :=
  live s fun s => s.comes m fun m s => s.msg m

/-- DESC. -/
def execDesc (m : MPkt) (s : State) : Host.Outcome State Fault Refusal :=
  live s fun s => s.comes m fun m s => s.desc m

/-- LOAD. -/
def execLoad (m : MPkt) (s : State) : Host.Outcome State Fault Refusal :=
  live s fun s => s.comes m fun m s => s.loadMsg m

/-- RESULT. -/
def execResult (m : MPkt) (s : State) : Host.Outcome State Fault Refusal :=
  live s fun s => s.comes m fun m s => s.resultMsg m

/-- DONE. -/
def execDone (m : MPkt) (s : State) : Host.Outcome State Fault Refusal :=
  live s fun s => s.comes m fun m s => s.doneMsg m

/-- DYNAMIC_RESPONSE. -/
def execDynamicResponse (m : MPkt) (s : State) : Host.Outcome State Fault Refusal :=
  live s fun s => s.comes m fun m s => s.meshResponse m

/-- MESH_PLAN_TAKEOVER. -/
def execMeshPlanTakeover (s : State) : Host.Outcome State Fault Refusal := live s fun s => s.meshTakeover

/-- MESH_BAR_BOUNDARY. -/
def execMeshBarBoundary (s : State) : Host.Outcome State Fault Refusal := live s fun s => s.meshBar

end Sys2Proof.Machine
end

