-- ==== Sys2Proof/Machine/Slots.lean ====
section
/-! DEFINITION. DRAM positions and the open arbiter, plans as DISP and firmware arm them, and the gate bars and phases
of pattern instances (R132 to R144, R216 to R221, R227 to R233, R379, R399 to R402). -/

namespace Sys2Proof.Machine

/-- Does a slot group belong to a placement with a running instance? -/
def State.groupRuns (s : State) (g : Nat) : Bool :=
  match s.groupPlace g with
  | some p => (s.instOn p.num).isSome
  | none => false

/-! ## Positions (R132, R133, R136, R142) -/

/-- Bank of a line of a channel: its bank set and bank group.  A parity line under PARTITIONED order takes its set from its stripe
(R131). -/
def State.setOfLine (s : State) (k l : Nat) : Nat × Nat :=
  let (pc, ba, bg) := bankOf (s.rd F.dchMapOrder) l (s.stripeOf k l)
  (4 * pc + ba, bg)

/-- Does an access of a line at position `p` satisfy Table DRM-4 against what the subchannel has issued and against the
REFsb that its plan brings within 9 positions? -/
def State.fits (s : State) (k sub p set bg : Nat) (write : Bool) : Bool :=
  let pc := set / 4
  let ba := set % 4
  let h := (s.dc k).hist.filter fun x => x.sub == sub
  let acc := h.filter fun x => x.kind ≠ 2
  !(acc.any fun x => x.pc == pc && x.ba == ba && x.bg == bg && decide (p < x.at_ + 20)) &&
  !(acc.any fun x => x.pc == pc && x.bg == bg && decide (p < x.at_ + 2)) &&
  !(!write && acc.any fun x => x.pc == pc && x.kind == 1 && decide (p < x.at_ + 4)) &&
  decide ((acc.filter fun x => x.pc == pc && decide (p < x.at_ + 8)).length < 4) &&
  !(h.any fun x => x.kind == 2 && x.pc == pc && x.ba == ba && decide (p < x.at_ + 48)) &&
  (List.range 8).all fun i =>
    let q := p + 1 + i
    let e := s.planEntry k true (64 * sub + q % 64)
    !(planKind e == 2 && planSet e == set && s.refreshDue k set (q / 64))

/-- Note an access of a line as issued, with its bank, row and column (R131, R132). -/
def State.issued (s : State) (k sub p kind l : Nat) : State :=
  let (set, bg) := s.setOfLine k l
  let (col, row) := cellOf (s.rd F.dchMapOrder) l
  s.setDc k fun d => { d with
    hist := (⟨sub, p, kind, set / 4, set % 4, bg, row, col⟩ : Issued) :: d.hist.filter fun x => x.sub ≠ sub || p < x.at_ + 64 }

/-- Weight of an open class (DCH[k].OPEN_WT). -/
def State.openWeight (s : State) (k : Nat) : Nat → Nat
  | 0 => s.rd (F.dchOpenWtHome k)
  | 1 => s.rd (F.dchOpenWtPerc k)
  | 2 => s.rd (F.dchOpenWtBrush k)
  | _ => s.rd (F.dchOpenWtRebuild k)

/-- Lines that the brush asks for in BRUSH-class open positions of a bar on each subchannel (R412): what the lap needs per bar to
end by LAP_TGT, a bar counted as 5 beats, less the fixed positions, OPEN_MAX at most. -/
def State.brushAsk (s : State) (k sub : Nat) : Nat :=
  let d := k / 16
  let left := if (s.dc k).wrapped.getD sub false then 0 else s.linesPerSub - (s.dc k).walk.getD sub 0
  let bars := (s.lapStart.getD d 0 + s.rd (F.brushCtlLapTgt d) * 31250000 - s.beat) / 5
  let fixed := ((List.range 64).filter fun q => planKind (s.planEntry k true (64 * sub + q)) == 3).length
  let most := s.rd (F.brushCtlOpenMax d)
  if bars = 0 then (if left = 0 then 0 else most) else min most (ceilDiv left bars - fixed)

/-- May a head of the BRUSH class have an open position of this bar: zeroing, which goes ahead of the brush's reads, or a read
within the number that the brush asks for (R412, R414)? -/
def State.brushMay (s : State) (k sub p : Nat) (h : OpenHead) : Bool :=
  let x := (s.dc k).extra.getD sub (0, 0)
  h.write || (s.on (F.brushCtlEn (k / 16)) && (if x.1 = p / 64 then x.2 else 0) < s.brushAsk k sub)

/-- Count a read of the BRUSH class in an open position of its bar. -/
def State.brushTook (s : State) (k sub p : Nat) : State :=
  s.setDc k fun d =>
    let x := d.extra.getD sub (0, 0)
    { d with extra := d.extra.set sub (p / 64, if x.1 = p / 64 then x.2 + 1 else 1) }

/-- The open arbiter at a position (R142, R379): the head that fits with the least finish tag; `lock` restricts the bank
set.  A head keeps the tag it took when it came to the front. -/
def State.openGrant (s : State) (k sub p : Nat) (lock : Option Nat) (heads : List OpenHead) : Bool × State :=
  let d := s.dc k
  let v := d.fqV.getD sub 0
  let fs := d.fqF.getD sub [0, 0, 0, 0]
  let hs := d.fqH.getD sub [0, 0, 0, 0]
  let head (f : Nat) : Option OpenHead := heads.find? fun h => h.cls.val == f
  let hs := (List.range 4).map fun f =>
    match head f with
    | none => 0
    | some _ => if 0 < hs.getD f 0 then hs.getD f 0 else max v (fs.getD f 0) + 360360 / max 1 (s.openWeight k f)
  let ok (f : Nat) : Bool :=
    match head f with
    | none => false
    | some h =>
      let (set, bg) := s.setOfLine k h.line.toNat
      0 < s.openWeight k f && (lock.isNone || lock == some set) && s.fits k sub p set bg h.write &&
        (f ≠ 2 || s.brushMay k sub p h)
  match minBy? (fun f => hs.getD f 0) ((List.range 4).filter ok) with
  | none => (false, s.setDc k fun d => { d with
      fqV := d.fqV.set sub 0, fqF := d.fqF.set sub [0, 0, 0, 0], fqH := d.fqH.set sub hs })
  | some f =>
    let t := hs.getD f 0
    let s := s.setDc k fun d => { d with
      fqV := d.fqV.set sub t, fqF := d.fqF.set sub (fs.set f t), fqH := d.fqH.set sub (hs.set f 0) }
    match head f with
    | none => (false, s)
    | some h =>
      let s := (s.issued k sub p (if h.write then 1 else 0) h.line.toNat).tel (blkDch k) 0x02 f 1
      let s := if f = 2 && !h.write then s.brushTook k sub p else s
      (true, if f = 3 && h.write then s.rebuildStep k sub h.line.toNat else s)

/-! ## Slots of a group (R136, R219, R220, R227, R402) -/

/-- Change the running instance to which a slot group belongs. -/
def State.setGroupInst (s : State) (g : Nat) (f : Inst → Inst) : State :=
  match (s.groupPlace g).bind fun p => s.instOn p.num with
  | some i => s.setInst i.idx f
  | none => s

/-- A slot read on a channel that does not serve the line: from the reconstruction buffer, else discarded (R219, R220). -/
def State.bufferRead (s : State) (e : SlotEnt) : State :=
  match s.mem.recon.find? fun x => x.1 == slotDpa e.entry / 128 with
  | some (_, l, po) => (s.tel blkDisp 0x05 0 1).slotData e l po
  | none =>
    let (n, s) := s.draw
    let s := (s.tel blkDisp 0x08 0 1).setGroupInst (slotGroup e.entry) fun i => { i with again := true }
    s.slotData e (Config.poisonedLine n) true

/-- A slot access, which the channel serves (`on`) or not. -/
def State.slotServe (s : State) (e : SlotEnt) (on : Bool) : State :=
  let a := slotDpa e.entry
  if slotKind e.entry = 2 then
    if on then (s.tel blkDisp 0x05 0 1).slotWrite e else (s.tel blkDisp 0x08 0 1).slotWrite e
  else if !on then s.bufferRead e
  else
    let st := classify (zoneP (s.zone a)) (s.synd a)
    let d := s.storedLine a
    let s := (s.tel blkDisp 0x05 0 1).slotData e d (st ≠ 0)
    let s := if st = 1 then s.setGroupInst (slotGroup e.entry) fun i => { i with readErr := true } else s
    (s.readDram a 1 (homeOf 0 a)).2

/-- The head of the queue of a group, bank set and subchannel at a channel. -/
def State.slotHead (s : State) (k g set sub : Nat) : Option SlotEnt :=
  (s.dc k).slotq.find? fun e => slotGroup e.entry == g && slotSet e.entry == set && slotSub e.entry == sub

/-- A write entry of a slot whose data flits have not all come (R134). -/
def State.lateWrite (s : State) (k g set sub : Nat) : Option (Nat × SlotEnt) :=
  s.tiles.edges.find? fun e => slotTgt e.2.entry == 0 && slotUnit e.2.entry == k && slotGroup e.2.entry == g &&
    slotSet e.2.entry == set && slotSub e.2.entry == sub && !e.2.late

/-- A PATTERN position of an assigned group (R134, R136, R227): whether the position is left to open traffic, and the state.  A
write whose data are late is not issued, then or later. -/
def State.patternSlot (s : State) (k sub p e : Nat) : Bool × State :=
  match s.slotHead k (planGroup e) (planSet e) sub with
  | none =>
    match if planDir e = 1 then s.lateWrite k (planGroup e) (planSet e) sub else none with
    | none => (planLend e, s)
    | some x =>
      let s := s.setTiles fun t => { t with edges := SMap.insert (SMap.erase t.edges x.1) x.1 { x.2 with late := true } }
      (false, (s.tel (blkDch k) 0x03 4 1).raise (blkDch k) 9 none)
  | some x =>
    let s := s.setDc k fun d => { d with slotq := d.slotq.erase x }
    if slotKind x.entry = 0 then (planLend e, s)
    else
      let a := slotDpa x.entry
      let (ch, sb, l) := placeOf a
      let (set, bg) := s.setOfLine k l
      let wr := slotKind x.entry == 2
      let on := s.served k l && (s.dc k).from_.getD sub 0 ≤ p
      let good := ch == k && sb == sub && set == planSet e && planDir e == (if wr then 1 else 0) && a < s.dramTop &&
        (!on || s.fits k sub p set bg wr)
      if good then
        let s := if on then s.issued k sub p (if wr then 1 else 0) l else s
        (false, s.slotServe x on)
      else
        let s := ((s.tel (blkDch k) 0x03 4 1).elog k l sub 4 1 0 false).raise (blkDch k) 9 none
        if wr then (false, s)
        else
          let (n, s) := s.draw
          (false, s.slotData x (Config.poisonedLine n) true)

/-- REFsb in a REFRESH position (R143). -/
def State.refresh (s : State) (k sub p set : Nat) : State :=
  (s.setDc k fun d => { d with
    hist := (⟨sub, p, 2, set / 4, set % 4, 0, 0, 0⟩ : Issued) :: d.hist.filter fun x => x.sub ≠ sub || p < x.at_ + 64 }).add
      (F.dchRefStatRefs k) 1

/-- Does the channel issue accesses for others than its slot groups on a subchannel: in service or being rebuilt, and past the bar
boundary after its return (R137)? -/
def State.dchOn (s : State) (k sub : Nat) : Bool :=
  (s.rd (F.dchFenceState k) == 0 || s.rd (F.dchFenceState k) == 6) && (s.dc k).from_.getD sub 0 ≤ s.posOf k sub

/-- One position of a subchannel (R132): what its entry in the active plan assigns, then on to the next position. -/
def State.dramPosition (s : State) (k sub : Nat) (heads : List OpenHead) : State :=
  if !s.mem.up then s
  else
    let p := s.posOf k sub
    let e := s.nowEntry k sub
    let kind := planKind e
    let heads := if s.dchOn k sub then heads else []
    let lend := !s.on F.secPartCtlEn
    let (used, s) := match kind with
      | 0 => s.openGrant k sub p (if planLock e then some (planSet e) else none) heads
      | 1 =>
        if planGroup e = 0 then (if lend then s.openGrant k sub p none heads else (false, s))
        else
          let (free, s') := s.patternSlot k sub p e
          if free && lend then s'.openGrant k sub p none heads else (!free, s')
      | 2 =>
        if !s.dchOn k sub then (false, s)
        else if s.refreshDue k (planSet e) (p / 64) then (true, s.refresh k sub p (planSet e))
        else if lend then s.openGrant k sub p none heads else (false, s)
      | 3 =>
        let l := match (s.dc k).again.find? fun (a : Nat × Nat) => a.1 == sub with
          | some a => a.2
          | none => (s.dc k).walk.getD sub 0
        let (set, bg) := s.setOfLine k l
        if s.dchOn k sub && s.on (F.brushCtlEn (k / 16)) && s.fits k sub p set bg false
        then (true, s.issued k sub p 0 l) else (false, s)
      | _ => (false, s)
    (s.tel (blkDch k) 0x01 (kind + if used then 0 else 8) 1).nextPos k sub

/-- REFRESH_DUE (R143). -/
def State.refreshNow (s : State) (k sub : Nat) : State :=
  let e := s.nowEntry k sub
  if s.mem.up && s.dchOn k sub && planKind e = 2 && s.refreshDue k (planSet e) (s.posOf k sub / 64) then
    (((s.refresh k sub (s.posOf k sub) (planSet e))).tel (blkDch k) 0x01 2 1).nextPos k sub
  else s

/-! ## The gate bar (R217 to R221, R233, R399, R400) -/

/-- The stream's range within the pages that the instance's tiles hold locked for it. -/
def State.lockedParts (s : State) (i : Inst) (k : Nat) : List (Nat × Nat × Tlb) :=
  let x := strm i.streams k
  dedup ((s.homes.tlb.filter fun t => t.lock == some (i.idx, k)).filterMap fun t =>
    let lo := max (ptrOff x.base) (t.page * 2 ^ t.bits)
    let hi := min (ptrOff x.base + x.len) ((t.page + 1) * 2 ^ t.bits)
    if lo < hi then some (lo, hi, { t with place := 0 }) else none)

/-- DPAs of the lines of a phase's extents for which `want` says yes of the stream. -/
def State.extentLines (s : State) (i : Inst) (ph : Phase) (want : Strm → Bool) : List Nat :=
  let ks := (List.range i.streams.length).filter fun k => tst ph.ext k && want (strm i.streams k)
  dedup (ks.flatMap fun k => (s.lockedParts i k).flatMap fun (lo, hi, t) =>
    (List.range (ceilDiv hi 128 - lo / 128)).map fun n => leafDpa t.entry t.bits ((lo / 128 + n) * 128) / 128 * 128)

/-- A gather-list record of a site (Table PAT-9): whether it is well formed, and the DPAs of its read entries that name
fenced channels. -/
def State.gatherRec (s : State) (tile a : Nat) : Bool × List Nat :=
  let n (o c : Nat) := leNat (s.spadRead tile (a + o) c)
  let nset := n 0 2
  let e := n 2 2
  let sets := (List.range nset).map fun k => n (64 + 16 * k) 16
  let ok := 1 ≤ nset && nset ≤ 512 && 1 ≤ e && e ≤ 1024 && sets.all fun w => bits w 35 16 + 64 * e ≤ 2 ^ 20
  if !ok then (false, [])
  else (true, sets.flatMap fun w => (List.range e).filterMap fun j =>
    let f := (s.spadFlit tile (bits w 35 16 + 64 * j)).1
    if slotKind f = 1 && slotTgt f = 0 && !s.lineServed (slotDpa f) then some (slotDpa f) else none)

/-- Is any channel out of service? -/
def State.anyFenced (s : State) : Bool := (List.range 32).any fun k => s.rd (F.dchFenceState k) ≠ 0

/-- Lines on channels that do not serve them which a phase needs in the reconstruction buffer (R220, R233, R400). -/
def State.neededLines (s : State) (i : Inst) (p : Placement) (ph : Phase) : List Nat :=
  if !s.anyFenced then []
  else
    let ext := (s.extentLines i ph fun _ => true).filter fun a => !s.lineServed a
    let halves := dedup ((s.extentLines i ph fun x => x.wr).map halfOf)
    let mates := halves.flatMap fun h => ((List.range 16).map (halfLine h)).filter fun a => !s.lineServed a
    let gl := if ph.glist = 0 then [] else (s.placeTiles p).flatMap fun t => (s.gatherRec t ph.glist).2
    dedup (ext ++ mates ++ gl)

/-- Limits of R220 and R221 on one die: 65,536 lines in the buffer and at most two fenced channels. -/
def State.bufferRoom (s : State) (need : List Nat) : Bool :=
  (List.range 2).all fun d =>
    let fenced := (findAll 16 fun k => s.rd (F.dchFenceState (16 * d + k)) ≠ 0).length
    let old := (s.mem.recon.filter fun (e : Nat × Line × Bool) => chanOf (e.1 * 128) / 16 == d).length
    let new := (need.filter fun (a : Nat) => chanOf a / 16 == d && !(s.mem.recon.any fun e => e.1 == a / 128)).length
    new = 0 || (fenced ≤ 2 && old + new ≤ 65536)

/-- Has the slot part of each die room for the stripe halves that the phase writes (R399)? -/
def State.slotRoom (s : State) (i : Inst) (ph : Phase) : Bool :=
  let ws := i.streams.any fun x => x.wr && x.len ≠ 0
  if !ws then true
  else
    let hs := dedup (((s.extentLines i ph fun x => x.wr).filter fun (a : Nat) => decide (0 < zoneP (s.zone a))).map halfOf)
    (List.range 2).all fun d =>
      let used := (s.mem.recompute.filter fun (e : Nat × Bool × List (Nat × Line × Bool)) => e.2.1 && s.queueDie e.1 == d).length
      let new := (hs.filter fun h => s.queueDie h == d && !s.stale h).length
      used + new ≤ 32768

/-- Reconstruct lines into the buffer for an instance. -/
def State.fillBuffer (s : State) (i : Nat) (need : List Nat) : State :=
  let s := each need (fun a s =>
    if s.mem.recon.any fun e => e.1 == a / 128 then s
    else
      let (rd, s) := s.readDram a 1 (homeOf 0 a)
      { s with mem := { s.mem with recon := SMap.insert s.mem.recon (a / 128) (rd.data, rd.poison) } }) s
  s.setInst i fun x => { x with recon := dedup (x.recon ++ need.map (· / 128)) }

/-- Give back the lines that an instance holds in the buffer. -/
def State.freeBuffer (s : State) (i : Inst) : State :=
  let others := s.disp.insts.filter fun j => j.idx ≠ i.idx
  let s := { s with mem := { s.mem with recon := s.mem.recon.filter fun e =>
    !(i.recon.contains e.1) || others.any fun j => j.recon.contains e.1 } }
  s.setInst i.idx fun x => { x with recon := [] }

/-- Have all cores of a placement finished the dynamic phase (R217 condition 1)? -/
def State.coresEnded (s : State) (p : Placement) : Bool :=
  p.sites.all fun e => match s.server e.1 with
    | some t => e.2.all fun c => (s.core (128 * t + c)).ended
    | none => false

/-- Start a dynamic phase: its cores have not ended. -/
def State.dynStart (s : State) (p : Placement) : State :=
  let keys := p.sites.flatMap fun e => match s.server e.1 with
    | some t => e.2.map fun c => 128 * t + c
    | none => []
  each keys (fun k s => if (s.core k).ended then s.setCore k fun c => { c with ended := false } else s) s

/-! ## Streams and their locked translations (R47, R49) -/

/-- Does a page that a stream needs at a tile wait in a fault? -/
def State.streamWaits (s : State) (i tile k o : Nat) : Bool :=
  ((s.homes.faults ++ s.homes.faultWait).map (·.waiter) ++ s.homes.recs.flatMap (·.waiters)).any fun w => match w with
    | .stream n tt kk ptr => n == i && tt == tile && kk == k && ptrOff ptr / 2 ^ 16 == o / 2 ^ 16
    | _ => false

/-- Request and lock `n` pages of a stream at a tile from a pool offset on, in the stream's direction; a page that waits in a fault is
not asked for twice. -/
def State.streamLock (s : State) (i tile k : Nat) (x : Strm) (o : Nat) : Nat → State
  | 0 => s
  | n + 1 =>
    let sp := ptrSpace x.base
    let lo := ptrOff x.base
    if o < lo || lo + x.len ≤ o then s
    else
      let hm := homeOfPtr (ptrOf sp o)
      let (w, s) := s.translate (64 + tile) sp o false false hm
      let next (lg : Nat) : Nat := if x.dir then o / 2 ^ lg * 2 ^ lg - 1 else (o / 2 ^ lg + 1) * 2 ^ lg
      let more (s : State) (lg : Nat) : State :=
        if x.dir && o / 2 ^ lg = 0 then s else s.streamLock i tile k x (next lg) n
      match w with
      | .leaf e lg => more (s.tlbPut (64 + tile) sp o (s.pinLeaf i sp o e) lg (some (i, k))) lg
      | .fault c z =>
        more (if s.streamWaits i tile k o then s else s.forwardFault sp o c z hm (.stream i tile k (ptrOf sp o)))
          (if c = 0 || z = 0 then 16 else if z = 1 then 26 else 37)
      | .error c => s.stopInst i (opStatus c)
      | .violation => s.stopInst i 0x0F
      | .peer _ _ lg => match s.inst? i with
        | some v => if s.instPeer v then more s lg else s.stopInst i 0x14
        | none => s
      | .held _ => s

/-- Access position of a stream at a tile: the page it has entered last, at first the stream's own end. -/
def Strm.position (x : Strm) (i : Inst) (t k : Nat) : Nat :=
  ((i.pos.find? fun e => e.1 == 16 * t + k).map (·.2)).getD (if x.dir then ptrOff x.base + x.len - 1 else ptrOff x.base)

/-- Is a translation missing among the `n` pages of a stream from an offset on: neither locked nor, for an instance that may reach it, a
peer page? -/
def State.streamLacks (s : State) (i : Inst) (t k : Nat) (x : Strm) (o : Nat) : Nat → Bool
  | 0 => false
  | n + 1 =>
    if o < ptrOff x.base || ptrOff x.base + x.len ≤ o then false
    else
      let more (lg : Nat) : Bool :=
        if x.dir then (if o / 2 ^ lg = 0 then false else s.streamLacks i t k x (o / 2 ^ lg * 2 ^ lg - 1) n)
        else s.streamLacks i t k x ((o / 2 ^ lg + 1) * 2 ^ lg) n
      match s.homes.tlb.find? fun e => e.place == 64 + t && e.lock == some (i.idx, k) && e.space == ptrSpace x.base &&
          e.page == o / 2 ^ e.bits with
      | some e => more e.bits
      | none => match (s.translate (64 + t) (ptrSpace x.base) o false false (homeOfPtr (ptrOf (ptrSpace x.base) o))).1 with
        | .peer _ _ lg => if s.instPeer i then more lg else true
        | _ => true

/-- Tiles of a placement at which a translation that the phase's extents need is missing (R217 condition 2). -/
def State.unlocked (s : State) (i : Inst) (p : Placement) (ph : Phase) : List Nat :=
  (s.placeTiles p).filter fun t =>
    (List.range i.streams.length).any fun k =>
      let x := strm i.streams k
      tst ph.ext k && x.len ≠ 0 && !x.gath && s.streamLacks i t k x (x.position i t k) (x.depth + 1)

/-- Dirty line-cache lines of the instance's streams that slots read go to DRAM (R217 condition 3). -/
def State.cleanExtents (s : State) (i : Inst) (ph : Phase) : State :=
  let ks := (List.range i.streams.length).filter fun k => tst ph.ext k && !(strm i.streams k).wr
  let es := s.homes.lc.filter fun e => e.2.dirty && ks.any fun k =>
    let x := strm i.streams k
    ptrSpace x.base == ptrSpace e.2.ptr && ptrOff x.base / 128 * 128 ≤ ptrOff e.2.ptr &&
      ptrOff e.2.ptr < ptrOff x.base + x.len
  each es (fun e s => s.lcForce (e.1 * 128) (homeOfPtr e.2.ptr)) s

/-- GATE_BAR of an instance: READY and REPEAT of its sites, GO and REP of the root, and what they decide (R217 to R219,
R402).  A gate bar stands before every pattern phase and, so that a repeat is decided there too, before the end of the
image (log entry 52). -/
def State.gateBar (s : State) (n : Nat) : State :=
  match s.inst? n with
  | none => s
  | some i =>
    match i.place.bind s.place? with
    | none => s
    | some p =>
      if i.state ≠ 1 || i.done || i.stopping.isSome || i.bodyAt.isSome then s
      else
        let dyn := (p.phase i.phase).kind == 1
        let n' := if dyn then i.phase + 1 else i.phase
        let ph := p.phase n'
        let bad := ph.kind == 0 && ph.glist ≠ 0 && (s.placeTiles p).any fun t => !(s.gatherRec t ph.glist).1
        if (p.phase i.phase).kind = 2 && i.ran.isNone then s
        else if bad then s.stopInst n 0x15
        else
          let s := if ph.kind = 0 && i.round = 0 && i.ran.isNone then s.cleanExtents i ph else s
          let un := if ph.kind = 0 then s.unlocked i p ph else []
          let again := i.again || (i.readErr && i.errRuns < 2)
          let run := match i.ran, again with
            | some r, true => p.phase r
            | _, _ => ph
          let need := if run.kind = 0 && un.isEmpty then s.neededLines i p run else []
          let room := run.kind ≠ 0 || s.slotRoom i run
          let s := each (List.range 2) (fun d s => s.wr (F.brushPstatHold d) (if room then 0 else 1)) s
          let held := need.any fun a => (s.lineHeld a).isSome
          let go := (!dyn || s.coresEnded p) && un.isEmpty && room && !held && s.bufferRoom need
          if !go then
            let s := each (s.placeTiles p) (fun t s => s.tel t 0x0C 0 1) s
            let s := each un (fun t s => s.tel t 0x0D 0 1) s
            s.setInst n fun x => { x with slips := x.slips + 1 }
          else
            match i.ran, again with
            | some r, true =>
              let s := (s.fillBuffer n need).tel blkDisp 0x07 0 1
              s.setInst n fun x => { x with
                phase := r, bodyAt := some (s.mbar + 1), again := false, readErr := false,
                errRuns := if i.again then x.errRuns else x.errRuns + 1, repeats := x.repeats + 1, since := s.beat }
            | _, _ =>
              let s := s.fillBuffer n need
              let s := (if ph.kind = 1 then s.dynStart p else s).stage i.host i.tag 6
              s.setInst n fun x => { x with
                phase := n', bodyAt := if ph.kind = 0 then some (s.mbar + 1) else none, ran := none, again := false,
                readErr := false, errRuns := 0, since := s.beat }

/-- PHASE_END: a pattern phase's LEN bars have passed; what follows is a gate bar or a dynamic phase (R216, R220). -/
def State.phaseEnd (s : State) (n : Nat) : State :=
  match s.inst? n with
  | none => s
  | some i =>
    match i.place.bind s.place?, i.bodyAt with
    | some p, some b =>
      if i.state ≠ 1 || (s.mbar : Int) < b + (p.phase i.phase).bars then s
      else
        let s := s.freeBuffer i
        let nx := (p.phase (i.phase + 1)).kind
        let s := if nx = 1 then s.dynStart p else s
        s.setInst n fun x => { x with bodyAt := none, ran := some i.phase, phase := i.phase + 1, since := s.beat }
    | _, _ => s

/-! ## Rows -/

/-- What a write of PLAN_CTL does (R139, R141, R474). -/
def State.hookPlanArm (s : State) (k writer : Nat) : Hook :=
  guarded (F.dchPlanCtlArm k).csa (s.reg (F.dchPlanCtlArm k).csa) (fun x => if x.on (F.dchPlanCtlArmed k) then x.planCopy k else x)
    (hookPlanCtl k s.groupRuns writer)

/-- PLAN_ARM for the beat stated in PLAN_AT (R139). -/
def execPlanArm (k : Fin 32) (c : Cmd) (s : State) : Host.Outcome State Fault Refusal :=
  live s fun s => s.dchWrite [(F.dchPlanCtlArm k.val, 1)] c
    (s.hookPlanArm k.val c.writer.toNat)

/-- PLAN_TAKEOVER (R139). -/
def execPlanTakeover (k : Fin 32) (s : State) : Host.Outcome State Fault Refusal :=
  live s fun s => s.planTakeover k.val s.groupRuns

/-- DRAM_POSITION of a subchannel, with the heads of the open classes' queues. -/
def execDramPosition (k : Fin 32) (sub : Fin 2) (heads : List OpenHead) (s : State) : Host.Outcome State Fault Refusal :=
  live s fun s => s.dramPosition k.val sub.val heads

/-- REFRESH_DUE. -/
def execRefreshDue (k : Fin 32) (sub : Fin 2) (s : State) : Host.Outcome State Fault Refusal :=
  live s fun s => s.refreshNow k.val sub.val

/-- PHASE_END of an instance. -/
def execPhaseEnd (i : BitVec 12) (s : State) : Host.Outcome State Fault Refusal := live s fun s => s.phaseEnd i.toNat

end Sys2Proof.Machine
end

