-- ==== Sys2Proof/Machine/Patterns.lean ====
section
/-! DEFINITION. Pattern images: reading and checking an image, placing it, and unloading it (R214, R215, R236 to R246). -/

namespace Sys2Proof.Machine

/-! ## Reading the pool for the T7's own use -/

/-- One line of the pool as the T7 reads it for itself: `none` when it cannot be translated, is held or is poisoned. -/
def State.poolLine (s : State) (ptr : Nat) : Option Line × State :=
  let hm := homeOfPtr ptr
  let (w, s) := s.translate hm (ptrSpace ptr) (ptrOff ptr) false false hm
  match w with
  | .leaf e lg =>
    let (rd, s) := s.readLine (leafDpa e lg (ptrOff ptr) / 128 * 128) 0 hm
    (if rd.poison || rd.held.isSome then none else some rd.data, s)
  | _ => (none, s)

/-- Does a fence hold the read of one of the lines that `n` bytes of the pool touch (R149)? -/
def State.poolHeld (s : State) (ptr n : Nat) : Bool :=
  (List.range (ceilDiv (ptr + n) 128 - ptr / 128)).any fun k =>
    let a := (ptr / 128 + k) * 128
    match (s.translate (homeOfPtr a) (ptrSpace a) (ptrOff a) false false (homeOfPtr a)).1 with
    | .held _ => true
    | .leaf e lg => ((s.readLine (leafDpa e lg (ptrOff a) / 128 * 128) 0 (homeOfPtr a)).1.held).isSome
    | _ => false

/-- `n` bytes of the pool from a pointer on. -/
def State.poolBytes (s : State) (ptr n : Nat) : Option (List Byte) × State :=
  let lo := ptr / 128
  let (ls, s) := (List.range (ceilDiv (ptr + n) 128 - lo)).foldl (fun (acc : Option (List Byte) × State) k =>
    match acc.1 with
    | none => acc
    | some bs =>
      let (l, s) := acc.2.poolLine ((lo + k) * 128)
      (l.map fun d => bs ++ lineBytes d, s)) ((some [], s) : Option (List Byte) × State)
  (ls.map fun bs => sliceZ bs (ptr - lo * 128) n, s)

/-! ## The image (R240 to R242) -/

/-- Strip-local sites of an image, rising; with HEIGHT above 1 every strip uses the same set (DEDUCED, log entry 53). -/
def imageSites (img : List Byte) : List Nat :=
  let h := dN img 15 1
  (List.range h).flatMap fun k => (findAll 80 fun n => tst (dN img 20 12) n).map (80 * k + ·)

/-- TILE index of a strip-local site. -/
def siteTile (strip n : Nat) : Nat :=
  ((findAll 84 fun i => !isSparePos (84 * (strip + n / 80) + i)).getD (n % 80) 0) + 84 * (strip + n / 80)

/-- A phase record (Table PAT-7). -/
def phaseOf (w : Nat) : Phase :=
  ⟨bits w 1 0, bits w 3 2, bits w 23 4, bits w 47 32, bits w 63 48, bits w 83 64, bits w 127 96⟩

/-- Phases of an image. -/
def imagePhases (img : List Byte) : List Phase :=
  (List.range (dN img 17 1)).map fun i => phaseOf (dN (sectOf img 1) (32 * i) 32)

/-- Code bytes of one core: the CODE section holds CORES cores for each used site. -/
def coreCodeLen (img : List Byte) : Nat := (sectOf img 2).length / max 1 ((imageSites img).length * dN img 16 1)

/-- Is a phase record valid? -/
def phaseOk (w : Nat) : Bool :=
  bits w 1 0 ≠ 3 && bits w 3 2 ≠ 3 && bits w 31 24 == 0 && bits w 95 84 == 0 && bits w 255 128 == 0 &&
    (bits w 1 0 ≠ 0 || (1 ≤ bits w 23 4 && bits w 127 96 + 64 * 2 ^ bits w 3 2 ≤ 256))

/-- Does bundle `b` lie in the body of a pattern phase? -/
def inBody (img : List Byte) (b : Nat) : Bool :=
  (imagePhases img).any fun p => p.kind == 0 && p.codeoff ≤ b && b < p.codeoff + 64 * 2 ^ p.period

/-- Check 1 of Table PAT-8: the digest (R241). -/
def imageDigest (img : List Byte) : BitVec 512 := shake256 (sliceZ img 0 192 ++ List.replicate 64 0#8 ++ img.drop 256)
def digestOk (img : List Byte) : Bool := 256 ≤ img.length && (imageDigest img).toNat == dN img 192 64

/-- Check 2: header, section table, phases and code.  The failing section's index, 0 for the header. -/
def formatBad (img : List Byte) (strip : Nat) : Option Nat :=
  let n := dN img 18 1
  let len := dN img 8 4
  let h := dN img 15 1
  let cores := dN img 16 1
  let np := dN img 17 1
  let head := dN img 0 4 == 0x33544150 && len == img.length && bits (dN img 14 1) 7 2 == 0 && [1, 2, 4, 8].contains h &&
    1 ≤ cores && cores ≤ 128 && 1 ≤ np && np ≤ 64 && 1 ≤ n && n ≤ 16 && dZero img 19 1 && bits (dN img 20 12) 95 80 == 0 &&
    strip % h == 0
  if !head then some 0
  else
    match (List.range n).find? fun i =>
      let ty := dN img (64 + 8 * i) 2
      let fl := dN img (66 + 8 * i) 1
      let o := dN img (68 + 8 * i) 4
      let nx := if i + 1 < n then dN img (68 + 8 * (i + 1)) 4 else len
      !(fl ≤ 1 && dZero img (67 + 8 * i) 1 && 256 ≤ o && o ≤ nx && nx ≤ len && ((1 ≤ ty && ty ≤ 8) || (fl = 0 && ty ≠ 0))) with
    | some i => some i
    | none =>
      if !((List.range 8).all fun t => (sectIdx img (t + 1)).isSome) then some 0
      else if (sectOf img 1).length < 32 * np || !((List.range np).all fun i => phaseOk (dN (sectOf img 1) (32 * i) 32)) then
        sectIdx img 1
      else
        let code := sectOf img 2
        let cl := coreCodeLen img
        let ok := code.length == cl * ((imageSites img).length * cores) && cl % 16 == 0 &&
          (List.range (code.length / 16)).all fun b => bundleOk (dN code (16 * b) 16) (inBody img (b % max 1 (cl / 16)))
        if ok then none else sectIdx img 2

/-! ## Placing (R243 to R245) -/

/-- Cores of a site that placements use. -/
def State.coresUsed (s : State) (site : Nat) : List Nat :=
  s.disp.places.flatMap fun p => (p.sites.filter fun e => e.1 == site).flatMap (·.2)

/-- Tile of a strip-relative position. -/
def stripTile (strip row col : Nat) : Nat := 28 * (3 * strip + row) + col

/-- Mesh entries of a placement with their groups, from MESHPLAN entries. -/
def meshOf (strip : Nat) (groups : List (Nat × Nat)) (es : List (Nat × Nat × Nat × Nat × Nat)) : List MeshEnt :=
  es.map fun (row, col, port, cyc, w) =>
    let g := ((groups.find? fun x => x.1 == bits w 12 5).map (·.2)).getD 0
    ⟨stripTile strip row col, port, cyc, setBits w 12 5 g⟩

/-- Put the form of a site for the spare tile that serves it in place of the site's own entries (R245): entries at the
same router, port and cycle give way, and those of the left tile's own inputs and outputs go. -/
def Placement.adopt (p : Placement) (site spare : Nat) : Placement :=
  let n := 80 * (site / 84 - p.strip) + siteNum site
  let k := (findAll 84 fun i => isSparePos (84 * (spare / 84) + i)).idxOf (spare % 84)
  let (_, es, ls) := Config.spareForm (sectOf p.image 8) k n
  let es := meshOf p.strip p.groups es
  let keep := p.mesh.filter fun e =>
    !(es.any fun x => x.tile == e.tile && x.port == e.port && x.cyc == e.cyc) &&
      !(e.tile == site && (e.port == 4 || 4 ≤ meshSrc e.word))
  { p with mesh := keep ++ es, landing := (p.landing.filter fun l => l.1 ≠ site) ++ ls.map fun l => (spare, l.2) }

/-- The tile whose memories serve a site: its server, or its own tile while it has none. -/
def State.tileFor (s : State) (site : Nat) : Nat := (s.server site).getD site

/-- Local groups of an image: those of its mesh plan, and group 1, to which its DRAM and home positions belong (log entry
54). -/
def localGroups (img : List Byte) : List Nat :=
  (dedup (1 :: ((Config.meshPlanOf (sectOf img 4)).map fun (e : Nat × Nat × Nat × Nat × Nat) => bits e.2.2.2.2 12 5))).filter (· ≠ 0)

/-- The placement that an image would become. -/
def State.placementOf (s : State) (img : List Byte) (strip num : Nat) : Placement :=
  let cores := dN img 16 1
  let sites := (imageSites img).map (siteTile strip)
  let used := s.disp.places.flatMap fun p => p.groups.map (·.2)
  let free := findAll 256 fun g => g ≠ 0 && !used.contains g
  let groups := (localGroups img).zip free
  let p : Placement := {
    num := num, opid := dN img 12 2, digest := BitVec.ofNat 512 (dN img 192 64), image := img, maxstep := dN img 14 1,
    strip := strip, height := dN img 15 1,
    sites := sites.map fun t => (t, (findAll 128 fun c => !(s.coresUsed t).contains c).take cores),
    groups := groups, phases := imagePhases img, mesh := meshOf strip groups (Config.meshPlanOf (sectOf img 4)),
    landing := (Config.landingOf (sectOf img 5)).map fun (n, e, b, c) => (siteTile strip n, e, b, c),
    ports := (Config.portMapOf (sectOf img 7)).map fun (n, q, c) => (siteTile strip n, q, c),
    dram := [], home := [], ready := 0, unloading := false, tenant := none }
  sites.foldl (fun p t => match s.server t with
    | some x => if x = t then p else
      let p := p.adopt t x
      { p with ports := p.ports.map fun e => if e.1 = t then (x, e.2) else e }
    | none => p) p

/-- DRAM positions of a channel that a demand binds: for each set and direction the lowest ones that neither the active plan nor
the shadow plan, which DISP will arm, assigns. -/
def State.dramBind (s : State) (dem : List (Nat × Nat × Nat)) (k : Nat) : Option (List (Nat × Nat)) :=
  (List.range 2).foldl (fun acc sub => dem.foldl (fun (acc : Option (List (Nat × Nat))) d =>
    match acc with
    | none => none
    | some l =>
      let ok (q : Nat) (active : Bool) : Bool :=
        let e := s.planEntry k active (64 * sub + q)
        planKind e == 1 && planGroup e == 0 && planSet e == d.1 && planDir e == d.2.1
      let ps := findAll 64 fun q => ok q true && ok q false && !l.contains (k, 64 * sub + q) &&
        !(s.disp.binds.any fun b => b.1 == k && b.2.1 == 64 * sub + q)
      if ps.length < d.2.2 then none else some (l ++ (ps.take d.2.2).map fun q => (k, 64 * sub + q))) acc) (some [])

/-- DRAM positions of every channel that a demand binds. -/
def State.dramAll (s : State) (dem : List (Nat × Nat × Nat)) : Option (List (Nat × Nat)) :=
  (List.range 32).foldl (fun (acc : Option (List (Nat × Nat))) k =>
    match acc, s.dramBind dem k with
    | some l, some x => some (l ++ x)
    | _, _ => none) (some [])

/-- Home plan cycles in use. -/
def State.homeUsed (s : State) : List Nat := s.disp.places.flatMap fun p => p.home.map (·.2)

/-- The first failing check of Table PAT-8 from 3 on, with the failing section. -/
def State.loadChecks (s : State) (img : List Byte) (p : Placement) (dram : Option (List (Nat × Nat))) : Option (Nat × Nat) :=
  let sect (t : Nat) : Nat := (sectIdx img t).getD 0
  let cur := if s.on F.pwrFstepCtlPending then min (s.rd F.pwrFstepCtlCur) (s.rd F.pwrFstepCtlTarget) else s.rd F.pwrFstepCtlCur
  let others := s.disp.places
  let (hr, hw) := Config.homeDemandOf (sectOf img 6)
  let spare := sectOf img 8
  if !(dN img 4 2 == 3 && dN img 6 2 ≤ s.rd F.dispPatStatCmin) then some (3, 0)
  else if cur < p.maxstep then some (4, 0)
  else if p.sites.any fun e => s.tiles.lost.contains e.1 || e.2.length < dN img 16 1 then some (5, 0)
  else if 4096 < coreCodeLen img then some (6, sect 2)
  else if (p.mesh.any fun e => others.any fun o => o.mesh.any fun x => x.tile == e.tile && x.port == e.port && x.cyc == e.cyc) ||
      p.groups.length < (localGroups img).length then some (7, sect 4)
  else if p.landing.any fun l => 191 < l.2.1 || others.any fun o => o.landing.any fun x => x.1 == l.1 && x.2.1 == l.2.1 then
    some (8, sect 5)
  else if p.ports.length ≠ (dedup p.ports).length || p.ports.any fun q => others.any fun o => o.ports.contains q then
    some (9, sect 7)
  else if dram.isNone then some (10, sect 6)
  else if s.rd F.dispPatCtlHshare < s.homeUsed.length + hr + hw then some (11, sect 6)
  else if Config.demandCoherent (sectOf img 6) then some (12, sect 6)
  else if !Config.spareFormsOk spare then some (13, sect 8)
  else if !Config.gateTreesOk img then some (14, sect 4)
  else if !Config.timingOk img then some (15, sect 5)
  else none

/-- Does a tile's shadow plan keep every PATTERN entry of a group with a running instance in SRC and GROUP (R196, R239)? -/
def State.meshKeeps (s : State) (t : Nat) : Bool :=
  let ws := s.regs.filter fun e => t * 0x100000 + 0x8000 ≤ e.1 && e.1 < t * 0x100000 + 0x8000 + 10240
  ws.all fun e => (List.range 4).all fun i =>
    let o := (e.1 - t * 0x100000 - 0x8000) / 2 + i
    let a := bits e.2.toNat (16 * i + 15) (16 * i)
    let b := s.meshEntry false t (o / 1024) (o % 1024)
    !meshPattern a || !s.groupRuns (meshGroup a) || (meshPattern b && meshSrc a == meshSrc b && meshGroup a == meshGroup b)

/-- Write a tile's shadow mesh plan from the placements and arm it for a beat, unless the plan fails the check (R196, R239). -/
def State.armMesh (s : State) (t at_ : Nat) : State :=
  if 672 ≤ t then s
  else
    let base := t * 0x100000 + 0x4000
    let old := (s.regs.filter fun e => base ≤ e.1 && e.1 < base + 10240).map (·.1)
    let s := each old (fun a s => s.setReg a 0) s
    let s := each (s.disp.places.flatMap fun p => p.mesh.filter fun e => e.tile == t) (fun e s => s.setMeshEntry false t e.port e.cyc e.word) s
    if !s.meshKeeps t then s
    else
    let s := (s.wr (F.tileMplanArmed t) 1).wr (F.tileMplanAtBeat t) at_
    s.setTiles fun x => { x with armed := if x.armed.contains t then x.armed else x.armed ++ [t] }

/-- Write every home slice's shadow port plan from the placements and arm them (R230). -/
def State.armHome (s : State) (at_ : Nat) : State :=
  let es := s.disp.places.flatMap fun p => p.home.map fun e => (e, ((p.groups.find? fun g => g.1 == 1).map (·.2)).getD 0)
  let s := each (List.range 64) (fun k s =>
    let base := blkHome k * 0x100000 + 0x4000
    let old := (s.regs.filter fun e => base ≤ e.1 && e.1 < base + 2048).map (·.1)
    let s := each old (fun a s => s.setReg a 0) s
    each es (fun e s => s.setHomeEntry false k e.1.2 (1 + 4 * e.1.1 + 8 * e.2)) s) s
  s.setTiles fun x => { x with harmed := List.range 64, harmedAt := at_ }

/-- Arm the shadow plans of channels for DISP, but for those where a plan is pending: there DISP arms after the takeover (R141). -/
def State.armDram (s : State) (ks : List Nat) (at_ : Nat) : State := each ks (fun k s => s.dispArm k at_ s.groupRuns) s

/-- Would a plan of DISP with these positions bound be refused (Table DRM-7)? -/
def State.dispRefused (s : State) (es : List (Nat × Nat)) (g : Nat) : Bool :=
  let t := s.dispBind es g
  (dedup (es.map (·.1))).any fun k => !s.on (F.dchPlanCtlArmed k) && (t.planCheck k s.groupRuns).isSome

/-- CEIL, PLACED and the counts of owned landing entries follow the placements (R238). -/
def State.placeSync (s : State) (ts : List Nat) : State :=
  let s := (s.wr F.dispPatStatCeil (s.disp.places.foldl (fun m p => max m p.maxstep) 0)).wr F.dispPatStatPlaced s.disp.places.length
  each ts (fun t s => s.wr (F.tileLbPatOwned t)
    (dedup (s.disp.places.flatMap fun p => (p.landing.filter fun l => l.1 == t).map (·.2.1))).length) s

/-- Load a placement's code and preload into the tile that serves a site, in the spare's form where a spare serves it. -/
def State.loadSite (s : State) (p : Placement) (site : Nat) : State :=
  let t := s.tileFor site
  let n := 80 * (site / 84 - p.strip) + siteNum site
  let cl := coreCodeLen p.image
  let cores := dN p.image 16 1
  let idx := (imageSites p.image).idxOf n
  let own := sliceZ (sectOf p.image 2) (idx * cores * cl) (cores * cl)
  let code := if t = site then own
    else (Config.spareForm (sectOf p.image 8) ((findAll 84 fun i => isSparePos (84 * (t / 84) + i)).idxOf (t % 84)) n).1
  let cs := ((p.sites.find? fun e => e.1 == site).map (·.2)).getD []
  let s := each (List.range cs.length) (fun j s => s.imemWrite t (4096 * cs.getD j 0) (sliceZ code (j * cl) cl)) s
  let pre := (Config.preloadOf (sectOf p.image 3)).filter fun e => e.1 == n
  each pre (fun e s => s.spadWrite t e.2.1 [(e.2.2, false)]) s

/-- Tiles of a strip-relative extent of strips. -/
def stripTiles (strip height : Nat) : List Nat := (List.range (84 * height)).map (84 * strip + ·)

/-- LOAD (R243, R244): the first failing check, or a new placement. -/
def State.patternLoad (s : State) (strip : Nat) : State × Nat :=
  let fail (s : State) (c i : Nat) : State × Nat := ((s.wr F.dispPatCmdStatus c).wr F.dispPatCmdFailSect i, fRefused)
  let ptr := s.rd F.dispPatImgPtr
  let (hd, s) := s.poolBytes ptr 256
  match hd with
  | none => fail (s.raise blkDisp 6 none) 1 0
  | some hd =>
    let (img, s) := s.poolBytes ptr (dN hd 8 4)
    match img with
    | none => fail (s.raise blkDisp 6 none) 1 0
    | some img =>
      if !digestOk img then fail s 1 0
      else match formatBad img strip with
        | some i => fail s 2 i
        | none =>
          match findLow 256 fun n => (s.place? n).isNone with
          | none => fail s 5 0
          | some num =>
            let p := s.placementOf img strip num
            let dram := s.dramAll (Config.dramDemandOf (sectOf img 6))
            match s.loadChecks img p dram with
            | some (c, i) => fail s c i
            | none =>
              let (hr, hw) := Config.homeDemandOf (sectOf img 6)
              let cyc := findAll 1024 fun c => !s.homeUsed.contains c
              let home := (cyc.take hr).map (fun c => (0, c)) ++ ((cyc.drop hr).take hw).map fun c => (1, c)
              let at_ := s.eff + 16
              let p := { p with dram := dram.getD [], home := home, ready := at_ + 8 }
              let g := ((p.groups.find? fun x => x.1 == 1).map (·.2)).getD 0
              if s.dispRefused p.dram g then fail s 10 ((sectIdx img 6).getD 0)
              else
              let s := (s.dispBind p.dram g).setDisp fun d => { d with places := d.places ++ [p] }
              let s := (s.armDram (dedup (p.dram.map (·.1))) at_).armHome at_
              let ts := stripTiles strip p.height
              let s := each (ts.filter fun t => p.mesh.any fun e => e.tile == t) (fun t s => s.armMesh t at_) s
              let s := each p.sites (fun e s => s.loadSite p e.1) s
              (((s.placeSync ts).wr F.dispPatCmdStatus 0).wr F.dispPatCmdFailSect 0 |>.wr F.dispPatCmdNewplace num, 0)

/-- Does a LOAD wait for a line of its image that a fence holds (R149)? -/
def State.imageHeld (s : State) : Bool :=
  let ptr := s.rd F.dispPatImgPtr
  s.poolHeld ptr 256 || (match (s.poolBytes ptr 256).1 with | some hd => s.poolHeld ptr (dN hd 8 4) | none => false)

/-- LOAD, or BUSY while a line of the image is held. -/
def State.loadOrWait (s : State) (strip : Nat) : State × Nat :=
  if s.imageHeld then ((s.wr F.dispPatCmdBusy 1).setDisp fun d => { d with loading := some strip }, 0)
  else (s.setDisp fun d => { d with loading := none }).patternLoad strip

/-- A LOAD that waited goes on once its image can be read; its refusal is recorded then. -/
def State.resumeLoad (s : State) : State :=
  match s.disp.loading with
  | none => s
  | some strip =>
    if s.imageHeld then s
    else
      let (s, f) := (s.wr F.dispPatCmdBusy 0).loadOrWait strip
      if f = 0 then s else s.clampEntry blkDisp 0x808 0 f (s.reg F.dispPatCmdGo.csa) (s.reg F.dispPatCmdGo.csa)

/-- What a write of PAT_CMD.GO does (R243, R246). -/
def hookPatCmd : Hook := fun v s =>
  if !tst v 5 then (s, 0)
  else if s.on F.dispPatCmdBusy then (s, fBusy)
  else match s.rd F.dispPatCmdOp with
    | 1 => s.loadOrWait (s.rd F.dispPatCmdStrip)
    | 2 =>
      let n := s.rd F.dispPatCmdPlace
      if (s.place? n).isNone then (s.wr F.dispPatCmdStatus 0, 0)
      else
        let s := s.setDisp fun d => { d with places := d.places.map fun p => if p.num = n then { p with unloading := true } else p }
        ((s.wr F.dispPatCmdBusy 1).wr F.dispPatCmdStatus 0, 0)
    | _ => (s, 0)

/-- UNLOAD_COMPLETE: the placement's last instance has completed, its resources return and the plans are armed without
it (R246). -/
def State.unloadDone (s : State) (n : Nat) : State :=
  match s.place? n with
  | none => s
  | some p =>
    if !p.unloading || s.disp.insts.any fun i => i.place == some n && i.state ≤ 2 then s
    else
      let at_ := s.eff + 16
      let s := (s.dispBind p.dram 0).setDisp fun d => { d with places := d.places.filter fun q => q.num ≠ n }
      let s := (s.armDram (dedup (p.dram.map (·.1))) at_).armHome at_
      let ts := stripTiles p.strip p.height
      let s := each (ts.filter fun t => p.mesh.any fun e => e.tile == t) (fun t s => s.armMesh t at_) s
      (s.placeSync ts).wr F.dispPatCmdBusy 0

/-! ## Rows -/

/-- PATTERN_LOAD into a strip of the image that PAT_IMG names. -/
def execPatternLoad (strip : BitVec 3) (c : Cmd) (s : State) : Host.Outcome State Fault Refusal :=
  live s fun s => s.ctlWrite F.dispPatCmdGo.csa
    (s.compose F.dispPatCmdGo.csa [(F.dispPatCmdStrip, strip.toNat), (F.dispPatCmdOp, 1), (F.dispPatCmdGo, 1)]) c
    (guarded F.dispPatCmdGo.csa (s.reg F.dispPatCmdGo.csa) id hookPatCmd)

/-- PATTERN_UNLOAD of a placement. -/
def execPatternUnload (place : BitVec 8) (c : Cmd) (s : State) : Host.Outcome State Fault Refusal :=
  live s fun s => s.ctlWrite F.dispPatCmdGo.csa
    (s.compose F.dispPatCmdGo.csa [(F.dispPatCmdPlace, place.toNat), (F.dispPatCmdOp, 2), (F.dispPatCmdGo, 1)]) c hookPatCmd

/-- UNLOAD_COMPLETE of a placement. -/
def execUnloadComplete (place : BitVec 8) (s : State) : Host.Outcome State Fault Refusal :=
  live s fun s => s.unloadDone place.toNat

end Sys2Proof.Machine
end

