-- ==== Sys2Proof/Machine/Spares.lean ====
section
/-! DEFINITION. Tile faults, adoption by spares, return and self-test (R206 to R213). -/

namespace Sys2Proof.Machine

/-- Mesh hops between two tiles. -/
def hops (a b : Nat) : Nat :=
  (tileX a - tileX b) + (tileX b - tileX a) + (tileY a - tileY b) + (tileY b - tileY a)

/-- A tile that goes RETIRED or BYPASSED loses what its cores, scratchpad and landing buffer held (Table TIL-5). -/
def State.tileClear (s : State) (t : Nat) : State :=
  s.setTiles fun x => { x with
    cores := x.cores.filter (fun e => e.1 / 128 ≠ t), pend := x.pend.filter (fun p => p.tile ≠ t),
    ports := x.ports.filter (fun p => p.tile ≠ t), spad := x.spad.filter (fun e => e.1 / 2 ^ 20 ≠ t),
    spois := x.spois.filter (fun e => e.1 / 2 ^ 17 ≠ t), counts := x.counts.filter (fun e => e.1 / 16 ≠ t),
    landing := x.landing.filter (fun e => e.1 / 256 ≠ t), imem := x.imem.filter (fun e => e.1 / 2 ^ 19 ≠ t),
    crosses := x.crosses.filter (fun c => c.tile ≠ t), owed := x.owed.filter (fun e => e.1 ≠ t),
    clears := x.clears.filter (fun e => e.1 ≠ t), flips := x.flips.filter (fun e => e.1 / 2 ^ 17 ≠ t),
    net := { x.net with queue := x.net.queue.filter fun e => !(e.tile == t && e.port == 4 && e.sent == 0) },
    inject := x.inject.filter (fun m => mSource m ≠ t), sent := x.sent.filter (fun e => e.1 ≠ t),
    dlds := x.dlds.filter (fun d => d.tile ≠ t), loaded := x.loaded.filter (· ≠ t), testing := x.testing.filter (· ≠ t) }

/-- A router goes bypassed: packets with flits in it are at their ends without further steps, since the mesh drops none (R201). -/
def State.netBypass (s : State) (t : Nat) : State :=
  let hit := (s.tiles.net.bufs.filter fun e => e.1 / 20 == t).flatMap fun e => e.2.map (·.of_)
  s.setNet fun n => { n with
    queue := n.queue.filter (fun e => !hit.contains e.of_ && e.tile ≠ t)
    bufs := (n.bufs.map fun e => (e.1, e.2.filter fun f => !hit.contains f.of_)).filter fun e => !e.2.isEmpty
    passed := n.passed.filter (fun e => match SMap.get [] n.bufs e.1 with
      | f :: _ => !hit.contains f.of_
      | [] => false)
    holds := n.holds.filter (fun e => match e.2 with
      | some (_, p) => !hit.contains p
      | none => false) }

/-- Does a placement's plan turn at a router, or deliver to it or take from it (R211)? -/
def turnsAt (p : Placement) (t : Nat) : Bool :=
  p.mesh.any fun e => e.tile == t && !(e.port < 4 && meshSrc e.word == (e.port + 2) % 4)

/-- End the jobs of every instance on the placements that `f` selects, with TILE_FAULT (R210 step 2). -/
def State.endJobsOn (s : State) (f : Placement → Bool) : State :=
  let js := dedup ((s.disp.insts.filter fun i => i.state == 1 && match i.place.bind s.place? with
    | some p => f p
    | none => false).map fun i => (i.tenant, i.job))
  each js (fun j s => (s.endJob j.1 j.2 0x0B).2) s

/-- A site without a server is adopted by the nearest spare of its group, or is LOST (R210 step 4, R212). -/
def State.adoptSite (s : State) (site : Nat) : State :=
  let g := spareGroup site
  match minBy? (fun t => hops t site * 1024 + t) (findAll 672 fun t => spareGroup t == g && s.tileState t == 1) with
  | some t =>
    let s := ((s.wr (F.tileStateState t) 2).wr (F.tileStateSite t) site).wr (F.tileStateLost site) 0
    s.setTiles fun x => { x with lost := x.lost.filter (· ≠ site), testing := x.testing.filter (· ≠ t) }
  | none =>
    (s.wr (F.tileStateLost site) 1).setTiles fun x => { x with
      lost := if x.lost.contains site then x.lost else insertBy id site x.lost }

/-- A tile fault with a cause of Table TIL-6, as it takes effect (R209 to R212). -/
def State.tileFault (s : State) (t cause : Nat) : State :=
  let st := s.tileState t
  if st = 4 || (st = 3 && cause ≠ 4) then s
  else
    let site := s.rd (F.tileStateSite t)
    let s := s.raise t 6 none
    let s := s.endJobsOn fun p => (st == 0 && p.sites.any fun e => e.1 == site) || (cause == 4 && turnsAt p t)
    let s := if cause = 4 then (s.tileClear t).netBypass t else s.tileClear t
    let s := (s.setTiles fun x => { x with faulty := x.faulty.filter fun f => f.1 ≠ t }).wr (F.tileStateState t) (if cause = 4 then 4 else 3)
    let s := (s.wr (F.tileStateCause t) cause).wr (F.tileStateSite t) 0x3FF
    if st = 0 || st = 2 then s.adoptSite site else s

/-- What a write of TILE.CTL does: RETIRE (R209) or RETURN (R213). -/
def hookTileCtl (t : Nat) : Hook := fun v s =>
  let s := if tst v 0 then s.tileFault t 1 else s
  if !tst v 1 then (s, 0)
  else if s.tileState t ≠ 3 then (s, fState)
  else (s.setTiles fun x => { x with testing := if x.testing.contains t then x.testing else x.testing ++ [t] }, 0)

/-- SPARE_SELF_TEST: a spare's test starts (R209). -/
def State.spareTest (s : State) (t : Nat) : State :=
  if s.tileState t ≠ 1 || s.tiles.testing.contains t then s else s.setTiles fun x => { x with testing := x.testing ++ [t] }

/-- A self-test ends: a returned tile becomes SPARE and may adopt a LOST site of its group, a failing one stays or goes
RETIRED with cause 5 (R209, R213). -/
def State.testDone (s : State) (t : Nat) (pass : Bool) : State :=
  if !s.tiles.testing.contains t then s
  else
    let s := s.setTiles fun x => { x with testing := x.testing.filter (· ≠ t) }
    if s.tileState t = 1 then (if pass then s else s.tileFault t 5)
    else if s.tileState t ≠ 3 then s
    else if !pass then s.wr (F.tileStateCause t) 5
    else
      let s := s.wr (F.tileStateState t) 1
      match s.tiles.lost.find? fun x => spareGroup x == spareGroup t with
      | some site => s.adoptSite site
      | none => s

/-- The site's images are loaded into the adopting spare in its form, and the new plans are armed (R210 step 5, R245). -/
def State.spareLoaded (s : State) (t : Nat) : State :=
  if s.tileState t ≠ 2 || s.tiles.loaded.contains t then s
  else
    let site := s.rd (F.tileStateSite t)
    let mine := s.disp.places.filter fun p => p.sites.any fun e => e.1 == site
    let old := mine.flatMap fun p => p.mesh.map (·.tile)
    let move (p : Placement) : Placement :=
      if !(p.sites.any fun e => e.1 == site) then p
      else
        let p := p.adopt site t
        { p with ports := p.ports.map fun e => if e.1 = site then (t, e.2) else e }
    let s := s.setDisp fun d => { d with places := d.places.map move }
    let new := (s.disp.places.filter fun p => p.sites.any fun e => e.1 == site).flatMap fun p => p.mesh.map (·.tile)
    let s := s.setTiles fun x => { x with loaded := x.loaded ++ [t] }
    each (dedup (old ++ new)) (fun t s => s.armMesh t (s.beat + 1)) s

/-- The takeover bar: a loaded spare becomes ACTIVE with the site's code and preload; one bar later what was held is
released (R210 step 6). -/
def State.spareActive (s : State) (t : Nat) : State :=
  if s.tileState t ≠ 2 || !s.tiles.loaded.contains t || s.tiles.armed.contains t then s
  else
    let site := s.rd (F.tileStateSite t)
    let s := (s.wr (F.tileStateState t) 0).setTiles fun x => { x with loaded := x.loaded.filter (· ≠ t) }
    let mine := s.disp.places.filter fun p => p.sites.any fun e => e.1 == site
    let s := each mine (fun p s => s.loadSite p site) s
    let hold (p : Placement) : Placement :=
      if p.sites.any fun e => e.1 == site then { p with ready := max p.ready (s.beat + s.barBeats) } else p
    let s := s.setDisp fun d => { d with places := d.places.map hold }
    s.placeSync [t, site]

/-! ## Rows -/

/-- TILE_FAULT with its cause (Table TIL-6). -/
def execTileFault (tile : Fin 672) (cause : Fin 6) (s : State) : Host.Outcome State Fault Refusal :=
  live s fun s => if cause.val = 0 then s else s.tileFault tile.val cause.val

/-- TILE_RETIRE: a write of TILE.CTL.RETIRE. -/
def execTileRetire (tile : Fin 672) (c : Cmd) (s : State) : Host.Outcome State Fault Refusal :=
  live s fun s => s.ctlWrite (F.tileCtlRetire tile.val).csa (s.compose (F.tileCtlRetire tile.val).csa [(F.tileCtlRetire tile.val, 1)]) c
    (hookTileCtl tile.val)

/-- SPARE_LOAD_COMPLETE of an adopting spare. -/
def execSpareLoadComplete (tile : Fin 672) (s : State) : Host.Outcome State Fault Refusal := live s fun s => s.spareLoaded tile.val

/-- SPARE_TAKEOVER of a loaded spare. -/
def execSpareTakeover (tile : Fin 672) (s : State) : Host.Outcome State Fault Refusal := live s fun s => s.spareActive tile.val

/-- TILE_RETURN: a write of TILE.CTL.RETURN. -/
def execTileReturn (tile : Fin 672) (c : Cmd) (s : State) : Host.Outcome State Fault Refusal :=
  live s fun s => s.ctlWrite (F.tileCtlReturn tile.val).csa (s.compose (F.tileCtlReturn tile.val).csa [(F.tileCtlReturn tile.val, 1)]) c
    (hookTileCtl tile.val)

/-- TILE_SELF_TEST_DONE. -/
def execTileSelfTestDone (tile : Fin 672) (pass : Bool) (s : State) : Host.Outcome State Fault Refusal :=
  live s fun s => s.testDone tile.val pass

/-- SPARE_SELF_TEST of a spare. -/
def execSpareSelfTest (tile : Fin 672) (s : State) : Host.Outcome State Fault Refusal := live s fun s => s.spareTest tile.val

end Sys2Proof.Machine
end

