-- ==== Sys2Proof/Machine/Operators.lean ====
section
/-! DEFINITION. The operators: how an instance starts, reads and writes the pool, and what each built-in operator computes
(R47, R277, R278, R280, R288 to R303, R308). -/

namespace Sys2Proof.Machine

/-! ## Streams and their locked translations (R47) -/

/-- First tile of the placement on which an instance runs. -/
def State.instTile (s : State) (i : Inst) : Nat :=
  (((i.place.bind s.place?).map s.placeTiles).getD []).headD 0

/-- At dispatch every tile requests the first DEPTH + 1 pages of each sequential stream. -/
def State.streamsOpen (s : State) (i : Inst) : State :=
  each (((i.place.bind s.place?).map s.placeTiles).getD []) (fun t s =>
    each (List.range i.streams.length) (fun k s =>
      let x := strm i.streams k
      if x.gath || x.len = 0 then s
      else s.streamLock i.idx t k x (x.position i t k) (x.depth + 1)) s) s

/-- The access position of a stream at a tile enters the page at an offset: the page DEPTH pages on is requested, the page
before is unlocked. -/
def State.streamEnter (s : State) (n tile k o : Nat) : State :=
  match s.inst? n with
  | none => s
  | some i =>
    let x := strm i.streams k
    if i.state ≠ 1 || x.gath || x.len = 0 || o < ptrOff x.base || ptrOff x.base + x.len ≤ o then s
    else
      let past (t : Tlb) : Bool := t.place == 64 + tile && t.lock == some (n, k) &&
        (if x.dir then o < t.page * 2 ^ t.bits else (t.page + 1) * 2 ^ t.bits ≤ o)
      let s : State := { s with homes := { s.homes with
        tlb := s.homes.tlb.map fun t => if past t then { t with lock := none } else t } }
      (s.setInst n fun i => { i with pos := SMap.insert (SMap.erase i.pos (16 * tile + k)) (16 * tile + k) o }).streamLock n tile k x o
        (x.depth + 1)

/-- Every page that the streams need at their access positions, and that neither is locked nor waits in a fault, is asked for again: a
page that a fence held, or whose entry an invalidation has taken. -/
def State.streamsAgain (s : State) (n : Nat) : State :=
  match s.inst? n with
  | some i => if i.state = 1 && !i.done && i.stopping.isNone && !opBuiltin i.opid then s.streamsOpen i else s
  | none => s

/-! ## Reading and writing the pool (R41, R99, R115, R278, R283) -/

/-- A run of an operator: the state, flags raised, a status that ends it, whether a page is awaited, counts, and the
bytes to write: stream, offset from BASE and bytes with poison. -/
structure Run where
  s : State
  flags : Nat
  stop : Option Nat
  wait : Bool
  poisoned : Nat
  skipped : Nat
  out : List (Nat × Nat × List (Byte × Bool))
  result : BitVec 512
  dyn : Bool

/-- End a run with a status; the first one stands. -/
def Run.fail (r : Run) (st : Nat) : Run := { r with stop := match r.stop with
  | some x => some x
  | none => some st }

/-- Does the instance already wait in a fault for the page of an offset? -/
def State.opWaiting (s : State) (n sp o : Nat) : Bool :=
  let hit (sp' page size cause : Nat) (w : Waiter) : Bool :=
    let lg := if cause = 0 || size = 0 then 16 else if size = 1 then 26 else 37
    w == .inst n && sp' == sp && page * 0x10000 / 2 ^ lg == o / 2 ^ lg
  ((s.homes.faults ++ s.homes.faultWait).any fun f => hit f.space f.page f.size f.cause f.waiter) ||
    s.homes.recs.any fun x => x.state == 1 && x.waiters.any fun w => hit x.space x.page x.size x.cause w

/-- Translate a line for an instance: the leaf with its size, or how the run goes on without it. -/
def Run.walk (r : Run) (i : Inst) (ptr op : Nat) : Walk × Run :=
  let sp := ptrSpace ptr
  let o := ptrOff ptr
  match r.s.rgnAt sp o with
  | none => (.violation, r.fail 0x0E)
  | some _ =>
    let hm := homeOfPtr ptr
    let (w, s) := r.s.translate (64 + r.s.instTile i) sp o false false hm
    let r := { r with s := s }
    match w with
    | .violation => (w, r.fail 0x0F)
    | .error c => (w, r.fail (opStatus c))
    | .held _ => (w, { r with wait := true })
    | .fault c z =>
      let s := if s.opWaiting i.idx sp o then s else s.forwardFault sp o c z hm (.inst i.idx)
      (w, { r with s := s, wait := true })
    | .peer _ e _ =>
      if !s.instPeer i then (w, r.fail 0x14) else if !leafAllows e op then (w, r.fail 0x0F) else (w, r)
    | .leaf e _ => if leafAllows e op then (w, r) else (w, r.fail 0x0F)

/-- Read one line: home copy or pinned version; a line on a peer is asked for through its home. -/
def Run.line (r : Run) (i : Inst) (busy : Bool) (ptr : Nat) : Line × Bool × Run :=
  let hm := homeOfPtr ptr
  let (w, r) := r.walk i ptr 0x120
  match w with
  | .leaf e lg =>
    let o := ptrOff ptr
    let fr := match r.s.rgnAt (ptrSpace ptr) o with
      | some g => (match r.s.pub.pins.find? fun p => p.region == g.id && p.holder == 0x10000 + i.idx with
        | some p => if p.version = g.version then none else r.s.versionFrame g.id p.version (o / 0x10000)
        | none => none)
      | none => none
    let dpa := (match fr with
      | some f => f * 0x10000 + o % 0x10000
      | none => leafDpa e lg o) / 128 * 128
    let (rd, s) := r.s.readLine dpa 0 hm
    let r := { r with s := s.tel blkDisp 0x06 0 1, wait := r.wait || rd.held.isSome }
    (rd.data, rd.poison, r)
  | .peer _ _ _ =>
    match r.s.disp.reads.find? fun x => x.1 == i.idx && x.2.1 == ptr with
    | some (_, _, d, po) => (d, po, r)
    | none =>
      let s := if busy || r.stop.isSome then r.s else r.s.dispAsk (dispReq 4 i.idx ptr i.tenant r.s.beat)
      (0, false, { r with s := s, wait := true })
  | _ => (0, false, r)

/-- PSTOP of the descriptor (Table OPS-5). -/
def Inst.pstop (i : Inst) : Bool := tst (dN i.desc 1 1) 4

/-- Read `n` bytes of a stream from an offset on, each with the poison of its line; beyond the stream's end the data are
malformed (log entry 55). -/
def Run.bytes (r : Run) (i : Inst) (busy : Bool) (k off n : Nat) : List (Byte × Bool) × Run :=
  let x := strm i.streams k
  if x.len < off + n then (List.replicate n (0, false), r.fail 0x15)
  else if n = 0 then ([], r)
  else
    let a := x.base + off
    let lo := a / 128
    let (bs, r) := (List.range (ceilDiv (a + n) 128 - lo)).foldl (fun (acc : List (Byte × Bool) × Run) j =>
      let (d, po, r) := acc.2.line i busy ((lo + j) * 128)
      (acc.1 ++ (lineBytes d).map fun b => (b, po), r)) ([], r)
    let bs := (bs.drop (a - lo * 128)).take n
    (bs, if i.pstop && bs.any (·.2) then r.fail 0x13 else r)

/-- A little-endian number of `n` bytes of a stream, and whether any is poisoned. -/
def Run.num (r : Run) (i : Inst) (busy : Bool) (k off n : Nat) : Nat × Bool × Run :=
  let (bs, r) := r.bytes i busy k off n
  (leNat (bs.map (·.1)), bs.any (·.2), r)

/-- Put bytes into the output. -/
def Run.put (r : Run) (k off : Nat) (bs : List (Byte × Bool)) : Run := { r with out := r.out ++ [(k, off, bs)] }

/-- Pool pointers of the lines that a write of `n` bytes touches. -/
def lineSpan (a n : Nat) : List Nat :=
  if n = 0 then [] else (List.range (ceilDiv (a + n) 128 - a / 128)).map fun j => (a / 128 + j) * 128

/-- Does the written stream go to the host as OpData? -/
def Inst.asPackets (i : Inst) : Bool := i.rpkt

/-- See that every line to be written can be: inside the stream, a region, and a page with the rights. -/
def Run.touch (r : Run) (i : Inst) : Run :=
  r.out.foldl (fun r e =>
    let x := strm i.streams e.1
    if x.len < e.2.1 + e.2.2.length then r.fail 0x15
    else if i.asPackets then r
    else (lineSpan (x.base + e.2.1) e.2.2.length).foldl (fun r p => (r.walk i p 0x122).2) r) r

/-- Write the bytes of one line with a mask. -/
def State.opWriteLine (s : State) (i : Inst) (ptr : Nat) (d : Line) (mask : BitVec 128) (po : Bool) : State :=
  let hm := homeOfPtr ptr
  let req (op : Nat) : HomeReq := { dispReq op i.idx ptr i.tenant s.beat with mask := mask, data := d, poison := po }
  match s.rgnAt (ptrSpace ptr) (ptrOff ptr) with
  | none => s.stopInst i.idx 0x0E
  | some g =>
    if g.mode = 0 then s.dispAsk (req 0x122)
    else if g.mode = 2 then s.dispAsk { req 5 with host := i.host }
    else
      let (w, s) := s.translate (64 + s.instTile i) (ptrSpace ptr) (ptrOff ptr) false false hm
      match w with
      | .leaf e lg =>
        ((s.writeLine (leafDpa e lg (ptrOff ptr) / 128 * 128) d mask po hm).noteWrite ptr).tel blkDisp 0x06 0 1
      | _ => s.dispAsk (req 0x122)

/-- Write bytes of a stream: OpData lines counted from BASE, or masked line writes. -/
def State.opWrite (s : State) (i : Inst) (k off : Nat) (bs : List (Byte × Bool)) : State :=
  let a := if i.asPackets then off else (strm i.streams k).base + off
  each (lineSpan a bs.length) (fun p s =>
    let at_ (j : Nat) : Option (Byte × Bool) := if a ≤ p + j then bs[p + j - a]? else none
    let d : Line := BitVec.ofNat 1024 (leNat ((List.range 128).map fun j => ((at_ j).map (·.1)).getD 0))
    let m : BitVec 128 := BitVec.ofNat 128 ((List.range 128).foldl (fun m j => if (at_ j).isSome then m + 2 ^ j else m) 0)
    let po := (List.range 128).any fun j => ((at_ j).map (·.2)).getD false
    if i.asPackets then s.sendOpData i.idx k p d po else s.opWriteLine i p d m po) s

/-- Outputs of one stream that follow one another are one write, so that OpData lines are whole. -/
def joinOut : List (Nat × Nat × List (Byte × Bool)) → List (Nat × Nat × List (Byte × Bool))
  | [] => []
  | (k, o, bs) :: t => match joinOut t with
    | (k', o', bs') :: t' => if k = k' && o + bs.length = o' then (k, o, bs ++ bs') :: t' else (k, o, bs) :: (k', o', bs') :: t'
    | [] => [(k, o, bs)]

/-! ## Elements -/

/-- FP32 word of an FV. -/
def wide (v : FV) : Nat × Nat := encodeF 0 .rne false v

/-- Element `e` of packed elements of a format (R248). -/
def packed (f : Nat) (bs : List Byte) (e : Nat) : Nat := bits (leNat bs) (fmtBits f * e + fmtBits f - 1) (fmtBits f * e)

/-- Pack elements into bytes. -/
def packElems (f : Nat) (es : List Nat) : List Byte :=
  natLe (fmtBytes f es.length) ((es.zip (List.range es.length)).foldl (fun n x => n + x.1 % 2 ^ fmtBits f * 2 ^ (fmtBits f * x.2)) 0)

/-- Rounding of a narrow store of the descriptor (Table OPS-5, R277): stream `i`, element `k`. -/
def Inst.storeRm (i : Inst) (k e : Nat) : RMode :=
  if bits (dN i.desc 1 1) 3 1 = 4 then .sr (srRandom (dN i.desc 8 8) ((k * 2 ^ 56 + e) % 2 ^ 64)) else .rne

/-- Store an exact value in a format by the descriptor's RM and SATF; FP32 is no narrow store. -/
def Inst.store (i : Inst) (f k e : Nat) (satf : Bool) (v : FV) : Nat × Nat :=
  if f = 0 then encodeF 0 .rne satf v else encodeF f (i.storeRm k e) satf v

def Inst.satf (i : Inst) : Bool := tst (dN i.desc 1 1) 0

/-! ## GATHER-REDUCE (R289 to R292) -/

/-- One row of the table as FP32 words, exact values, flags and poison. -/
def Run.row (r : Run) (i : Inst) (busy : Bool) (row : Nat) : List FV × Bool × Run :=
  let d := i.desc
  let n := dN d 120 2
  let f := bits (dN d 124 1) 3 0
  let (bs, r) := r.bytes i busy 0 (row * dN d 128 4) (fmtBytes f n)
  let raw := bs.map (·.1)
  let po := bs.any (·.2)
  if (strm i.streams 5).len = 0 then ((List.range n).map fun e => decodeF f (packed f raw e), po, r)
  else
    let (sc, r) := r.bytes i busy 5 (row * (n / 32)) (n / 32)
    ((List.range n).map fun e => mxValue f (packed f raw e) (sc.getD (e / 32) (0, false)).1.toNat, po || sc.any (·.2), r)

/-- Reduce one bag: the rows with their weights in lookup order (R291). -/
def bagReduce (i : Inst) (rows : List (List FV × Nat)) : List Nat × Nat :=
  let d := i.desc
  let n := dN d 120 2
  let op := bits (dN d 125 1) 6 4
  let q := sext 16 (dN d 126 2)
  let cnt := rows.length
  let (rcp, rf) := if op = 1 && cnt ≠ 0 then specialF 5 (wide (.fin false cnt 0)).1 else (0, 0)
  let mean (x : Nat × Nat) : Nat × Nat :=
    if op = 1 then
      let (y, g) := mulF32 .rne x.1 rcp
      (y, x.2 ||| g ||| rf)
    else x
  let es := (List.range n).map fun e =>
    let vs := rows.map fun w => (w.1.getD e (.fin false 0 0), w.2)
    if cnt = 0 then (0, 0)
    else if tst (dN d 125 1) 7 then
      let (a, g) := vs.foldl (fun (acc : AccLane × Nat) v =>
        let (p, pf) := mulFV v.1 (.fin false 1 0)
        let (a, f) := acc.1.term p pf
        (a, acc.2 ||| f)) ({ acc0 with q := q }, 0)
      let (x, f) := a.toF32 .rne false
      mean (x, g ||| f)
    else match op with
      | 3 => match vs with
        | [] => (0, 0)
        | v :: t => t.foldl (fun acc v =>
            let (w, wf) := wide v.1
            let (m, f) := maxMinF32 true acc.1 w
            (m, acc.2 ||| f ||| wf)) (wide v.1)
      | 2 => vs.foldl (fun acc v =>
          let (w, wf) := wide v.1
          let (m, f) := fmaF32 .rne v.2 w acc.1
          (m, acc.2 ||| f ||| wf)) (0, 0)
      | _ => mean (vs.foldl (fun acc v =>
          let (w, wf) := wide v.1
          let (m, f) := addF32 .rne acc.1 w
          (m, acc.2 ||| f ||| wf)) (0, 0))
  (es.map Prod.fst, es.foldl (fun (f : Nat) (e : Nat × Nat) => f ||| e.2) 0)

/-- The lookups of every bag: first and end index, and the run, which ends with BAD_DATA at the first bad offset (R292). -/
def Run.bags (r : Run) (i : Inst) (busy : Bool) : List (Nat × Nat) × Run :=
  let d := i.desc
  let nbag := dN d 116 4
  let len := dN d 122 2
  let isz := if tst (dN d 124 1) 4 then 8 else 4
  let cap := (strm i.streams 1).len / isz
  if len ≠ 0 then
    let l := (List.range nbag).map fun b => (b * len, (b + 1) * len)
    (l, if cap < nbag * len then r.fail 0x15 else r)
  else
    let (os, r) := (List.range (nbag + 1)).foldl (fun (acc : List Nat × Run) b =>
      let (v, po, r) := acc.2.num i busy 2 (4 * b) 4
      (acc.1 ++ [v], if po then r.fail 0x13 else r)) ([], r)
    let bad := (List.range nbag).any fun b => os.getD (b + 1) 0 < os.getD b 0
    let r := if bad || os.any (fun o => cap < o || 2 ^ 31 ≤ o) || 2 ^ 26 < os.getD nbag 0 - os.getD 0 0 then r.fail 0x15 else r
    ((List.range nbag).map fun b => (os.getD b 0, os.getD (b + 1) 0), r)

/-- GATHER-REDUCE. -/
def Run.gather (r : Run) (i : Inst) (busy : Bool) : Run :=
  let d := i.desc
  let n := dN d 120 2
  let nrows := dN d 112 4
  let isz := if tst (dN d 124 1) 4 then 8 else 4
  let of_ := bits (dN d 125 1) 3 0
  let wsum := bits (dN d 125 1) 6 4 == 2
  let (bags, r) := r.bags i busy
  if r.stop.isSome || r.wait then r
  else (List.range bags.length).foldl (fun r b =>
    let (lo, hi) := bags.getD b (0, 0)
    let (rows, po, r) := (List.range (hi - lo)).foldl (fun (acc : List (List FV × Nat) × Bool × Run) j =>
      let (rows, po, r) := acc
      let (v, ip, r) := r.num i busy 1 (isz * (lo + j)) isz
      let r := if ip then r.fail 0x13 else r
      let x := sext (8 * isz) v
      if x = -1 then (rows, po, r)
      else if x < 0 || (nrows : Int) ≤ x then (rows, po, { r with skipped := r.skipped + 1 })
      else
        let (w, wp, r) := if wsum then r.num i busy 3 (4 * (lo + j)) 4 else (0, false, r)
        let (vs, p, r) := r.row i busy x.toNat
        (rows ++ [(vs, w)], po || p || wp, r)) ([], false, r)
    let (out, f) := bagReduce i rows
    let es : List (Nat × Nat) := (List.range n).map fun e => i.store of_ 4 (b * n + e) i.satf (decodeF 0 (out.getD e 0))
    let r := { r with flags := if po then r.flags else r.flags ||| f ||| es.foldl (fun (f : Nat) (e : Nat × Nat) => f ||| e.2) 0,
                      poisoned := r.poisoned + (if po then 1 else 0) }
    r.put 4 (b * fmtBytes of_ n) ((packElems of_ (es.map Prod.fst)).map fun x => (x, po))) r

/-! ## SCATTER-ACCUMULATE (R293 to R295) -/

/-- New row and state of an update (R294): the row's FP32 words `w`, the gradient `g`, the state; flags. -/
def scatterUpdate (d : List Byte) (w g : List Nat) (st : Nat) : List Nat × Nat × Nat :=
  let mode := bits (dN d 91 1) 1 0
  let lr := negF32 (dN d 96 4)
  let eps := dN d 100 4
  let addD (ds : List (Nat × Nat)) (f0 : Nat) (st : Nat) : List Nat × Nat × Nat :=
    let rs := (w.zip ds).map fun x =>
      let (y, f) := addF32 .rne x.1 x.2.1
      (y, f ||| x.2.2)
    (rs.map (·.1), st, rs.foldl (fun f x => f ||| x.2) f0)
  match mode with
  | 0 => addD (g.map fun x => (x, 0)) 0 st
  | 1 => addD (g.map fun x => mulF32 .rne lr x) 0 st
  | _ =>
    let (sum, f) := g.foldl (fun acc x =>
      let (y, f) := fmaF32 .rne x x acc.1
      (y, acc.2 ||| f)) (st, 0)
    let (rc, f1) := specialF 5 (wide (.fin false g.length 0)).1
    let (df, f2) := addF32 .rne sum (negF32 st)
    let (m, f3) := mulF32 .rne df rc
    let (st', f4) := addF32 .rne st m
    let (se, f5) := addF32 .rne st' eps
    let (rs, f6) := specialF 6 se
    let (c, f7) := mulF32 .rne lr rs
    addD (g.map fun x => mulF32 .rne c x) (f ||| f1 ||| f2 ||| f3 ||| f4 ||| f5 ||| f6 ||| f7) st'

/-- SCATTER-ACCUMULATE. -/
def Run.scatter (r : Run) (i : Inst) (busy : Bool) : Run :=
  let d := i.desc
  let n := dN d 88 2
  let nrows := dN d 80 4
  let tf := bits (dN d 90 1) 3 0
  let gf := bits (dN d 90 1) 7 4
  let isz := if tst (dN d 91 1) 2 then 8 else 4
  let ada := bits (dN d 91 1) 1 0 == 2
  let stride := dN d 92 4
  -- gradients by distinct row, in order of first appearance
  let (gs, r) := (List.range (dN d 84 4)).foldl (fun (acc : List (Nat × List Nat × Bool) × Run) j =>
    let (gs, r) := acc
    let (v, ip, r) := r.num i busy 1 (isz * j) isz
    let r := if ip then r.fail 0x13 else r
    let x := sext (8 * isz) v
    if x = -1 then (gs, r)
    else if x < 0 || (nrows : Int) ≤ x then (gs, { r with skipped := r.skipped + 1 })
    else
      let (bs, r) := r.bytes i busy 2 (j * fmtBytes gf n) (fmtBytes gf n)
      let raw := bs.map (·.1)
      let po := bs.any (·.2)
      let g := (List.range n).map fun e => wide (decodeF gf (packed gf raw e))
      let fl := g.foldl (fun f e => f ||| e.2) 0
      match gs.find? fun y => y.1 == x.toNat with
      | none => (gs ++ [(x.toNat, g.map (·.1), po)], { r with flags := r.flags ||| fl })
      | some y =>
        let sum := (y.2.1.zip g).map fun z => addF32 .rne z.1 z.2.1
        let fl := sum.foldl (fun f e => f ||| e.2) fl
        (gs.map fun z => if z.1 = x.toNat then (z.1, sum.map (·.1), z.2.2 || po) else z,
         { r with flags := r.flags ||| fl })) ([], r)
  gs.foldl (fun r g =>
    let (row, gv, gp) := g
    let (bs, r) := r.bytes i busy 0 (row * stride) (fmtBytes tf n)
    let (st, sp, r) := if ada then r.num i busy 3 (4 * row) 4 else (0, false, r)
    if bs.any (·.2) || sp then { r with poisoned := r.poisoned + 1 }
    else
      let raw := bs.map (·.1)
      let w := (List.range n).map fun e => (wide (decodeF tf (packed tf raw e))).1
      let (w', st', f) := scatterUpdate d w gv st
      let es : List (Nat × Nat) := (List.range n).map fun e => i.store tf 0 (row * stride * 8 / fmtBits tf + e) i.satf (decodeF 0 (w'.getD e 0))
      let r := { r with flags := if gp then r.flags else r.flags ||| f ||| es.foldl (fun (f : Nat) (e : Nat × Nat) => f ||| e.2) 0,
                        poisoned := r.poisoned + (if gp then 1 else 0) }
      let r := r.put 0 (row * stride) ((packElems tf (es.map Prod.fst)).map fun x => (x, gp))
      if ada then r.put 3 (4 * row) ((natLe 4 st').map fun x => (x, gp)) else r) r

/-! ## PREFIX-ATTEND (R296 to R298) -/

/-- FP32 words of `n` elements of a format. -/
def words (f : Nat) (bs : List Byte) (n : Nat) : List Nat := (List.range n).map fun e => (wide (decodeF f (packed f bs e))).1

/-- Partial of one chunk (R297 steps 3 and 4): O and L. -/
def attendChunk (vf vsc hd : Nat) (ss : List Nat) (vs : List (List Nat)) : List Nat × Nat :=
  let b (x : Nat) : BitVec 32 := BitVec.ofNat 32 x
  let m := match ss with
    | [] => 0xFF800000
    | x :: t => t.foldl (fun a y => (maxMinF32 true a y).1) x
  let ps := ss.map fun x => (specialF 1 (addF32 .rne x (negF32 m)).1).1
  let sum := (Config.attendSum (ps.map b)).toNat
  let l := (addF32 .rne m (specialF 3 sum).1).1
  let p' := ps.map fun p =>
    if vf = 2 then (wide (decodeF 2 (encodeF 2 .rne false (decodeF 0 p)).1)).1
    else (wide (decodeF 3 (encodeF 3 .rne false (scaleFV (decodeF 0 p) 8)).1)).1
  let den := if vf = 2 then sum else (wide (scaleFV (decodeF 0 sum) 8)).1
  let o := (List.range hd).map fun e =>
    let num := Config.attendSum ((p'.zip vs).map fun x => b (mulF32 .rne x.1 (x.2.getD e 0)).1)
    (Config.attendOut (b vsc) num (b den)).toNat
  (o, l)

/-- Cut a list into chunks of `n`, at most `fuel`. -/
def chunksOf {α : Type} (n : Nat) : Nat → List α → List (List α)
  | 0, _ => []
  | _, [] => []
  | fuel + 1, l => l.take n :: chunksOf n fuel (l.drop n)

/-- PREFIX-ATTEND. -/
def Run.attend (r : Run) (i : Inst) (busy : Bool) (digest : BitVec 512) : Run :=
  let d := i.desc
  let ntok := dN d 96 4
  let cap := dN d 100 4
  let nkv := dN d 104 1
  let nq := dN d 105 1
  let nseq := dN d 106 2
  let hd := hdim (dN d 108 1)
  let kf := bits (dN d 109 1) 3 0
  let vf := bits (dN d 109 1) 7 4
  let qf := bits (dN d 110 1) 3 0
  let of_ := bits (dN d 110 1) 7 4
  let b (x : Nat) : BitVec 32 := BitVec.ofNat 32 x
  let (kvs, r) := (List.range nkv).foldl (fun (acc : List (List (List Nat) × List (List Nat) × Bool) × Run) h =>
    let (ks, r) := acc.2.bytes i busy 0 (fmtBytes kf (h * cap * hd)) (if ntok = 0 then 0 else fmtBytes kf (ntok * hd))
    let (vs, r) := r.bytes i busy 1 (fmtBytes vf (h * cap * hd)) (if ntok = 0 then 0 else fmtBytes vf (ntok * hd))
    let cut (f : Nat) (bs : List (Byte × Bool)) : List (List Nat) :=
      (List.range ntok).map fun t => words f (((bs.map (·.1)).drop (t * fmtBytes f hd)).take (fmtBytes f hd)) hd
    (acc.1 ++ [(cut kf ks, cut vf vs, ks.any (·.2) || vs.any (·.2))], r)) ([], r)
  if r.stop.isSome || r.wait then r
  else (List.range (nseq * nq)).foldl (fun r x =>
    let q := x % nq
    let h := q / max 1 (nq / max 1 nkv)
    let (ks, vs, kp) := kvs.getD h ([], [], false)
    let (qb, r) := r.bytes i busy 2 (fmtBytes qf (x * hd)) (fmtBytes qf hd)
    let qraw := qb.map (·.1)
    let qv := (List.range hd).map fun e =>
      let v := decodeF qf (packed qf qraw e)
      (wide (if kf ≠ 2 && qf = 2 then decodeF 3 (encodeF 3 .rne true v).1 else v)).1
    let po := kp || qb.any (·.2)
    let ss := ks.map fun k => (Config.attendScore (b (dN d 112 4)) (b (dN d 116 4)) (Config.attendDot (qv.map b) (k.map b))).toNat
    let cs := max 1 (Config.attendChunk digest)
    let parts := (chunksOf cs ntok (ss.zip vs)).map fun c => attendChunk vf (dN d 120 4) hd (c.map (·.1)) (c.map (·.2))
    let (o, l, f) := match parts with
      | [] => (List.replicate hd 0, 0xFF800000, 0)
      | p :: t => t.foldl (fun (acc : List Nat × Nat × Nat) (y : List Nat × Nat) =>
          let (o, l, f) := lseMerge acc.1 acc.2.1 y.1 y.2
          (o, l, acc.2.2 ||| f)) (p.1, p.2, 0)
    let es : List (Nat × Nat) := o.map fun w => encodeF of_ .rne i.satf (decodeF 0 w)
    let f := f ||| (Config.attendFlags (qv.map b) (ss.map b)).toNat
    let r := { r with flags := if po then r.flags else r.flags ||| f ||| es.foldl (fun (f : Nat) (e : Nat × Nat) => f ||| e.2) 0,
                      poisoned := r.poisoned + (if po then 1 else 0) }
    let r := r.put 3 (fmtBytes of_ (x * hd)) ((packElems of_ (es.map Prod.fst)).map fun y => (y, po))
    r.put 4 (4 * x) ((natLe 4 l).map fun y => (y, po))) r

/-! ## KV-APPEND (R299, R300) -/

/-- Append one side: input stream, output stream, its format and its scale. -/
def Run.append (r : Run) (i : Inst) (busy : Bool) (src dst f scale : Nat) : Run :=
  let d := i.desc
  let pos := dN d 80 4
  let nkv := dN d 86 1
  let hd := hdim (dN d 87 1)
  let inf := dN d 89 1
  let cap := dN d 92 4
  let rc := decodeF 0 (specialF 5 scale).1
  let r := { r with flags := r.flags ||| (specialF 5 scale).2 }
  (List.range (dN d 84 2 * nkv)).foldl (fun r x =>
    let h := x % nkv
    let k := (h * cap + pos + x / nkv) * hd
    let (bs, r) := r.bytes i busy src (fmtBytes inf (x * hd)) (fmtBytes inf hd)
    let raw := bs.map (·.1)
    let es : List (Nat × Nat) := (List.range hd).map fun e =>
      let (p, g) := mulFV (decodeF inf (packed inf raw e)) rc
      let (w, t) := encodeF f (i.storeRm dst (k + e)) true p
      (w, g ||| t)
    let pb : Nat → Bool := fun e => (List.range (fmtBytes inf 1)).any fun y => (bs.getD (e * fmtBytes inf 1 + y) (0, false)).2
    let po := bs.any (·.2)
    let r := { r with flags := r.flags ||| ((es.zip (List.range hd)).foldl (fun (a : Nat) (e : (Nat × Nat) × Nat) => if pb e.2 then a else a ||| e.1.2) 0),
                      poisoned := r.poisoned + (if po then 1 else 0) }
    let out := packElems f (es.map Prod.fst)
    r.put dst (fmtBytes f k) ((out.zip (List.range out.length)).map fun y => (y.1, pb (y.2 / fmtBytes f 1)))) r

/-! ## COPY, FILL and CHECKSUM (R301 to R303) -/

/-- Does COPY or FILL run in slot phases: the modes, no peer leaf, and at least 1 MiB (R301). -/
def State.slotPath (s : State) (i : Inst) (src : Bool) : Bool :=
  let dst := strm i.streams (if src then 1 else 0)
  let mode (x : Strm) : Nat := ((s.rgnAt (ptrSpace x.base) (ptrOff x.base)).map (·.mode)).getD 0
  let peer (x : Strm) : Bool := (lineSpan x.base x.len).any fun p =>
    match (s.walk (homeOfPtr p) (ptrSpace p) (ptrOff p) false false (homeOfPtr p)).1 with
    | .peer _ _ _ => true
    | _ => false
  let sx := strm i.streams 0
  decide (2 ^ 20 ≤ dst.len) && mode dst == 1 && !peer dst && (!src || (mode sx ≠ 0 && !peer sx))

/-- COPY. -/
def Run.copy (r : Run) (i : Inst) (busy : Bool) : Run :=
  let n := (strm i.streams 0).len
  let dst := (strm i.streams 1).base
  let r := { r with dyn := !r.s.slotPath i true }
  let (bs, r) := r.bytes i busy 0 0 n
  let bad := (lineSpan dst n).filter fun p => (List.range 128).any fun j => dst ≤ p + j && (bs.getD (p + j - dst) (0, false)).2
  ({ r with poisoned := r.poisoned + bad.length }).put 1 0 bs

/-- FILL. -/
def Run.fill (r : Run) (i : Inst) : Run :=
  let n := (strm i.streams 0).len
  let pl := max 1 (dN i.desc 32 1)
  ({ r with dyn := !r.s.slotPath i false }).put 0 0 ((List.range n).map fun j => (BitVec.ofNat 8 (dN i.desc (40 + j % pl) 1), false))

/-- CHECKSUM. -/
def Run.checksum (r : Run) (i : Inst) (busy : Bool) : Run :=
  let n := (strm i.streams 0).len
  let alg := dN i.desc 48 1
  let (bs, r) := r.bytes i busy 0 0 n
  let raw := bs.map (·.1)
  if bs.any (·.2) then r.fail 0x13
  else
    let r := { r with result := if alg = 1 then shake256 raw else (crc64 raw).zeroExtend 512 }
    if alg ≠ 2 then r
    else (List.range (ceilDiv n 0x10000)).foldl (fun r u =>
      r.put 1 (8 * u) ((natLe 8 (crc64 ((raw.drop (u * 0x10000)).take 0x10000)).toNat).map fun x => (x, false))) r

/-! ## Running (R280, R281) -/

/-- Do the work of a built-in operator that runs: all of it, unless a page is awaited; an end by status is kept with the
instance. -/
def State.opWork (s : State) (n : Nat) : State :=
  match s.inst? n with
  | none => s
  | some i =>
    if i.state ≠ 1 || i.done || i.stopping.isSome || !opBuiltin i.opid then s
    else
      let busy := s.dispBusy n
      let r : Run := ⟨s, 0, none, false, 0, 0, [], 0, false⟩
      let dg := ((i.place.bind s.place?).map (·.digest)).getD 0
      let r := match i.opid with
        | 1 => r.gather i busy
        | 2 => r.scatter i busy
        | 3 => r.attend i busy dg
        | 4 => (r.append i busy 2 0 (bits (dN i.desc 88 1) 3 0) (dN i.desc 96 4)).append i busy 3 1
            (bits (dN i.desc 88 1) 7 4) (dN i.desc 100 4)
        | 5 => r.copy i busy
        | 6 => r.fill i
        | _ => r.checksum i busy
      let r := { r with out := joinOut r.out }
      let r := if r.stop.isSome || r.wait then r else r.touch i
      match r.stop with
      | some c => (r.s.setInst n fun x => { x with skipped := r.skipped, dyn := r.dyn }).stopInst n c
      | none =>
        if r.wait then r.s.setInst n fun x => { x with dyn := r.dyn }
        else
          let s := each r.out (fun e s => s.opWrite i e.1 e.2.1 e.2.2) r.s
          s.setInst n fun x => { x with
            done := true, flags := x.flags ||| r.flags, skipped := r.skipped, result := r.result, dyn := r.dyn,
            poisoned := if i.asPackets then x.poisoned else r.poisoned }

/-- Start the next instance of an operator: its streams are opened, a built-in operator does its work, an image operator
begins its first phase. -/
def State.opStart (s : State) (opid : Nat) : State :=
  match s.startInst opid with
  | (none, s) => s
  | (some i, s) =>
    let s := s.streamsOpen i
    if opBuiltin opid then s.opWork i.idx
    else match i.place.bind s.place? with
      | some p => if (p.phase 0).kind = 1 then s.dynStart p else s
      | none => s

/-! ## Rows -/

/-- GATHER_REDUCE. -/
def execGatherReduce (s : State) : Host.Outcome State Fault Refusal := live s fun s => s.opStart 1

/-- SCATTER_ACCUMULATE. -/
def execScatterAccumulate (s : State) : Host.Outcome State Fault Refusal := live s fun s => s.opStart 2

/-- PREFIX_ATTEND. -/
def execPrefixAttend (s : State) : Host.Outcome State Fault Refusal := live s fun s => s.opStart 3

/-- KV_APPEND. -/
def execKvAppend (s : State) : Host.Outcome State Fault Refusal := live s fun s => s.opStart 4

/-- COPY. -/
def execCopy (s : State) : Host.Outcome State Fault Refusal := live s fun s => s.opStart 5

/-- FILL. -/
def execFill (s : State) : Host.Outcome State Fault Refusal := live s fun s => s.opStart 6

/-- CHECKSUM. -/
def execChecksum (s : State) : Host.Outcome State Fault Refusal := live s fun s => s.opStart 7

/-- IMAGE_OPERATOR of an operator code that an image defines. -/
def execImageOperator (opid : BitVec 16) (s : State) : Host.Outcome State Fault Refusal :=
  live s fun s => if opBuiltin opid.toNat then s else s.opStart opid.toNat

/-- GATE_BAR of an instance; a built-in operator that awaited a page goes on with its work. -/
def execGateBar (i : BitVec 12) (s : State) : Host.Outcome State Fault Refusal :=
  live s fun s => ((s.streamsAgain i.toNat).gateBar i.toNat).opWork i.toNat

/-- STREAM_PREFETCH: the access position of a stream at a tile enters the page at an offset in 64 KiB units (R47). -/
def execStreamPrefetch (i : BitVec 12) (tile : Fin 672) (stream : Fin 12) (page : BitVec 32) (s : State) :
    Host.Outcome State Fault Refusal :=
  live s fun s => s.streamEnter i.toNat tile.val stream.val (page.toNat * 0x10000)

end Sys2Proof.Machine
end

