-- ==== Sys2Proof/Machine/Regions.lean ====
section
/-! DEFINITION. Regions becoming active and inactive, and the invalidation of cached translations (R33 to R38, R45, R46,
R103, R154, R159). -/

namespace Sys2Proof.Machine

/-! ## Activation (R36, Table ADR-4) -/

/-- Role of the strap band (R449): 0 standalone, 1 pair primary, 2 pair secondary, 3 bench. -/
def State.strapRole (s : State) : Nat := s.rd F.rstStrapBand / 4

/-- Is a tenant ACTIVE (R466)? -/
def State.tenantActive (s : State) (t : Nat) : Bool := SMap.get 0 s.sec.tenants t == 1

/-- SRAM frames that active regions pin. -/
def State.pinnedFrames (s : State) : Nat := (s.rgns.map fun r => if r.tier = 0 then r.len else 0).foldl (· + ·) 0

/-- The first failing check of Table ADR-4 for a region record, given its space entry; 0 when all pass. -/
def State.activateCheck (s : State) (g : Rgn) (e : SpaceEnt) : Nat :=
  if !e.v || g.len = 0 || e.limit * 2 ^ 21 < g.base + g.len then 1
  else if s.rgns.any fun r => r.id ≠ g.id && r.space == g.space && r.base < g.base + g.len && g.base < r.base + r.len then 2
  else if g.tenant ≠ e.tenant || !s.tenantActive g.tenant then 3
  else if g.mode = 3 || 3 < g.pcode || g.tier = 3 then 4
  else if g.mirror && !(g.mode ≠ 0 && (s.strapRole = 1 || s.strapRole = 2) && s.on F.homeMirCtlEn) then 5
  else if g.tier = 0 && s.rd F.percSramCtlFrames - s.rd F.percSramCtlStgRes < s.pinnedFrames + g.len then 6
  else if (s.rgn? g.id).isSome then 7
  else 0

/-- The region record of Table ADR-3 as ACTIVATE reads it: words 0 to 4. -/
def State.rgnRecord (s : State) (id : Nat) : Nat × LineRd × State := s.readBytes (s.rgnDpa id) 40 0

/-- Words 0 to 4 as the T7 keeps them from activation on: V set, VERSION 0 (R103), no staging, one version retained, and
ALONE when this chip serves mirrored regions alone (Table MOD-3). -/
def State.rgnStart (s : State) (w : Nat) : Nat :=
  let g := rgnOf 0 w
  setBits (w % 2 ^ 128) 0 0 1 + (if g.mode = 2 then 2 ^ 205 else 0) + (if g.mirror && s.alone then 2 ^ 256 else 0)

/-- ACTIVATE (R36): the state, the STATUS and whether the command has ended; it waits on a line that a fence holds. -/
def State.rgnActivate (s : State) (id : Nat) : State × Option Nat :=
  let (w, r, s) := s.rgnRecord id
  let g := rgnOf id w
  let (e, q, s) := s.spaceEnt g.space 0
  if r.held.isSome || q.held.isSome then (s, none)
  else if r.poison || q.poison then (s.raise (blkHome 0) 6 none, some 8)
  else
    match s.activateCheck g e with
    | 0 =>
      let s := s.setRgn id (s.rgnStart w)
      let prec := (s.readBytes (s.rgnDpa id + 40) 4 0).1
      let s := if g.tier = 2 && s.rd F.percAreaRecLen * 8192 < prec + g.len then s.raise (blkPerc 0) 9 none else s
      ((((s.recount g).coldSync g true).sramLoad g), some 0)
    | c + 1 => (s, some (c + 1))

/-! ## Deactivation (R38) -/

/-- Is a request's address in a region, and is it one that a deactivation answers (not a back-invalidation or copy)? -/
def Rgn.waits (g : Rgn) (r : HomeReq) : Bool := r.op < 0x200 && g.covers (ptrSpace r.addr) (ptrOff r.addr)

/-- Requests of the region whose transactions have not opened complete with REGION_GONE. -/
def State.rgnRequests (s : State) (g : Rgn) : State :=
  let gone := (s.homes.chain ++ s.homes.pendq ++ s.homes.chanWait ++ s.mir.held ++ s.mir.readHeld).filter fun e => g.waits e.2
  let keep (l : List (Nat × HomeReq)) : List (Nat × HomeReq) := l.filter fun e => !g.waits e.2
  let s := { s with
    homes := { s.homes with
      chain := keep s.homes.chain, pendq := keep s.homes.pendq, chanWait := keep s.homes.chanWait },
    mir := { s.mir with held := keep s.mir.held, readHeld := keep s.mir.readHeld } }
  each gone (fun e s => s.failReq e.1 e.2 stGone) s

/-- Open transactions of a region whose tenant is torn down (R467): those that still await answers complete with
REGION_GONE and go on as back-invalidations that drop dirty data; those held for a channel end. -/
def State.rgnTxns (s : State) (g : Rgn) : State :=
  each (s.homes.txns.filter fun t => g.waits t.req) (fun t s =>
    match t.stage with
    | .snoop => (s.failReq t.home t.req stGone).putTxn { t with
        req := { binvReq t.line (jobTenant g.tenant) true none with arrive := t.req.arrive } }
    | .chan _ => (s.failReq t.home t.req stGone).closeTxn t
    | _ => s) s

/-- What the publish homes keep for a region ends: stagings, accepted publishes, pins, subscriptions and the frames of
replaced versions (R110, R115; the answer NOT_PUBLISHED is Table MOD-4's for a region that is not active). -/
def State.rgnPublish (s : State) (g : Rgn) : State :=
  let hosts := dedup ((s.pub.stagings.filter fun x => x.region == g.id).map (·.host) ++
    (s.pub.copies.filter fun x => x.region == g.id).map (·.host))
  let s := each hosts (fun h s => s.dropStaging g.id h (some stGone)) s
  let cs := s.pub.commits.filter fun c => c.region == g.id
  let s := { s with pub := { s.pub with
    commits := s.pub.commits.filter (fun c => c.region ≠ g.id), subs := s.pub.subs.filter (fun e => e.1 ≠ g.id) } }
  let s := each cs (fun c s =>
    let s := each c.pages (fun p s => s.returnFrame p.2) s
    each (c.rsp :: c.stale) (fun r s => s.rspPub r 7 0) s) s
  s.unpin g.id fun _ => true

/-- Lines of a region in the home line caches are written back, or dropped (R38, R471). -/
def State.rgnLines (s : State) (g : Rgn) (drop : Bool) : State :=
  each (s.homes.lc.filter fun e => g.covers (ptrSpace e.2.ptr) (ptrOff e.2.ptr)) (fun e s =>
    if drop then s.lcDrop (e.1 * 128)
    else if e.2.dirty then s.lcClean (e.1 * 128) (homeOfPtr e.2.ptr) else s) s

/-- The flash extents of a tiered region are released with Dataset Management deallocate (R467). -/
def State.rgnExtents (s : State) (g : Rgn) : State :=
  each ((List.range (g.len / 16 + 2)).map fun k => max g.base ((g.base / 16 + k) * 16)) (fun page s =>
    if g.base ≤ page && page < g.base + g.len && tst (s.pageRec g page) 40 then s.freeExtent g page else s) s

/-- While no SRAM-pinned region is active the staging reserve of the SRAM tier is the frames at the end of the window (R164). -/
def State.sramReserve (s : State) : State :=
  if s.rgns.any fun r => r.tier == 0 then s
  else { s with pub := { s.pub with
    taken := s.pub.taken.filter (fun f => !s.inSram f), joined := s.pub.joined.filter fun f => !s.inSram f } }

/-- A region leaves every range cache (R38); `drop` when its tenant is torn down, whose dirty data are dropped and whose
extents are released. -/
def State.rgnDrop (s : State) (g : Rgn) (drop : Bool) : State :=
  let w := (s.rgnRecord g.id).1
  let s := s.coldSync g false
  let s := if drop && g.tier = 2 && 0 < s.rd F.percAreaRecLen then s.rgnExtents g else s
  let s := s.flashAbandon g
  let s := { s with homes := { s.homes with regions := SMap.erase s.homes.regions g.id } }
  let s := s.writeBytes (s.rgnDpa g.id) (natLe 8 (setBits (w % 2 ^ 64) 0 0 0)) 0
  let s := each (List.range 256) (fun t s =>
    if s.on (F.homeTpageEn t) && s.rd (F.homeTpageRegion t) = g.id then s.wr (F.homeTpageEn t) 0 else s) s
  let s := if drop then s else s.regionInsts g
  let s := (s.rgnRequests g).faultsGone g.id
  let s := if drop then s.rgnTxns g else s
  let s := ((s.rgnPublish g).sramReserve).rgnLines g drop
  let job := if drop then jobTenant g.tenant else jobRegion g.id
  let s := { s with homes := { s.homes with leaving := s.homes.leaving ++ [(⟨job, g.space, g.base, g.len, drop⟩ : Leaving)] } }
  let s := s.binvJob job drop none fun e => g.covers (ptrSpace e.2.ptr) (ptrOff e.2.ptr)
  (each (List.range 64) (fun hm s => (s.retryTxns hm).settle hm) s).resumeInvokes

/-! ## RGN_CMD -/

/-- End a region command with its STATUS: the flag of its clamp report entry. -/
def State.rgnEnd (s : State) (st : Nat) : State × Nat :=
  ((s.wr F.homeRgnCmdBusy 0).wr F.homeRgnCmdStatus st, if st = 0 then 0 else fRefused)

/-- Run ACTIVATE of the region in RGN_CMD; BUSY while it waits for a held line. -/
def State.rgnRun (s : State) : State × Nat :=
  match s.rgnActivate (s.rd F.homeRgnCmdRegion) with
  | (s, some st) => s.rgnEnd st
  | (s, none) => (s.wr F.homeRgnCmdBusy 1, 0)

/-- What RGN_CMD.GO does. -/
def hookRgn : Hook := fun v s =>
  if !tst v 18 then (s, 0)
  else if s.on F.homeRgnCmdBusy then (s, fBusy)
  else
    match s.rd F.homeRgnCmdOp with
    | 1 => s.rgnRun
    | 2 => match s.rgn? (s.rd F.homeRgnCmdRegion) with
      | some g => (s.rgnDrop g false).rgnEnd 0
      | none => s.rgnEnd 9
    | _ => (s, 0)

/-- A held region command goes on once a channel has been released; its refusal is recorded then. -/
def State.rgnResume (s : State) : State :=
  if !s.on F.homeRgnCmdBusy then s
  else
    let (s, f) := s.rgnRun
    if f = 0 then s
    else s.clampEntry (blkHome 0) 0x210 0 f (s.reg F.homeRgnCmdGo.csa) (s.reg F.homeRgnCmdGo.csa)

/-- Write RGN_CMD with GO. -/
def State.rgnWrite (s : State) (id op : Nat) (c : Cmd) : State :=
  s.ctlWrite F.homeRgnCmdGo.csa (s.compose F.homeRgnCmdGo.csa
    [(F.homeRgnCmdRegion, id), (F.homeRgnCmdOp, op), (F.homeRgnCmdGo, 1)]) c
    (guarded F.homeRgnCmdGo.csa (s.reg F.homeRgnCmdGo.csa) (fun x => x) hookRgn)

/-! ## Invalidation of translations (R45, R46) -/

/-- Does an address lie in what the invalidation under way covers: its range and each large page it dropped? -/
def State.invCovers (s : State) (ptr : Nat) : Bool :=
  s.homes.xltCover.any fun c => ptrSpace ptr == c.1 && decide (c.2.1 * 0x10000 ≤ ptrOff ptr) &&
    decide (ptrOff ptr < (c.2.1 + c.2.2) * 0x10000)

/-- What XLT_INV.GO does: matching cached entries are dropped everywhere, and the locked ones of a stream are walked
again. -/
def hookXltInv : Hook := fun v s =>
  if !tst v 11 then (s, 0)
  else if s.on F.homeXltInvBusy then (s, fBusy)
  else
    let s := (s.wr F.homeXltInvBusy 1).wr F.homeXltInvDone 0
    let sp := s.rd F.homeXltInvSpace
    let old := s.homes.tlb
    let range := if s.on F.homeXltInvAll then (sp, 0, 2 ^ 32) else (sp, s.rd F.homeXltInvBase, s.rd F.homeXltInvCount)
    let s := s.tlbDrop sp (s.on F.homeXltInvAll) range.2.1 range.2.2
    let gone := old.filter fun t => !s.homes.tlb.contains t
    let large := (gone.filter fun t => t.bits ≠ 16).map fun t => (sp, t.page * 2 ^ (t.bits - 16), 2 ^ (t.bits - 16))
    let s := { s with homes := { s.homes with xltAt := s.beat, xltCover := range :: large } }
    let locks := gone.filter fun t => t.lock.isSome
    (each locks (fun (t : Tlb) (s : State) =>
      match t.lock.bind fun l => (s.inst? l.1).map fun i => (i, l.2) with
      | some (i, k) =>
        let x := strm i.streams k
        let o := if x.dir then min ((t.page + 1) * 2 ^ t.bits - 1) (ptrOff x.base + x.len - 1) else max (t.page * 2 ^ t.bits) (ptrOff x.base)
        s.streamLock i.idx (t.place - 64) k x o 1
      | none => s) s, 0)

/-- XLT_INV_DONE: no access issued with a dropped translation is still open (R46). -/
def State.xltInvDone (s : State) : State :=
  let live := s.homes.txns.any fun t => t.req.op < 0x200 && t.opened ≤ s.homes.xltAt && s.invCovers t.line
  let copies := s.pub.copies.any fun c => c.waiting.any fun r => r.arrive ≤ s.homes.xltAt && s.invCovers r.addr
  let peers := s.peers.any fun p => p.req.arrive ≤ s.homes.xltAt && s.invCovers p.req.addr
  if !s.on F.homeXltInvBusy || live || copies || peers then s
  else
    -- firmware may have rewritten leaves of a tiered region
    let s := each (s.rgns.filter fun g => g.tier == 2 && g.space == s.rd F.homeXltInvSpace) (fun g s => s.recount g) s
    (s.wr F.homeXltInvBusy 0).wr F.homeXltInvDone 1

/-! ## Commands -/

/-- RGN_ACTIVATE (R36). -/
def execRgnActivate (region : BitVec 16) (c : Cmd) (s : State) : Host.Outcome State Fault Refusal :=
  live s fun s => s.rgnWrite region.toNat 1 c

/-- RGN_DEACTIVATE (R38). -/
def execRgnDeactivate (region : BitVec 16) (c : Cmd) (s : State) : Host.Outcome State Fault Refusal :=
  live s fun s => s.rgnWrite region.toNat 2 c

/-- XLT_INV (R45). -/
def execXltInv (space : BitVec 10) (all : Bool) (base : BitVec 32) (count : BitVec 16) (c : Cmd) (s : State) :
    Host.Outcome State Fault Refusal :=
  live s fun s => s.ctlWrite F.homeXltInvGo.csa (s.compose F.homeXltInvGo.csa
    [(F.homeXltInvSpace, space.toNat), (F.homeXltInvAll, if all then 1 else 0), (F.homeXltInvGo, 1),
     (F.homeXltInvBase, base.toNat), (F.homeXltInvCount, count.toNat)]) c hookXltInv

/-- XLT_INV_DONE (R46). -/
def execXltInvDone (s : State) : Host.Outcome State Fault Refusal := live s fun s => s.xltInvDone

/-- Region commands, loads and descriptor reads that waited for a fenced channel go on as far as they can (R149). -/
def State.resumeHeld (s : State) : State := ((s.rgnResume).resumeLoad).resumeInvokes

/-- REBUILD_COMPLETE (R148): what was held for the channel goes on. -/
def execRebuildComplete (k : Fin 32) (s : State) : Host.Outcome State Fault Refusal :=
  live s fun s => (s.rebuildDone k.val).resumeHeld

/-- MODULE_POWER_OFF (R147): what was held for the module meets its loss (R149). -/
def execModulePowerOff (k : Fin 32) (c : Cmd) (s : State) : Host.Outcome State Fault Refusal :=
  live s fun s => (s.fenceWrite k.val (F.dchFencePwrOff k.val) 1 c).resumeHeld

end Sys2Proof.Machine
end

