-- ==== Sys2Proof/Machine/Security.lean ====
section
/-! DEFINITION. Tenants, strict partition, device identity, management sessions, records, measurement and attestation (R466 to
R488). -/

namespace Sys2Proof.Machine

/-- Change what SEC and MGT hold. -/
def State.setSec (s : State) (f : Sec → Sec) : State := { s with sec := f s.sec }

/-! ## Tenants (R466 to R471) -/

/-- State of a tenant: 0 FREE, 1 ACTIVE, 2 TEARDOWN. -/
def State.tenState (s : State) (t : Nat) : Nat := SMap.get 0 s.sec.tenants t
def State.setTen (s : State) (t st : Nat) : State := s.setSec fun x => { x with tenants := SMap.set 0 x.tenants t st }

/-- DISP ends every instance of a tenant with REGION_GONE; nothing is written at CPTR (R467 step 2). -/
def State.tenantInsts (s : State) (t : Nat) : State :=
  each (s.disp.insts.filter fun i => i.tenant == t && i.state ≤ 2) (fun i s =>
    (s.setInst i.idx fun x =>
      { x with mute := x.mute || x.cform == 3, cform := 0, stopping := none }).stopInst i.idx 0x0E) s

/-- Teardown (R467): every step that starts at n + 2. -/
def State.teardown (s : State) (t : Nat) : State :=
  let gs := s.rgns.filter fun g => g.tenant == t
  let s := (s.setTen t 2).setSec fun x => { x with
    gone := x.gone ++ gs.map fun g => (⟨t, g.space, g.base, g.len⟩ : GoneRgn) }
  let s := ((s.wr F.secTenCmdDone 0).raise blkSec 7 none).tel blkSec 1 0 1
  let s := s.tenantInsts t
  each gs (fun g s => s.rgnDrop g true) s

/-- What TEN_CMD.GO does. -/
def hookTen : Hook := fun v s =>
  if !tst v 10 then (s, 0)
  else
    let t := s.rd F.secTenCmdTenant
    match s.rd F.secTenCmdOp, s.tenState t with
    | 1, 0 => ((s.setTen t 1).wr F.secTenCmdDone 1, 0)
    | 2, 1 => (s.teardown t, 0)
    | 0, _ => (s, 0)
    | 3, _ => (s, 0)
    | _, _ => (s, fState)

/-- Write TEN_CMD with GO. -/
def State.tenWrite (s : State) (t op : Nat) (c : Cmd) : State :=
  s.ctlWrite F.secTenCmdGo.csa (s.compose F.secTenCmdGo.csa
    [(F.secTenCmdTenant, t), (F.secTenCmdOp, op), (F.secTenCmdGo, 1)]) c hookTen

/-- TEARDOWN_COMPLETE (R469): no instance, no line still to be answered, no tile still to be scrubbed. -/
def State.teardownDone (s : State) (t : Nat) : State :=
  let tiles := s.disp.lastTen.any fun e => e.2 == t + 1 && s.tileState e.1 == 0
  if s.tenState t ≠ 2 || (s.disp.insts.any fun i => i.tenant == t) || s.jobBusy (jobTenant t) || tiles then s
  else ((s.setTen t 0).setSec fun x => { x with gone := x.gone.filter fun g => g.tenant ≠ t }).wr F.secTenCmdDone 1

/-- Tiles on which an instance still runs. -/
def State.tileBusy (s : State) (t : Nat) : Bool :=
  s.disp.insts.any fun i => (i.state == 1 || (i.state == 2 && s.dumping i)) &&
    (((i.place.bind s.place?).map s.placeTiles).getD []).contains t

/-- TILE_SCRUB (R470): scratchpad, registers, accumulators, counters, flags and landing entries of a tile are zeroed; the clear path of its
banks runs for 1,024 cycles, in which no access gets a port (R184); the
preloads of its placements are loaded again; instruction memory is kept. -/
def State.tileScrub (s : State) (t : Nat) : State :=
  if SMap.get 0 s.disp.lastTen t = 0 || s.tileBusy t then s
  else
    let s := s.setTiles fun x => { x with
      cores := x.cores.filter (fun e => e.1 / 128 ≠ t), pend := x.pend.filter (fun p => p.tile ≠ t),
      ports := x.ports.filter (fun p => p.tile ≠ t), spad := x.spad.filter (fun e => e.1 / 2 ^ 20 ≠ t),
      spois := x.spois.filter (fun e => e.1 / 2 ^ 17 ≠ t), counts := x.counts.filter (fun e => e.1 / 16 ≠ t),
      landing := x.landing.filter (fun e => e.1 / 256 ≠ t), crosses := x.crosses.filter (fun c => c.tile ≠ t),
      owed := x.owed.filter (fun e => e.1 ≠ t), flips := x.flips.filter (fun e => e.1 / 2 ^ 17 ≠ t),
      dlds := x.dlds.filter (fun d => d.tile ≠ t), clears := x.clears ++ [(t, x.clock + 1024)] }
    let s := s.setDisp fun d => { d with lastTen := SMap.erase d.lastTen t }
    let s := each s.disp.places (fun p s => each (p.sites.map (·.1)) (fun site s =>
      if s.server site = some t then s.loadSite p site else s) s) s
    s.tel blkSec 2 0 1

/-! ## Strict partition (R474) -/

/-- What a write of PART_CTL does: turning strict partition on runs the checks. -/
def hookPart (wasOn : Bool) : Hook := fun _ s =>
  if !s.on F.secPartCtlEn then (s.wr F.secPartCtlNp 0, 0)
  else if wasOn then (s, 0)
  else match s.partFails with
    | some c => ((s.wr F.secPartCtlEn 0).wr F.secPartCtlStatus c, fRefused)
    | none =>
      ((s.wr F.secPartCtlStatus 0).wr F.secPartCtlNp ((List.range 8).filter fun g => s.on (F.secPartEn g)).length, 0)

/-! ## Records and keys (R477 to R481, R484) -/

/-- Code of a role in a record's bytes: its place in Table SEC-6. -/
def roleCode : Role → Nat
  | .owner => 0 | .operator => 1 | .auditor => 2 | .tenantAdmin => 3

/-- Signed bytes of the two records. -/
def cfgSigned (r : CfgRecord) : List Byte :=
  Config.cfgBytes r.gen.toNat r.owner (r.creds.map fun c => (c.key, roleCode c.role, c.tenant.toNat)) r.settings
def minSigned (r : MinRecord) : List Byte := Config.minverBytes r.gen.toNat r.minsvn.toNat r.revoke.toNat r.bind

/-- Is a configuration record valid: signed by its owner key? -/
def cfgValid (r : CfgRecord) : Bool :=
  r.creds.length ≤ 64 && Config.slhVerify false r.owner (ascii "T7-CFG") (cfgSigned r) r.sig

/-- The record with the highest GEN. -/
def newest {α : Type} (gen : α → Nat) (l : List α) : Option α :=
  l.foldl (fun m a => match m with
    | some b => if gen b < gen a then some a else some b
    | none => some a) none

/-- The configuration record in force; `none`: the T7 is unowned. -/
def State.cfg? (s : State) : Option CfgRecord :=
  newest (fun r => r.gen.toNat) ((s.sec.flash.filterMap fun f => f.cfg).filter fun r => cfgValid r)

/-- May a minimum-version record bind this device: BIND zero or the digest of IDK_PUB? -/
def bindsUs (r : MinRecord) : Bool := r.bind == 0#512 || r.bind == shake256 (natLe 64 idkPub.toNat)

/-- Does the owner's signature of a minimum-version record verify? -/
def State.minValid (s : State) (r : MinRecord) : Bool :=
  match s.cfg? with
  | some c => Config.slhVerify false c.owner (ascii "T7-MINVER") (minSigned r) r.sig
  | none => false

/-- The minimum-version record in force (R480). -/
def State.min? (s : State) : Option MinRecord :=
  newest (fun r => r.gen.toNat) ((s.sec.flash.filterMap fun f => f.min).filter fun r => s.minValid r && bindsUs r)

/-- Digests of Table SEC-8: zero where there is no record. -/
def State.cfgDig (s : State) : BitVec 512 := match s.cfg? with
  | some r => shake256 (cfgSigned r ++ r.sig)
  | none => 0#512
def State.minDig (s : State) : BitVec 512 := match s.min? with
  | some r => shake256 (minSigned r ++ r.sig)
  | none => 0#512
def State.ownerDig (s : State) : BitVec 512 := match s.cfg? with
  | some r => shake256 (natLe 64 r.owner.toNat)
  | none => 0#512
def State.fwDig (s : State) : BitVec 512 := (s.sec.fw.map (·.1)).getD 0#512
def State.fwSvn (s : State) : Nat := (s.sec.fw.map (·.2)).getD 0

/-- 64 little-endian bytes of a digest or key. -/
def dig (v : BitVec 512) : List Byte := natLe 64 v.toNat

/-- Seeds and public key of AK (Table SEC-4). -/
def State.akSeed (s : State) : BitVec 768 :=
  keySeed (ascii "T7-AK" ++ natLe 32 Config.pufSecret.toNat ++ dig s.fwDig ++ dig s.cfgDig)
def State.akPub (s : State) : BitVec 512 := Config.slhPublic true s.akSeed

/-- The endorsement of R478: IDK's signature. -/
def State.endorsement (s : State) : List Byte :=
  Config.slhSign false idkSeed (ascii "T7-ENDORSE")
    (dig s.akPub ++ dig Config.romDigest ++ dig s.fwDig ++ dig s.cfgDig ++ dig s.minDig ++ dig s.ownerDig)

/-! ## Sessions (R482 to R485) -/

/-- The session of a connection. -/
def State.session? (s : State) (conn : Nat) : Option Session := s.sec.sessions.find? fun x => x.conn == conn

/-- Change the session of a connection. -/
def State.setSession (s : State) (x : Session) : State :=
  s.setSec fun y => { y with sessions := y.sessions.map fun z => if z.conn = x.conn then x else z }

/-- Send on a connection. -/
def State.mgtSend (s : State) (f : MgtFrame) : State := s.setSec fun x => { x with mgtOut := x.mgtOut ++ [f] }

/-- End the session of a connection and close it at a beat. -/
def State.endSession (s : State) (conn at_ : Nat) : State :=
  (s.setSec fun x => { x with sessions := x.sessions.filter fun y => y.conn ≠ conn }).mgtSend ⟨conn, 0, .close, [], at_⟩

/-- Nonce of a frame: the direction's IV exclusive-ored with the frame count. -/
def nonce (iv : BitVec 96) (n : Nat) : BitVec 96 := iv ^^^ BitVec.ofNat 96 (n % 2 ^ 64)

/-- The five header bytes of a frame: length of its body and its type. -/
def frameHead (ty n : Nat) : List Byte := natLe 4 n ++ natLe 1 ty

/-- Seal a frame for the client: the sealed bytes with their 16-byte tag. -/
def Session.seal (x : Session) (ty : Nat) (plain : List Byte) : List Byte :=
  Config.gcmSeal x.keyOut (nonce x.ivOut x.nOut) (frameHead ty (plain.length + 16)) plain

/-- Plain bytes of what SEC says in a protected frame. -/
def mgtBytes : MgtBody → List Byte
  | .accept b => b
  | .ready n r t => Config.mgtPlain 4 [n, roleCode r, t]
  | .denied => Config.mgtPlain 0 []
  | .busy => Config.mgtPlain 1 []
  | .done => Config.mgtPlain 2 []
  | .report b => b
  | .state b => b
  | .close => []

/-- Answer in the session of a connection, in a protected frame. -/
def State.answer (s : State) (conn ty : Nat) (b : MgtBody) : State :=
  match s.session? conn with
  | none => s
  | some x =>
    (s.setSession { x with nOut := x.nOut + 1, last := s.beat }).mgtSend ⟨conn, ty, b, x.seal ty (mgtBytes b), s.beat⟩

/-- Open a protected frame: the session as it stands after it; a frame that fails authentication or is out of count, and the
2^32nd, end the session (R483). -/
def State.openFrame (s : State) (conn : Nat) (f : Frame) : Option Session × State :=
  match s.session? conn with
  | none => (none, s)
  | some x =>
    let ok := (Config.gcmOpen x.keyIn (nonce x.ivIn x.nIn) (frameHead f.ty.toNat f.body.length) f.body).isSome
    if !ok || 2 ^ 32 ≤ x.nIn || 2 ^ 32 ≤ x.nOut then (none, s.endSession conn s.beat)
    else
      let x := { x with nIn := x.nIn + 1, last := s.beat }
      (some x, s.setSession x)

/-- Is a source address blocked after failed AUTHs (R485)? -/
def State.srcBlocked (s : State) (src : Nat) : Bool := s.beat < SMap.get 0 s.sec.blocked src

/-- HELLO (R482, R483): ACCEPT with ND, the ciphertext and the protected credentials, and the session's keys. -/
def State.hello (s : State) (conn src : Nat) (body : List Byte) : State :=
  if (s.session? conn).isSome then s.endSession conn s.beat
  else if !s.sec.endorsed then s.mgtSend ⟨conn, 1, .busy, [], s.beat⟩
  else if s.srcBlocked src || body.length < 1601 || body.headD 0#8 ≠ 1#8 || 16 ≤ s.sec.sessions.length ||
      (s.cfg?.isNone && !s.sec.sessions.isEmpty) then s.mgtSend ⟨conn, 0, .close, [], s.beat⟩
  else
    let (n, s) := s.draw
    let nd := natLe 32 (Config.secRandom n).toNat
    let (ct, ss) := Config.mlkemEncaps (body.drop (body.length - 1568)) n
    let h1 := body ++ nd ++ ct
    let d1 := shake256 h1
    let kd := shakeWords 11 (ascii "T7-MGT-v1" ++ natLe 32 ss.toNat ++ dig d1)
    let x : Session := {
      conn := conn, src := src, keyIn := BitVec.ofNat 256 kd, keyOut := BitVec.ofNat 256 (kd / 2 ^ 256),
      ivIn := BitVec.ofNat 96 (kd / 2 ^ 512), ivOut := BitVec.ofNat 96 (kd / 2 ^ 608), nIn := 0, nOut := 1,
      last := s.beat, h2 := 0, who := none }
    let plain := Config.idkCertificate ++ dig s.akPub ++ s.endorsement ++
      Config.slhSign true s.akSeed (ascii "T7-MGT-DEVICE") (dig d1)
    let sealed := Config.gcmSeal x.keyOut (nonce x.ivOut 0) (frameHead 2 (nd.length + ct.length + plain.length + 16)) plain
    let x := { x with h2 := shake256 (h1 ++ frameHead 2 (nd.length + ct.length + sealed.length) ++ nd ++ ct ++ sealed) }
    (s.setSec fun y => { y with sessions := y.sessions ++ [x] }).mgtSend ⟨conn, 2, .accept (nd ++ ct), sealed, s.beat⟩

/-- May a key open a session with a role and tenant (R484, R485)? -/
def credOk (cfg : Option CfgRecord) (c : Cred) : Bool :=
  match cfg with
  | none => c.role == .owner
  | some r => (c.role == .owner && c.key == r.owner) || r.creds.contains c

/-- A failed AUTH: the connection closes 100 ms after it, and ten failures of a source within a minute block it for 1 s. -/
def State.authFails (s : State) (x : Session) : State :=
  let s := (s.endSession x.conn (s.beat + 3125000)).tel blkSec 4 0 1
  let fs := s.sec.fails.filter (fun f => s.beat < f.2 + 1875000000) ++ [(x.src, s.beat)]
  let s := s.setSec fun y => { y with fails := fs }
  if 10 ≤ (fs.filter fun f => f.1 == x.src).length then
    s.setSec fun y => { y with blocked := SMap.set 0 y.blocked x.src (s.beat + 31250000) }
  else s

/-- Does the recovery service run (R457)? -/
def State.recovering (s : State) : Bool := s.rd F.rstCtlStage == 3 && s.on F.rstBootFail

/-- AUTH (R485): the client's signature over H2 and its credential; READY, or the delayed close. -/
def State.auth (s : State) (conn : Nat) (f : Frame) (c : Cred) (sig : List Byte) : State :=
  match s.openFrame conn f with
  | (none, s) => s
  | (some x, s) =>
    if x.who.isSome then s.answer conn f.ty.toNat .denied
    else if Config.slhVerify true c.key (ascii "T7-MGT-CLIENT") (dig x.h2) sig && credOk s.cfg? c &&
        !(s.recovering && c.role == .tenantAdmin) then
      let n := (s.sec.sessions.findIdx? fun y => y.conn == conn).getD 0
      (((s.setSession { x with who := some c }).answer conn 4 (.ready n c.role c.tenant.toNat))).tel blkSec 3 0 1
    else s.authFails x

/-! ## Commands of a session (Table SEC-6, R472) -/

/-- Tenants of the valid admission entries that cover a host. -/
def State.hostTenants (s : State) (h : Nat) : List Nat :=
  s.hosts.adm.filterMap fun e =>
    let w := e.2.toNat
    if tst w 0 && bits w 12 1 ≤ h && h ≤ bits w 24 13 then some (bits w 52 45) else none

/-- Words of SEC.PART, and of the retained memory and backup registers. -/
def csaPart (a : Nat) : Bool := blkSec * 0x100000 + 0x400 ≤ a && a < blkSec * 0x100000 + 0x480
def csaRetained (a : Nat) : Bool :=
  (blkRst * 0x100000 + 0x200 ≤ a && a < blkRst * 0x100000 + 0x280) ||
  (blkRst * 0x100000 + 0x40000 ≤ a && a < blkRst * 0x100000 + 0x80000)

/-- May a TENANT-ADMIN of tenant `t` write a control-space word (Table SEC-6, R472)? -/
def State.tenantWrite (s : State) (t a v : Nat) : Bool :=
  if a = F.xbarFrzCmdGo.csa then
    (bits v 13 12 == 1 || bits v 13 12 == 2) && (s.hostTenants (bits v 11 0)).all fun x => x == t
  else if a = F.dispJobKillGo.csa then bits v 23 16 == t
  else if a = F.secMeasCmdGo.csa then (match s.rgn? (bits v 15 0) with
    | some g => g.tenant == t
    | none => false)
  else false

/-- Does a role permit a command? -/
def State.permits (s : State) (c : Cred) (op : SessOp) : Bool :=
  let t := c.tenant.toNat
  match c.role, op with
  | .owner, _ => true
  | .operator, .read a => !csaPart a.toNat
  | .operator, .write a _ => !csaPart a.toNat && a.toNat ≠ F.secPartCtlEn.csa
  | .operator, .records => false
  | .operator, _ => true
  | .auditor, .read a => !csaRetained a.toNat
  | .auditor, .logs => true
  | .auditor, _ => false
  | .tenantAdmin, .write a v => s.tenantWrite t a.toNat v.toNat
  | .tenantAdmin, .policer h => (s.hostTenants h.toNat).contains t
  | .tenantAdmin, .counterPage x => x == c.tenant
  | .tenantAdmin, _ => false

/-- SESSION_COMMAND (R485): passed with its role and tenant to the firmware of the claim holder, or DENIED. -/
def State.sessionCommand (s : State) (conn : Nat) (f : Frame) (op : SessOp) : State :=
  match s.openFrame conn f with
  | (none, s) => s
  | (some x, s) => match x.who with
    | some c =>
      if s.permits c op && !s.recovering then s.setSec fun y => { y with fwIn := y.fwIn ++ [⟨conn, c.role, c.tenant.toNat, op⟩] }
      else s.answer conn f.ty.toNat .denied
    | none => s.authFails x

/-- SESSION_IDLE_TIMEOUT (R483): ten minutes without a frame, or 2^32 frames in a direction. -/
def State.sessionIdle (s : State) (conn : Nat) : State :=
  match s.session? conn with
  | none => s
  | some x => if x.last + 18750000000 ≤ s.beat || 2 ^ 32 ≤ x.nIn || 2 ^ 32 ≤ x.nOut then s.endSession conn s.beat else s

/-- Sessions whose credential a record no longer holds end (R484). -/
def State.dropSessions (s : State) : State :=
  each s.sec.sessions (fun x s => match x.who with
    | some c => if credOk s.cfg? c then s else s.endSession x.conn s.beat
    | none => s) s

/-- Install a configuration record for a session that has sent it (R484): an owner's record with a higher GEN, or the first
record of an unowned T7, goes to both flashes; an event of class 8.  AK changes with it, so the endorsement is signed
anew. -/
def State.putConfig (s : State) (x : Session) (ty : Nat) (r : CfgRecord) : State :=
  let ok := match x.who, s.cfg? with
    | some c, some old => c.role == .owner && decide (old.gen.toNat < r.gen.toNat)
    | some c, none => c.role == .owner && c.key == r.owner
    | none, _ => false
  if ok && cfgValid r then
    let s := s.setSec fun y => { y with flash := y.flash.map (fun b => { b with cfg := some r }), endorsed := false }
    ((s.answer x.conn ty .done).dropSessions).raise blkSec 8 none
  else s.answer x.conn ty .denied

/-- Install a minimum-version record for a session that has sent it (R480). -/
def State.putMinver (s : State) (x : Session) (ty : Nat) (r : MinRecord) : State :=
  let newer := match s.min? with
    | some old => decide (old.gen.toNat < r.gen.toNat)
    | none => true
  if (match x.who with | some c => c.role == .owner | none => false) && s.minValid r && newer then
    (s.setSec fun y => { y with flash := y.flash.map fun b => { b with min := some r } }).answer x.conn ty .done
  else s.answer x.conn ty .denied

/-- INSTALL_RECORD (R484), served while the T7 is not in recovery (R457). -/
def State.installRecord (s : State) (conn : Nat) (f : Frame) (r : CfgRecord) : State :=
  match s.openFrame conn f with
  | (none, s) => s
  | (some x, s) => if s.recovering then s.answer conn f.ty.toNat .denied else s.putConfig x f.ty.toNat r

/-- INSTALL_MINVER (R480). -/
def State.installMinver (s : State) (conn : Nat) (f : Frame) (r : MinRecord) : State :=
  match s.openFrame conn f with
  | (none, s) => s
  | (some x, s) => if s.recovering then s.answer conn f.ty.toNat .denied else s.putMinver x f.ty.toNat r

/-- ENDORSEMENT_SIGNED (R478): from stage 4 on, with firmware verified. -/
def State.endorse (s : State) : State :=
  if (4 ≤ s.rd F.rstCtlStage && s.sec.fw.isSome) || s.recovering then s.setSec fun x => { x with endorsed := true } else s

/-! ## Attestation (R486, R488, Table SEC-8) -/

/-- Placement entry of Table SEC-7. -/
def Placement.entry (p : Placement) : List Byte :=
  natLe 1 p.num ++ natLe 1 p.strip ++ natLe 1 p.height ++ natLe 1 0 ++ natLe 2 p.opid ++ natLe 2 0 ++ dig p.digest

/-- Region entry of Table SEC-7. -/
def Meas.entry (m : Meas) : List Byte :=
  natLe 2 m.region ++ natLe 1 m.tenant ++ natLe 1 m.mode ++ natLe 4 m.pages ++ natLe 8 m.version ++ natLe 8 m.mbeat ++
    natLe 8 0 ++ dig (m.root.getD 0#512)

/-- A table record in DRAM as the digest reads it. -/
def State.tableRec (s : State) (dpa n : Nat) : Nat := (s.readBytes dpa n 0).1

/-- Bytes that STATE_DIG covers: valid spaces, words 0 to 2 of active regions, valid admission entries and peer windows, each
in index order; of one tenant only, where a tenant is given. -/
def State.stateBytes (s : State) (scope : Option Nat) : List Byte :=
  let mine (t : Nat) : Bool := match scope with | some x => x == t | none => true
  let spt := s.rd F.homeXltBaseSpt * 0x10000
  let spaces := if spt = 0 then [] else (List.range 1024).flatMap fun i =>
    let w := s.tableRec (spt + 16 * i) 16
    if tst w 0 && mine (bits w 15 8) then natLe 16 w else []
  let regions := s.homes.regions.flatMap fun e =>
    if mine (rgnOf e.1 e.2.toNat).tenant then natLe 24 e.2.toNat else []
  let adm := s.hosts.adm.flatMap fun e =>
    if tst e.2.toNat 0 && mine (bits e.2.toNat 52 45) then natLe 32 e.2.toNat else []
  let pwt := s.rd F.homePwtBasePwt * 0x10000
  let wins := if pwt = 0 then [] else (List.range 256).flatMap fun i =>
    let w := s.tableRec (pwt + 32 * i) 32
    let owned := s.rgns.any fun g => mine g.tenant && g.base ≤ bits w 95 64 && bits w 95 64 + bits w 127 96 ≤ g.base + g.len
    if tst w 0 && (scope.isNone || owned) then natLe 32 w else []
  spaces ++ regions ++ adm ++ wins

/-- A one-bit flag at a place. -/
def flagAt (b : Bool) (i : Nat) : Nat := if b then 2 ^ i else 0

/-- FLAGS of a report. -/
def State.reportFlags (s : State) (scope : Option Nat) : Nat :=
  flagAt scope.isSome 0 + flagAt (s.on F.rstStrapSafe) 1 + flagAt (s.strapRole == 3) 2 + flagAt (s.on F.rstStrapFault) 3 +
  flagAt (s.on F.rstBootFallback) 4 + flagAt (s.on F.secPartCtlEn) 5 +
  flagAt (match scope with | some t => (s.strictOf t).isSome | none => false) 6

/-- The report of Table SEC-8 before its signature; `fw` gives FW_DIG and FW_SVN. -/
def State.reportBody (s : State) (nonce : BitVec 256) (scope : Option Nat) (fw : BitVec 512 × Nat) : List Byte :=
  let ps := sortBy (fun p : Placement => p.num) s.disp.places
  let ms := sortBy (fun m : Meas => m.region) (s.sec.meas.filter fun m => m.root.isSome &&
    (match scope with | some t => m.tenant == t | none => true))
  natLe 4 0x54413754 ++ natLe 2 1 ++ natLe 2 (s.reportFlags scope) ++
  natLe 4 (592 + 72 * ps.length + 96 * ms.length + 49856) ++ natLe 1 (scope.getD 0) ++ natLe 1 s.strapRole ++
  natLe 2 0x00A1 ++ natLe 32 nonce.toNat ++ natLe 8 s.beat ++ dig idkPub ++ dig s.akPub ++ dig Config.romDigest ++
  dig fw.1 ++ dig s.cfgDig ++ dig s.ownerDig ++ dig s.minDig ++ natLe 4 fw.2 ++
  natLe 4 ((s.min?.map fun m => m.minsvn.toNat).getD 0) ++ natLe 4 (s.rd F.cpTrioClaim) ++
  natLe 1 (s.rd F.rstBootUsed + 2 * s.rd F.rstBootFallback) ++ natLe 1 0 ++ natLe 2 ps.length ++ natLe 2 ms.length ++
  natLe 6 0 ++ dig (shake256 (s.stateBytes scope)) ++ ps.flatMap (·.entry) ++ ms.flatMap (·.entry)

/-- The signed report. -/
def State.report (s : State) (nonce : BitVec 256) (scope : Option Nat) : List Byte :=
  let b := s.reportBody nonce scope (s.fwDig, s.fwSvn)
  b ++ Config.slhSign true s.akSeed (ascii "T7-ATTEST") b

/-- May a session have a report of a scope (Table SEC-6, R488)? -/
def scopeOk (c : Cred) (scope : Option (BitVec 8)) : Bool :=
  match c.role, scope with
  | .owner, _ => true
  | .tenantAdmin, some t => t == c.tenant
  | .tenantAdmin, none => false
  | _, none => true
  | _, some _ => false

/-- ATTESTATION_REQUEST (R486): the report in one frame; BUSY until the endorsement is signed (R478). -/
def State.attestation (s : State) (conn : Nat) (f : Frame) (nonce : BitVec 256) (scope : Option (BitVec 8)) : State :=
  match s.openFrame conn f with
  | (none, s) => s
  | (some x, s) =>
    if s.recovering || !(match x.who with | some c => scopeOk c scope | none => false) then s.answer conn f.ty.toNat .denied
    else if !s.sec.endorsed then s.answer conn f.ty.toNat .busy
    else (s.answer conn f.ty.toNat (.report (s.report nonce (scope.map (·.toNat))))).tel blkSec 5 0 1

/-! ## Measurement (R487) -/

/-- Holder of the pin that a measurement takes. -/
def measHolder : Nat := 0x20000

/-- End a measurement with its STATUS. -/
def State.measEnd (s : State) (st : Nat) : State :=
  let s := match s.sec.measRun with
    | some g => s.unpin g fun p => p.holder == measHolder
    | none => s
  ((s.setSec fun x => { x with measRun := none }).wr F.secMeasCmdBusy 0).wr F.secMeasCmdStatus st

/-- Start the measurement of a marked region: the current version of a PUBLISHED region is pinned. -/
def State.measStart (s : State) (id : Nat) : State × Nat :=
  match s.rgn? id with
  | none => (s.wr F.secMeasCmdStatus 3, fRefused)
  | some g =>
    if !(s.disp.places.any fun p => p.opid == 7 && !p.unloading) then (s.wr F.secMeasCmdStatus 2, fRefused)
    else
      let s := s.setSec fun x => { x with measRun := some id }
      let s := s.wr F.secMeasCmdBusy 1
      if g.mode ≠ 2 then (s, 0)
      else (({ s with pub := { s.pub with pins := s.pub.pins ++ [(⟨id, g.version, measHolder, s.beat⟩ : Pin)] } }).pubSync id, 0)

/-- Keep MEAS_CMD.MARKED. -/
def State.markSync (s : State) : State := s.wr F.secMeasCmdMarked s.sec.meas.length

/-- What MEAS_CMD.GO does. -/
def hookMeas : Hook := fun v s =>
  if !tst v 18 then (s, 0)
  else if s.on F.secMeasCmdBusy then (s, fBusy)
  else
    let id := s.rd F.secMeasCmdRegion
    let marked := s.sec.meas.any fun m => m.region == id
    match s.rd F.secMeasCmdOp with
    | 1 =>
      if !marked && 64 ≤ s.sec.meas.length then (s, fState)
      else if (s.rgn? id).isNone then s.measStart id
      else
        let s := if marked then s
          else (s.setSec fun x => { x with meas := x.meas ++ [⟨id, none, 0, 0, 0, 0, 0⟩] }).markSync
        s.measStart id
    | 2 => (((s.setSec fun x => { x with meas := x.meas.filter fun m => m.region ≠ id }).markSync).wr F.secMeasCmdStatus 0, 0)
    | 3 => if marked then s.measStart id else (s, fState)
    | _ => (s, 0)

/-- Write MEAS_CMD with GO. -/
def State.measWrite (s : State) (id op : Nat) (c : Cmd) : State :=
  s.ctlWrite F.secMeasCmdGo.csa (s.compose F.secMeasCmdGo.csa
    [(F.secMeasCmdRegion, id), (F.secMeasCmdOp, op), (F.secMeasCmdGo, 1)]) c hookMeas

/-- What a measurement meets at a line, a page or a region: the data, an uncorrectable line or a page that cannot be reached, or a line
or a page that is still on its way. -/
inductive MeasRd (α : Type) where
  | got (a : α)
  | poison
  | wait
  deriving DecidableEq, Repr

/-- One line of a region's page as the measurement reads it: of the pinned version of a PUBLISHED region. -/
def State.measLine (s : State) (g : Rgn) (ver o : Nat) : MeasRd Line × State :=
  let ptr := ptrOf g.space o
  let hm := homeOfPtr ptr
  let (w, s) := s.translate hm g.space o false false hm
  match w with
  | .leaf e lg =>
    let dpa := match if g.mode = 2 && ver ≠ g.version then s.versionFrame g.id ver (o / 0x10000) else none with
      | some f => f * 0x10000 + o % 0x10000
      | none => leafDpa e lg o
    let (rd, s) := s.readLine (dpa / 128 * 128) 0 hm
    (if rd.held.isSome then .wait else if rd.poison then .poison else .got rd.data, s)
  | .held _ => (.wait, s)
  | .fault _ _ => (.wait, s)
  | _ => (.poison, s)

/-- The bytes of one 64 KiB page. -/
def State.measPage (s : State) (g : Rgn) (ver page : Nat) : MeasRd (List Byte) × State :=
  (List.range 512).foldl (fun (acc : MeasRd (List Byte) × State) k =>
    match acc.1 with
    | .got bs => match acc.2.measLine g ver (page * 0x10000 + 128 * k) with
      | (.got d, s) => (.got (bs ++ lineBytes d), s)
      | (.poison, s) => (.poison, s)
      | (.wait, s) => (.wait, s)
    | _ => acc) (.got [], s)

/-- One level of the tree: pairs joined, a node without a sibling promoted. -/
def treeLevel : List (BitVec 512) → List (BitVec 512)
  | a :: b :: t => shake256 (1#8 :: dig a ++ dig b) :: treeLevel t
  | l => l

/-- The root of a list of leaves. -/
def treeRoot : Nat → List (BitVec 512) → BitVec 512
  | 0, l => l.headD 0
  | n + 1, l => if l.length ≤ 1 then l.headD 0 else treeRoot n (treeLevel l)

/-- The leaves of a region. -/
def State.measLeaves (s : State) (g : Rgn) (ver : Nat) : MeasRd (List (BitVec 512)) × State :=
  (List.range g.len).foldl (fun (acc : MeasRd (List (BitVec 512)) × State) k =>
    match acc.1 with
    | .got ls => match acc.2.measPage g ver (g.base + k) with
      | (.got bs, s) => (.got (ls ++ [shake256 bs]), s)
      | (.poison, s) => (.poison, s)
      | (.wait, s) => (.wait, s)
    | _ => acc) (.got [], s)

/-- MEASUREMENT_DONE: the checksums run on an idle CHECKSUM placement; the root is kept with version and beat, or the
measurement ends POISONED and the previous root stands; it goes on while a line is held for a fenced channel or a page is missing. -/
def State.measDone (s : State) : State :=
  match s.sec.measRun with
  | none => s
  | some id =>
    match s.rgn? id with
    | none => s.measEnd 3
    | some g =>
      if !(s.disp.places.any fun p => p.opid == 7 && (s.instOn p.num).isNone) then s
      else
        let ver := ((s.pub.pins.find? fun p => p.region == id && p.holder == measHolder).map (·.version)).getD g.version
        match s.measLeaves g ver with
        | (.wait, _) => s
        | (.poison, s) => (s.measEnd 1).tel blkSec 6 0 1
        | (.got ls, s) =>
          let root := treeRoot 33 ls
          let put (m : Meas) : Meas := if m.region = id then
              { m with root := some root, version := ver, mbeat := s.beat, pages := g.len, tenant := g.tenant, mode := g.mode }
            else m
          ((s.setSec fun x => { x with meas := x.meas.map put }).measEnd 0).tel blkSec 6 0 1

/-! ## Commands -/

/-- TEN_ACTIVATE (R467). -/
def execTenActivate (t : BitVec 8) (c : Cmd) (s : State) : Host.Outcome State Fault Refusal :=
  live s fun s => s.tenWrite t.toNat 1 c

/-- TEN_TEARDOWN (R467, R468). -/
def execTenTeardown (t : BitVec 8) (c : Cmd) (s : State) : Host.Outcome State Fault Refusal :=
  live s fun s => s.tenWrite t.toNat 2 c

/-- TEARDOWN_COMPLETE (R469). -/
def execTeardownComplete (t : BitVec 8) (s : State) : Host.Outcome State Fault Refusal := live s fun s => s.teardownDone t.toNat

/-- TILE_SCRUB (R470). -/
def execTileScrub (tile : Fin 672) (s : State) : Host.Outcome State Fault Refusal := live s fun s => s.tileScrub tile.val

/-- PARTITION_ENABLE (R474). -/
def execPartitionEnable (c : Cmd) (s : State) : Host.Outcome State Fault Refusal :=
  live s fun s => s.ctlWrite F.secPartCtlEn.csa (s.compose F.secPartCtlEn.csa [(F.secPartCtlEn, 1)]) c
    (hookPart (s.on F.secPartCtlEn))

/-- HELLO (R482). -/
def execHello (conn : BitVec 16) (src : BitVec 128) (body : List Byte) (s : State) : Host.Outcome State Fault Refusal :=
  managed s fun s => s.hello conn.toNat src.toNat body

/-- AUTH (R485). -/
def execAuth (conn : BitVec 16) (f : Frame) (cred : Cred) (sig : List Byte) (s : State) : Host.Outcome State Fault Refusal :=
  managed s fun s => s.auth conn.toNat f cred sig

/-- SESSION_COMMAND (R485). -/
def execSessionCommand (conn : BitVec 16) (f : Frame) (op : SessOp) (s : State) : Host.Outcome State Fault Refusal :=
  managed s fun s => s.sessionCommand conn.toNat f op

/-- SESSION_IDLE_TIMEOUT (R483). -/
def execSessionIdleTimeout (conn : BitVec 16) (s : State) : Host.Outcome State Fault Refusal :=
  managed s fun s => s.sessionIdle conn.toNat

/-- INSTALL_RECORD (R484). -/
def execInstallRecord (conn : BitVec 16) (f : Frame) (r : CfgRecord) (s : State) : Host.Outcome State Fault Refusal :=
  managed s fun s => s.installRecord conn.toNat f r

/-- INSTALL_MINVER (R480). -/
def execInstallMinver (conn : BitVec 16) (f : Frame) (r : MinRecord) (s : State) : Host.Outcome State Fault Refusal :=
  managed s fun s => s.installMinver conn.toNat f r

/-- ENDORSEMENT_SIGNED (R478). -/
def execEndorsementSigned (s : State) : Host.Outcome State Fault Refusal := managed s fun s => s.endorse

/-- ATTESTATION_REQUEST (R486). -/
def execAttestationRequest (conn : BitVec 16) (f : Frame) (nonce : BitVec 256) (scope : Option (BitVec 8)) (s : State) :
    Host.Outcome State Fault Refusal :=
  managed s fun s => s.attestation conn.toNat f nonce scope

/-- MEASURE_MARK (R487). -/
def execMeasureMark (region : BitVec 16) (c : Cmd) (s : State) : Host.Outcome State Fault Refusal :=
  live s fun s => s.measWrite region.toNat 1 c

/-- MEASURE_UNMARK (R487). -/
def execMeasureUnmark (region : BitVec 16) (c : Cmd) (s : State) : Host.Outcome State Fault Refusal :=
  live s fun s => s.measWrite region.toNat 2 c

/-- MEASURE_AGAIN (R487). -/
def execMeasureAgain (region : BitVec 16) (c : Cmd) (s : State) : Host.Outcome State Fault Refusal :=
  live s fun s => s.measWrite region.toNat 3 c

/-- MEASUREMENT_DONE (R487). -/
def execMeasurementDone (s : State) : Host.Outcome State Fault Refusal := live s fun s => s.measDone

end Sys2Proof.Machine
end

