-- ==== Sys2Proof/Machine/Availability.lean ====
section
/-! DEFINITION. Home-slice faults and returns, fatal errors, and the control-processor trio with its claim, command log,
checkpoints and watchdog (R421 to R426, R433 to R441, R461). -/

namespace Sys2Proof.Machine

/-! ## Home slices (R421 to R425) -/

/-- The buddy of a home slice. -/
def buddy (k : Nat) : Nat := k ^^^ 1

/-- Send again what an open transaction of a failed slice still waits for (R422 step 2); an owner whose answer brings no data
will poison the line (R423). -/
def State.reissue (s : State) (t : Txn) : State :=
  match t.stage with
  | .snoop =>
    let owner := t.snoops.any fun n => (s.holders t.home t.line).any fun e => keySlot e.1 == n.slot && e.2.st == 3
    let s := each t.snoops (fun n s => (s.sendSnoop { t with snoops := [] } n.slot n.opc (0x200 ≤ t.req.op)).2) s
    s.putTxn { t with ownerSnooped := t.ownerSnooped || owner }
  | .ack => s.regrant t t.req
  | _ => s

/-- A home-slice fault (R421 to R424); while the buddy does not serve, a fatal error (Table AVL-2). -/
def State.homeFault (s : State) (k cause : Nat) : State :=
  let st := s.rd (F.homeHavlState k)
  if st = 1 then (s.raise (blkHome k) 6 none).wr (F.homeHavlCause k) cause
  else if st = 0 && s.homeDown (buddy k) then s.fatal (blkHome k) none
  else
    let s := s.raise (blkHome k) 6 none
    let s := ((s.wr (F.homeHavlState k) 1).wr (F.homeHavlCause k) cause).wr (F.homeHavlServer k) (buddy k)
    if st ≠ 0 then s
    else
      let s := s.tel (blkHome (buddy k)) 0x0C 0 1
      let s := each (s.homes.txns.filter fun t => t.home == k) (fun t s => s.reissue t) s
      s.endJobsOn fun p => !p.home.isEmpty

/-- What HAVL.FAIL and HAVL.RETURN do. -/
def hookHavl (k : Nat) : Hook := fun v s =>
  let s := if tst v 0 then s.homeFault k 1 else s
  if !tst v 1 then (s, 0)
  else if s.rd (F.homeHavlState k) ≠ 1 then (s, fState)
  else (s.wr (F.homeHavlState k) 2, 0)

/-- HOME_SELF_TEST_DONE (R425). -/
def State.homeTested (s : State) (k : Nat) (pass : Bool) : State :=
  if s.rd (F.homeHavlState k) ≠ 2 then s
  else if pass then s.wr (F.homeHavlState k) 3
  else (s.wr (F.homeHavlState k) 1).wr (F.homeHavlCause k) 3

/-- Let a home's pending queue offer its entries until none can be taken. -/
def State.drainPend (s : State) (hm : Nat) : Nat → State
  | 0 => s
  | n + 1 =>
    let s' := s.pendOffer hm
    if s'.homes.pendq.length < s.homes.pendq.length then s'.drainPend hm n else s'

/-- HOME_HANDBACK (R425): with no open transaction of the range, the slice serves its range and its queue again. -/
def State.handback (s : State) (k : Nat) : State :=
  if !s.returning k || (s.homes.txns.any fun t => t.home == k) then s
  else
    let s := ((s.wr (F.homeHavlState k) 0).wr (F.homeHavlCause k) 0).wr (F.homeHavlServer k) k
    (s.settle k).drainPend k s.homes.pendq.length

/-! ## Control processors (R433 to R441, Table AVL-4) -/

/-- Role field of a control processor. -/
def fRole : Nat → Fld
  | 0 => F.cpTrioRole0 | 1 => F.cpTrioRole1 | _ => F.cpTrioRole2

/-- Role of a control processor: 0 OFF, 1 PAIR, 2 SOLO, 3 STANDBY, 4 FROZEN, 5 FAILED, 6 LOADING. -/
def State.role (s : State) (n : Nat) : Nat := s.rd (fRole n)

/-- Give a role; CUP reads TESTING when the processor enters STANDBY and 0 outside it. -/
def State.setRole (s : State) (n r : Nat) : State :=
  (s.wr (fRole n) r).wr (F.cpCupState n) (if r = 3 then 1 else 0)

/-- Processors that hold the claim, and those that stand by. -/
def State.holders' (s : State) : List Nat := (List.range 3).filter fun n => s.role n == 1 || s.role n == 2
def State.standbys (s : State) : List Nat := (List.range 3).filter fun n => s.role n == 3

/-- The claim holder stops by a comparison mismatch (R434). -/
def State.freeze (s : State) : State := each s.holders' (fun n s => s.setRole n 4) s

/-- PAIR_MISMATCH (R434): the CRCs of the members' commands of a beat disagree. -/
def State.pairMismatch (s : State) (a b : List Byte) : State :=
  if s.role 0 ≠ 1 || s.role 1 ≠ 1 || crc64 a = crc64 b then s else s.freeze.raise blkRst 9 (some 19)

/-- Grant the claim plus one to the processors of a list: an event of class 2 that every clapper applies (R437). -/
def State.claimGrant (s : State) (ns : List Nat) : State :=
  let s := s.wr F.cpTrioClaim ((s.rd F.cpTrioClaim + 1) % 2 ^ 32)
  let s := each s.holders' (fun n s => s.setRole n 3) s
  let s := each ns (fun n s => s.setRole n (if ns.length = 2 then 1 else 2)) s
  let s := { s with cpx := { s.cpx with wdogSince := s.beat } }
  s.raise blkRst 2 none

/-- CLAIM_GRANT: a processor asks for the claim; only a STANDBY gets it, or the pair in STANDBY whose members agree, and
none whose cupping has failed (R437, R438). -/
def State.claimAsk (s : State) (n : Nat) (agree : Bool) : State :=
  let ns := if n < 2 && s.role 0 = 3 && s.role 1 = 3 then [0, 1] else [n]
  if (ns.any fun m => s.role m ≠ 3 || s.rd (F.cpCupState m) = 3) || (ns.length = 2 && !agree) then s
  else
    let s := s.claimGrant ns
    { s with cpx := { s.cpx with replay := true } }

/-- The newest checkpoint, and the slot that NEWEST names. -/
def State.newestCkpt (s : State) : Option Ckpt := (s.cpx.ckpts.getD (s.rd F.cpCkptNewest) none)

/-- Write a checkpoint into the slot that does not hold the newest, and trim the log (R436). -/
def State.checkpoint (s : State) : State :=
  if s.rd F.cpCkptBase = 0 then s
  else
    let slot := 1 - s.rd F.cpCkptNewest
    let old := (s.newestCkpt.map (·.seq)).getD 0
    let q := s.cpx.log.foldl (fun m e => max m e.seq) old
    let (n, s) := s.draw
    let s := { s with cpx := { s.cpx with
      ckpts := s.cpx.ckpts.set slot (some ⟨q, s.beat, Config.checkpointDigest n⟩),
      log := s.cpx.log.filter fun e => q < e.seq } }
    (s.wr F.cpCkptNewest slot).wr F.cpCkptLogfill (min 255 (s.cpx.log.length * 256 / 4096))

/-- CHECKPOINT: the holder writes one every 1 ms, and when the log is more than half full (R436). -/
def State.checkpointDue (s : State) : State :=
  let late := match s.newestCkpt with
    | some c => decide (c.beat + 31250 ≤ s.beat)
    | none => true
  if s.holders'.isEmpty || !(late || decide (2048 < s.cpx.log.length)) then s else s.checkpoint

/-- Does the newest checkpoint count as recent (R440)? -/
def State.ckptFresh (s : State) : Bool := match s.newestCkpt with
  | some c => decide (s.beat ≤ c.beat + 62500)
  | none => false

/-- CUP.STATE as it reads (R440): READY only while the newest checkpoint is no older than 2 ms. -/
def State.cupState (s : State) (n : Nat) : Nat :=
  if s.rd (F.cpCupState n) = 2 && !s.ckptFresh then 1 else s.rd (F.cpCupState n)

/-- CUPPING_CYCLE (R440): the checks that failed, bit i for check i + 1. -/
def State.cupping (s : State) (n : Nat) (fails : Nat) : State :=
  if s.role n ≠ 3 then s
  else if fails = 0 then
    (s.inc (F.cpCupPasses n)).wr (F.cpCupState n) 2
  else
    let last := (((List.range 4).filter fun i => tst fails i).getLast?).getD 0 + 1
    ((s.inc (F.cpCupFails n)).wr (F.cpCupLastFail n) last).wr (F.cpCupState n) 3

/-- ROTATE (R441): with every standby READY, the holder writes a checkpoint, the standby takes the claim with nothing to
replay, and the old holder stands by. -/
def State.rotate (s : State) : State × Nat :=
  let ns := s.standbys
  if ns.isEmpty || s.holders'.isEmpty || (ns.any fun n => s.cupState n ≠ 2) then (s, fState)
  else (((s.checkpoint).claimGrant ns).tel (blkCp 0) 2 0 1, 0)

/-- Restart processors from boot slot RSLOT (R441). -/
def State.reload (s : State) (ns : List Nat) : State := each ns (fun n s => s.setRole n 6) s

/-- What TRIO.ROTATE, STBY_RELOAD and PAIR_RELOAD do. -/
def hookTrio : Hook := fun v s =>
  let (s, a) := if tst v 12 then s.rotate else (s, 0)
  let (s, b) := if !tst v 13 then (s, 0)
    else match s.standbys with
      | [n] => (s.reload [n], 0)
      | _ => (s, fState)
  if !tst v 14 then (s, a ||| b)
  else if s.holders'.any (· < 2) then (s, a ||| b ||| fState)
  else (s.reload [0, 1], a ||| b)

/-- RELOAD_SELF_TEST_DONE (R441). -/
def State.reloaded (s : State) (n : Nat) (pass : Bool) : State :=
  if s.role n ≠ 6 then s else s.setRole n (if pass then 3 else 5)

/-- What RST.WDOG.KICK does: a write under the current claim restarts the limit. -/
def hookWdog : Hook := fun v s =>
  if tst v 0 then ({ s with cpx := { s.cpx with wdogSince := s.beat } }, 0) else (s, 0)

/-- WDOG_EXPIRY: the claim holder has not kicked for WDOG.LIMIT; handled as a PAIR mismatch (Table RST-6). -/
def State.wdogExpiry (s : State) : State :=
  if s.holders'.isEmpty || s.beat < s.cpx.wdogSince + s.rd F.rstWdogLimit * ms then s
  else (s.freeze.raise blkRst 9 none).tel blkRst 4 6 1

/-- Write fields of TRIO. -/
def State.trioWrite (s : State) (f : Fld) (c : Cmd) : State := s.ctlWrite f.csa (s.compose f.csa [(f, 1)]) c hookTrio

/-! ## Commands -/

/-- HOME_SLICE_FAULT (R421, R422): the pipeline checkers of a slice. -/
def execHomeSliceFault (home : Fin 64) (s : State) : Host.Outcome State Fault Refusal := live s fun s => s.homeFault home.val 2

/-- HAVL_FAIL (R421). -/
def execHavlFail (home : Fin 64) (c : Cmd) (s : State) : Host.Outcome State Fault Refusal :=
  live s fun s => s.ctlWrite (F.homeHavlFail home.val).csa (s.compose (F.homeHavlFail home.val).csa [(F.homeHavlFail home.val, 1)]) c
    (hookHavl home.val)

/-- HAVL_RETURN (R425). -/
def execHavlReturn (home : Fin 64) (c : Cmd) (s : State) : Host.Outcome State Fault Refusal :=
  live s fun s => s.ctlWrite (F.homeHavlReturn home.val).csa
    (s.compose (F.homeHavlReturn home.val).csa [(F.homeHavlReturn home.val, 1)]) c (hookHavl home.val)

/-- HOME_SELF_TEST_DONE (R425). -/
def execHomeSelfTestDone (home : Fin 64) (pass : Bool) (s : State) : Host.Outcome State Fault Refusal :=
  live s fun s => s.homeTested home.val pass

/-- HOME_HANDBACK (R425). -/
def execHomeHandback (home : Fin 64) (s : State) : Host.Outcome State Fault Refusal :=
  live s fun s => (s.handback home.val).resumeInvokes

/-- FATAL_ERROR of a block (R426, Table AVL-2). -/
def execFatalError (blk : Fin 863) (s : State) : Host.Outcome State Fault Refusal := always s fun s => s.fatal blk.val none

/-- PAIR_MISMATCH (R434): the commands that the two members produced in a beat. -/
def execPairMismatch (a b : List Byte) (s : State) : Host.Outcome State Fault Refusal := live s fun s => s.pairMismatch a b

/-- CLAIM_GRANT (R437). -/
def execClaimGrant (cp : Fin 3) (agree : Bool) (s : State) : Host.Outcome State Fault Refusal :=
  live s fun s => s.claimAsk cp.val agree

/-- CHECKPOINT (R436). -/
def execCheckpoint (s : State) : Host.Outcome State Fault Refusal := live s fun s => s.checkpointDue

/-- CUPPING_CYCLE (R440). -/
def execCuppingCycle (cp : Fin 3) (fails : BitVec 4) (s : State) : Host.Outcome State Fault Refusal :=
  live s fun s => s.cupping cp.val fails.toNat

/-- ROTATE (R441). -/
def execRotate (c : Cmd) (s : State) : Host.Outcome State Fault Refusal := live s fun s => s.trioWrite F.cpTrioRotate c

/-- STBY_RELOAD (R441). -/
def execStbyReload (c : Cmd) (s : State) : Host.Outcome State Fault Refusal := live s fun s => s.trioWrite F.cpTrioStbyReload c

/-- PAIR_RELOAD (R441). -/
def execPairReload (c : Cmd) (s : State) : Host.Outcome State Fault Refusal := live s fun s => s.trioWrite F.cpTrioPairReload c

/-- RELOAD_SELF_TEST_DONE (R441). -/
def execReloadSelfTestDone (cp : Fin 3) (pass : Bool) (s : State) : Host.Outcome State Fault Refusal :=
  live s fun s => s.reloaded cp.val pass

/-- WDOG_KICK (R461). -/
def execWdogKick (c : Cmd) (s : State) : Host.Outcome State Fault Refusal :=
  live s fun s => s.ctlWrite F.rstWdogKick.csa (s.compose F.rstWdogKick.csa [(F.rstWdogKick, 1)]) c hookWdog

/-- WDOG_EXPIRY (Table RST-6). -/
def execWdogExpiry (s : State) : Host.Outcome State Fault Refusal := live s fun s => s.wdogExpiry

end Sys2Proof.Machine
end

