-- ==== Sys2Proof/Machine/Resets.lean ====
section
/-! DEFINITION. Resets, the strap, start-up and boot slots, the recovery service, block resets, hangs and dump records (R442 to
R465). -/

namespace Sys2Proof.Machine

/-! ## What a reset keeps (R443) -/

/-- The T7 of a state with its reset logic changed. -/
def State.setRst (s : State) (f : Rst → Rst) : State := { s with rst := f s.rst }

/-- The physical readings of PWR, which no reset changes. -/
def Pwr.kept (p : Pwr) : Pwr :=
  { Pwr.reset with
    railsOut := p.railsOut, railsOkSince := p.railsOkSince, resetN := p.resetN, refLost := p.refLost, temp := p.temp,
    vcore := p.vcore, amps := p.amps, thermtrip := p.thermtrip }

/-- Health of the laser source modules, read from them (R313). -/
def State.keepLasers (s : State) (old : State) : State :=
  each (List.range 8) (fun g s =>
    ((s.wr (F.fportLaserPresent g) (old.rd (F.fportLaserPresent g))).wr (F.fportLaserAok g) (old.rd (F.fportLaserAok g))).wr
      (F.fportLaserBok g) (old.rd (F.fportLaserBok g))) s

/-- What the strap band sets (R449, R450): the role of the mirror and who orders, and ports left disabled in the bench role and
under safe boot. -/
def State.strapSets (s : State) : State :=
  let r := s.strapRole
  let s := s.wr F.homeMirCtlRole (if r = 1 then 1 else if r = 2 then 2 else 0)
  let s := s.wr F.homeMirSyncOrderer (if r = 1 then 1 else 0)
  if r = 3 || s.on F.rstStrapSafe then
    each (List.range 64) (fun p s => (s.wr (F.fportLctlDisable p) 1).wr (F.fportLstatState p) 0) s
  else s

/-- The 16 samples of the strap converter, each V_pin / V_ref in 1/65,536 (the resolution is no number of the spec's), averaged:
k = round(18 × V_pin / V_ref), a half upwards (R448). -/
def strapCode (v : BitVec 256) : Nat :=
  let sum := ((List.range 16).map fun i => bits v.toNat (16 * i + 15) (16 * i)).foldl (· + ·) 0
  (18 * sum * 2 + 2 ^ 20) / 2 ^ 21

/-- Read the strap (R448): the converter result k gives the band; the pin shorted or open is a strap fault. -/
def State.readStrap (s : State) (k : Nat) : State :=
  let bad := k = 0 || 17 ≤ k
  let band := if bad then 13 else k - 1
  let s := (((s.wr F.rstStrapBand band).wr F.rstStrapFault (if bad then 1 else 0)).wr F.rstStrapSafe (band % 2)).wr F.rstStrapK k
  let s := s.strapSets
  if bad then s.raise blkRst 9 (some 18) else s

/-- Power-on reset (R443): everything but what lies outside the T7: boot flash, modules and the queue of commands. -/
def State.powerOn (s : State) (k : Nat) : State :=
  let s' : State := { State.reset with
    pending := s.pending, free := s.free, sec := { State.reset.sec with flash := s.sec.flash },
    pwr := { Pwr.reset with railsOut := s.pwr.railsOut, temp := s.pwr.temp, vcore := s.pwr.vcore, amps := s.pwr.amps } }
  (s'.keepLasers s).readStrap k

/-- A cold or warm reset with a LAST code (Table RST-2); `strap` is the converter result that a cold reset reads. -/
def State.resetAll (s : State) (last : Nat) (strap : Option Nat) : State :=
  let s' : State := { State.reset with
    pending := s.pending, beat := s.beat, free := s.free,
    regs := s.regs.filter fun e => csaRetained e.1 || e.1 == F.rstStrapBand.csa,
    cpx := { State.reset.cpx with log := s.cpx.log, wdogSince := s.beat },
    sec := { State.reset.sec with flash := s.sec.flash },
    pwr := s.pwr.kept, rst := { State.reset.rst with resetting := some last } }
  let s' := s'.wr F.rstCauseLast last
  let s' := s'.wr F.rstCauseHist (s.rd F.rstCauseHist ||| 2 ^ (last - 1))
  let s' := ((s'.wr F.cpTrioClaim (s.rd F.cpTrioClaim)).wr F.rstBootNext (s.rd F.rstBootNext)).wr F.rstBootUnconf
    (s.rd F.rstBootUnconf)
  let s' := (s'.wr F.rstCtlStage 1).keepLasers s
  let s' := match strap with
    | some k => s'.readStrap k
    | none => s'.strapSets
  s'.tel blkRst 1 last 1

/-- COLD_RESET_PIN: RESET_N is low. -/
def State.coldPin (s : State) (k : Nat) : State := (s.resetAll 2 (some k)).setPwr fun p => { p with resetN := false }

/-- COLD_RESET_RAIL: 1 ms after the halt of a rail fault began; held until every rail is good (R518). -/
def State.coldRail (s : State) (k : Nat) : State :=
  match s.pwr.railHalt with
  | some b => if s.beat < b + ms then s else (s.resetAll 3 (some k)).setPwr fun p => { p with railHold := true }
  | none => s

/-- RESET_END (R444): the claim number rises by one and CP0 and CP1 hold it as the PAIR; the boot confirmation starts (R456).
RESET_N has risen, or every rail has been within limits for 10 ms. -/
def State.resetEnd (s : State) : State :=
  match s.rst.resetting with
  | none => s
  | some l =>
    if l = 3 && (!s.pwr.railsOut.isEmpty || s.beat < s.pwr.railsOkSince + 10 * ms) then s
    else
      let s := s.setPwr fun p => { p with resetN := true, railHold := false }
      let s := (s.setRst fun r => { r with resetting := none, bootTimer := some s.beat })
      let s := s.wr F.cpTrioClaim ((s.rd F.cpTrioClaim + 1) % 2 ^ 32)
      (((s.wr F.cpTrioRole0 1).wr F.cpTrioRole1 1).wr F.cpTrioRole2 3).raise blkRst 2 none

/-- What RST.CTL.WARM, RESTART and TRAIN do (R442, R447, R453). -/
def hookRstCtl : Hook := fun v s =>
  let s := if tst v 2 then s.startTraining else s
  if tst v 0 then (s.resetAll 4 none, 0)
  else if !tst v 1 || !s.halted then (s, 0)
  else match s.rst.haltAt with
    | some b => if b + ms ≤ s.beat then (s.resetAll 5 none, 0) else (s.setRst fun r => { r with restart := true }, 0)
    | none => (s.resetAll 5 none, 0)

/-- AUTO_RESTART (R447): AUTO × 10 ms after the halt began, or at its first millisecond where RESTART was written before. -/
def State.autoRestart (s : State) : State :=
  match s.rst.haltAt with
  | some b =>
    let a := s.rd F.rstCtlAuto
    if s.halted && ((s.rst.restart && b + ms ≤ s.beat) || (a ≠ 0 && b + a * 10 * ms ≤ s.beat)) then s.resetAll 5 none else s
  | none => s

/-! ## Images and boot slots (R455, R456, R479) -/

/-- A field of an image's header. -/
def imgField (img : List Byte) (lo n : Nat) : Nat := leNat (sliceZ img lo n)

/-- Header and payload of an image. -/
def imgSigned (img : List Byte) : List Byte := img.take (64 + imgField img 12 4)

/-- Does the boot ROM accept an image? -/
def State.imageOk (s : State) (img : List Byte) : Bool :=
  let len := imgField img 12 4
  let key := imgField img 16 1
  64 ≤ img.length && imgField img 0 4 == 0x57463754 && imgField img 4 2 == 1 && imgField img 6 2 == 0x07A1 &&
  len ≤ 2 ^ 24 && 64 + len + 29792 ≤ img.length && key ≤ 3 &&
  !(match s.min? with
    | some m => tst m.revoke.toNat key || imgField img 8 4 < m.minsvn.toNat
    | none => false) &&
  Config.slhVerify false (Config.romKey key) (ascii "T7-FW") (imgSigned img) ((img.drop (64 + len)).take 29792)

/-- The image of a boot slot: 0 A, 1 B. -/
def State.slotImage (s : State) (slot : Nat) : List Byte := ((s.sec.flash[slot]?).map (·.image)).getD []

/-- Run the image of a slot. -/
def State.bootSlot (s : State) (slot : Nat) (fell : Bool) : State :=
  let img := s.slotImage slot
  ((s.wr F.rstBootUsed slot).wr F.rstBootFallback (if fell then 1 else 0)).setSec fun x => { x with
    fw := some (shake256 (imgSigned img), imgField img 8 4) }

/-- The boot ROM reads and verifies an image, from the other slot when the first fails (R455). -/
def State.bootVerify (s : State) : State :=
  let next := s.rd F.rstBootNext
  let slot := if 2 ≤ next then next - 2 else s.rd F.rstStrapBand / 2 % 2
  let s := s.wr F.rstBootNext 0
  if s.imageOk (s.slotImage slot) then s.bootSlot slot false
  else if s.imageOk (s.slotImage (1 - slot)) then s.bootSlot (1 - slot) true
  else s.wr F.rstBootFail 1

/-- STAGE_ADVANCE (R452): the stage ends with what it found: islands whose clock did not lock or whose trees failed, and tiles
that failed their start-up self-test (R454).  In stage 2 PWR sets the transition rate of the regulator and first commands it
(R519). -/
def State.stageAdvance (s : State) (islands tiles : List Nat) : State :=
  let stage (n : Nat) (s : State) : State := s.wr F.rstCtlStage n
  match s.rd F.rstCtlStage with
  | 0 => stage 1 s
  | 1 =>
    if s.rst.resetting.isSome || !s.pwr.railsOut.isEmpty then s
    else stage 2 ((s.setPwr fun p => { p with resetN := true, vrate := 10 }).command s.step')
  | 2 => if islands.isEmpty then stage 3 s else s.fatal blkBeat none
  | 3 =>
    if s.on F.rstBootFail then s
    else
      let s := s.bootVerify
      if s.on F.rstBootFail then s
      else each tiles (fun t s => s.tileFault t 5) ((stage 4 s).setRole 2 3)
  | 4 => if s.mem.up then stage 5 s else s
  | _ => s

/-- What BOOT.OK does (R456). -/
def hookBoot : Hook := fun v s =>
  if tst v 4 then (((s.wr F.rstBootConfirmed 1).wr F.rstBootUnconf 0).setRst fun r => { r with bootTimer := none }, 0) else (s, 0)

/-- BOOT_CONFIRM_EXPIRY (R456): a warm reset to the other slot, and after a second unconfirmed boot the T7 stays in stage 3 with
FAIL set. -/
def State.bootExpiry (s : State) : State :=
  match s.rst.bootTimer with
  | none => s
  | some b =>
    if s.on F.rstBootFail || s.beat < b + s.rd F.rstBootTmo * 1000 * ms then s
    else
      let n := s.rd F.rstBootUnconf + 1
      let s := (s.inc F.rstBootUnconf).wr F.rstBootNext (2 + (1 - s.rd F.rstBootUsed))
      let s := s.resetAll 6 none
      if 2 ≤ n then s.wr F.rstBootFail 1 else s

/-! ## The recovery service (R457, Table RST-8) -/

/-- Serve a recovery command for the roles that may send it; every other is DENIED. -/
def State.recover (s : State) (conn : Nat) (f : Frame) (roles : List Role) (k : Session → State → State) : State :=
  match s.openFrame conn f with
  | (none, s) => s
  | (some x, s) =>
    if s.recovering && (match x.who with | some c => roles.contains c.role | none => false) then k x s
    else s.answer conn f.ty.toNat .denied

/-- What READ_STATE returns: CAUSE, STRAP, BOOT, DEVID, the IDK certificate and the minimum-version record in force. -/
def State.stateReport (s : State) : List Byte :=
  natLe 8 (s.reg F.rstCauseLast.csa) ++ natLe 8 (s.reg F.rstStrapBand.csa) ++ natLe 8 (s.reg F.rstBootNext.csa) ++
  natLe 8 (s.reg (blkRst * 0x100000 + 0x140)) ++ Config.idkCertificate ++
  (match s.min? with | some m => minSigned m ++ m.sig | none => [])

/-- WRITE_IMAGE: verified before it is written. -/
def State.writeImage (s : State) (slot : Nat) (img : List Byte) (x : Session) (ty : Nat) : State :=
  if s.imageOk img then
    (s.setSec fun y => { y with flash := y.flash.modify slot fun b => { b with image := img } }).answer x.conn ty .done
  else s.answer x.conn ty .denied

/-- The DEVICE report of the recovery service: FW_DIG zero and no entries. -/
def State.recoveryReport (s : State) (nonce : BitVec 256) : List Byte :=
  let s := { s with disp := { s.disp with places := [] }, sec := { s.sec with meas := [] } }
  let b := s.reportBody nonce none (0#512, 0)
  b ++ Config.slhSign true s.akSeed (ascii "T7-ATTEST") b

/-! ## Block resets (R458 to R460) -/

/-- Is a block in Table RST-5 and in a state that allows its reset? -/
def State.blkAllowed (s : State) (b : Nat) : Bool :=
  if b < 672 then s.tileState b == 1 || s.tileState b == 3
  else if 736 ≤ b && b < 768 then [2, 3, 7].contains (s.rd (F.dchFenceState (b - 736)))
  else if 768 ≤ b && b < 832 then true
  else if 832 ≤ b && b < 848 then [0, 4, 5].contains (s.drv (b - 832))
  else (850 ≤ b && b ≤ 853) || b == blkMgt

/-- What BLK.GO does: the block quiesces, or the command is refused. -/
def hookBlk : Hook := fun v s =>
  if !tst v 10 then (s, 0)
  else if s.rst.blk.isSome then (s, fBusy)
  else
    let b := s.rd F.rstBlkTarget
    if !s.blkAllowed b then (s.wr F.rstBlkState 4, fRefused)
    else
      let s := ((s.wr F.rstBlkState 1).wr F.rstBlkForced 0).wr (F.hdrStateInreset b) 1
      (s.setRst fun r => { r with blk := some (b, s.beat), blkIn := none }, 0)

/-- The idle condition of Table RST-5. -/
def State.blkIdle (s : State) (b : Nat) : Bool :=
  if 768 ≤ b && b < 832 then (s.link (b - 768)).rx.isEmpty
  else if b = 852 || b = 853 then
    !(s.flash.moves.any fun m => m.perc == b - 852 && ((!m.demote && m.stage == 0) || (m.demote && m.stage == 1)))
  else true

/-- BLOCK_RESET_ENTER: the idle condition holds, or BLK.TMO has passed. -/
def State.blkEnter (s : State) : State :=
  match s.rst.blk, s.rst.blkIn with
  | some (b, at_), none =>
    let idle := s.blkIdle b
    if !idle && s.beat < at_ + s.rd F.rstBlkTmo then s
    else
      let s := ((s.wr F.rstBlkState 2).wr F.rstBlkForced (if idle then 0 else 1)).tel blkRst 2 0 1
      let s := if idle then s else s.tel blkRst 3 0 1
      s.setRst fun r => { r with blkIn := some s.beat }
  | _, _ => s

/-- What the reset of a block clears, and the state it leaves (Table RST-5). -/
def State.blkClear (s : State) (b : Nat) : State :=
  if b < 672 then
    let s := s.setTiles fun x => { x with
      cores := x.cores.filter (fun e => e.1 / 128 ≠ b), pend := x.pend.filter (fun p => p.tile ≠ b),
      ports := x.ports.filter (fun p => p.tile ≠ b), spad := x.spad.filter (fun e => e.1 / 2 ^ 20 ≠ b),
      spois := x.spois.filter (fun e => e.1 / 2 ^ 17 ≠ b), counts := x.counts.filter (fun e => e.1 / 16 ≠ b),
      landing := x.landing.filter (fun e => e.1 / 256 ≠ b), flips := x.flips.filter (fun e => e.1 / 2 ^ 17 ≠ b),
      crosses := x.crosses.filter (fun c => c.tile ≠ b), owed := x.owed.filter (fun e => e.1 ≠ b) }
    s.spareTest b
  else if b < 768 then
    let k := b - 736
    let s := s.setDc k fun d => { d with
      slotq := [], again := [], hist := [], fqV := DchSt.reset.fqV, fqF := DchSt.reset.fqF, fqH := DchSt.reset.fqH }
    if s.rd (F.dchFenceState k) = 3 then s else (s.wr (F.dchFenceState k) 4).wr (F.dchTrainBusy k) 1
  else if b < 832 then s.setLink (b - 768) fun l => { l with tx := [], sending := Link.reset.sending }
  else if b < 848 then s.wr (F.nvpDrvState (b - 832)) 0
  else if b = 850 || b = 851 then s
  else if b ≤ 853 then s.percReset (b - 852)
  else each (s.sec.sessions.map (·.conn)) (fun c s => s.endSession c s.beat) s

/-- BLOCK_RESET_END: after 16 beats the block leaves reset, an event of class 9; the commands its clapper held. -/
def State.blkEnd (s : State) : List HeldCmd × State :=
  match s.rst.blk, s.rst.blkIn with
  | some (b, _), some at_ =>
    if s.beat < at_ + 16 then ([], s)
    else
      let s := ((s.blkClear b).wr F.rstBlkState 3).wr (F.hdrStateInreset b) 0
      let held := sortBy (fun h : HeldCmd => h.cmd.seq.toNat) s.rst.held
      (held, (s.setRst fun r => { r with blk := none, blkIn := none, held := [] }).raise blkRst 9 none)
  | _, _ => ([], s)

/-! ## Hangs (R461 to R464, Table RST-6) -/

/-- A job is killed as hung with a cause of Table RST-6 (R462 step 1). -/
def State.hangJob (s : State) (i : Inst) (cause : Nat) : State :=
  let s := (s.raise blkDisp 9 none).tel blkRst 4 cause 1
  let s := (s.endJob i.tenant i.job 0x0C).2
  if s.dumping i then s
  else s.setDisp fun d => { d with dumps := d.dumps ++ [⟨i.tenant, i.job, cause, i.idx, s.beat⟩] }

/-- PHASE_HANG: no core has completed the dynamic phase for PHASE_TMO since it began. -/
def State.phaseHang (s : State) (n : Nat) : State :=
  match s.inst? n with
  | none => s
  | some i => match i.place.bind s.place? with
    | none => s
    | some p =>
      let ended := p.sites.any fun e => match s.server e.1 with
        | some t => e.2.any fun c => (s.core (128 * t + c)).ended
        | none => false
      if i.ends && i.state = 1 && (p.phase i.phase).kind = 1 && !ended && i.since + s.rd F.rstHangPhaseTmo * ms ≤ s.beat then
        s.hangJob i 1
      else s

/-- GATE_HANG: a gate bar has repeated for GATE_TMO. -/
def State.gateHang (s : State) (n : Nat) : State :=
  match s.inst? n with
  | none => s
  | some i => match i.place.bind s.place? with
    | none => s
    | some p =>
      if i.ends && i.state = 1 && i.bodyAt.isNone && ((p.phase i.phase).kind ≠ 1 || s.coresEnded p) &&
          i.since + s.rd F.rstHangGateTmo * ms ≤ s.beat then s.hangJob i 2
      else s

/-- WAIT_HANG: not started for WAIT_TMO after acceptance. -/
def State.waitHang (s : State) (n : Nat) : State :=
  match s.inst? n with
  | none => s
  | some i => if i.state = 0 && i.accBeat + s.rd F.rstHangWaitTmo * ms ≤ s.beat then s.hangJob i 3 else s

/-- HOME_TRANSACTION_HANG (R463). -/
def State.homeHang (s : State) (hm idx : Nat) : State :=
  match s.homes.txns.find? fun t => t.home == hm && t.idx == idx with
  | none => s
  | some t =>
    let waits := match t.stage with | .chan _ => true | .stamp => true | _ => false
    if waits || s.beat < t.opened + s.rd F.rstHangHomeTmo * 1024 then s
    else
      let owner := t.stage == .snoop && t.snoops.any fun n =>
        (s.holders hm t.line).any fun e => keySlot e.1 == n.slot && e.2.st == 3
      let s := ((s.raise (blkHome hm) 6 none).raise (blkHome hm) 9 none).tel blkRst 4 4 1
      let s := if owner && !t.req.drop then s.poisonLine t.dpa hm else s
      let s := if t.req.op < 0x200 then s.failReq hm t.req stBusError else s
      let s := (s.closeTxn t).settle hm
      let hs := (s.homes.hangs.filter fun h => h.1 ≠ hm || s.beat < h.2 + ms) ++ [(hm, s.beat)]
      let s := { s with homes := { s.homes with hangs := hs } }
      if 16 ≤ (hs.filter fun h => h.1 == hm).length then s.homeFault hm 2 else s

/-- LINK_HANG (R464): a channel stalled for LINK_TMO; the port is disabled and flushed. -/
def State.linkHang (s : State) (p : Nat) : State :=
  let late := (s.link p).stalled.any fun x => match x with
    | some b => decide (b + s.rd F.rstHangLinkTmo * 3125 ≤ s.beat)
    | none => false
  if s.lstate p ≠ 3 || !late then s
  else
    let s := ((s.raise (blkPort p) 9 none).tel blkRst 4 5 1).wr (F.fportLctlDisable p) 1
    (s.linkOff p).setLink p fun l => { l with hungAt := some s.beat }

/-- HUNG_LINK_REENABLE: one millisecond after a hung link was disabled. -/
def State.linkReenable (s : State) (p : Nat) : State :=
  match (s.link p).hungAt with
  | none => s
  | some b =>
    if s.beat < b + ms then s
    else
      let s := (s.setLink p fun l => { l with hungAt := none }).wr (F.fportLctlDisable p) 0
      if s.lstate p = 0 then s.wr (F.fportLstatState p) 1 else s

/-! ## Dump records (R462, R465, Table RST-7) -/

/-- Write bytes to DRAM from a line on. -/
def State.writeArea (s : State) (dpa : Nat) (bs : List Byte) : State :=
  each (List.range (ceilDiv bs.length 128)) (fun k s =>
    s.writeLine (dpa + 128 * k) (lineOf (sliceZ bs (128 * k) 128)) (BitVec.allOnes 128) false (k % 64)) s

/-- The page of a core in a dump record. -/
def State.dumpCore (s : State) (key : Nat) : List Byte :=
  let c := s.core key
  let waits : Nat := if c.ended then 3 else if c.waiting.isSome then 1
    else if s.tiles.dlds.any fun d => d.tile * 128 + d.core == key then 2 else 0
  natLe 2 c.pc ++ natLe 1 c.flags ++ natLe 1 waits ++ natLe 60 0 ++
  (List.range 32).flatMap (fun r => natLe 8 (c.sreg r).val.toNat) ++ natLe 192 0 ++
  (List.range 64).flatMap (fun r => natLe 32 (c.vreg r).val.toNat) ++
  (List.range 32).flatMap (fun a => natLe 32 (c.acc (a / 8) (a % 8)).image) ++
  (List.range 64).flatMap (fun r => natLe 1 (c.vreg r).poison.toNat) ++ natLe 448 0

/-- The header page of a dump record. -/
def State.dumpHeader (s : State) (d : Dump) (i : Inst) (t : Nat) : List Byte :=
  let bar := match i.bodyAt with | some b => ((s.mbar : Int) - b).toNat | none => 0
  natLe 2 d.job ++ natLe 1 d.tenant ++ natLe 1 d.cause ++ natLe 2 t ++ natLe 2 ((s.siteOf t).getD t) ++
  natLe 1 (i.place.getD 0) ++ natLe 1 (if i.idx = d.trig then 1 else 0) ++ natLe 1 i.phase ++ natLe 5 0 ++
  natLe 8 d.at_ ++ natLe 8 s.beat ++ natLe 4 bar ++ natLe 4060 0

/-- A whole dump record of a tile. -/
def State.dumpRecord (s : State) (d : Dump) (i : Inst) (t : Nat) : List Byte :=
  let counts := (List.range 16).map fun c => (SMap.get 0 s.tiles.counts (16 * t + c)).toNat
  let bad := (s.tiles.spois.filter fun e => e.1 / 2 ^ 17 == t && e.2).map fun e => e.1 % 2 ^ 17
  s.dumpHeader d i t ++ padTo 4096 (Config.dumpTilePage counts bad i.flags) ++ s.spadRead t 0 4096 ++
  s.spadRead t (2 ^ 20 - 4096) 4096 ++ (List.range 128).flatMap (fun c => padTo 4096 (s.dumpCore (128 * t + c))) ++
  natLe (48 * 1024) 0

/-- Capture one tile: the lowest free slot, or one more skipped. -/
def State.dumpTile (s : State) (d : Dump) (i : Inst) (t : Nat) : State :=
  match findLow (s.rd F.rstDumpSlots) fun n => !s.rst.dumpUsed.contains n with
  | none => s.inc F.rstDumpSkipped
  | some n =>
    let s := s.writeArea (s.rd F.rstDumpBase * 0x10000 + n * 576 * 1024) (s.dumpRecord d i t)
    let s := s.setRst fun r => { r with dumpUsed := insertBy id n r.dumpUsed }
    (s.wr F.rstDumpUsed s.rst.dumpUsed.length).tel blkRst 5 0 1

/-- Reset a tile of a hung job (R462 steps 3 and 5): cores, counters, the placement's landing entries and the scratchpad, then
the preloads. -/
def State.hangTile (s : State) (i : Inst) (t : Nat) : State :=
  let entries := (((i.place.bind s.place?).map fun p => (p.landing.filter fun l => l.1 == t).map (·.2.1))).getD []
  let s := s.setTiles fun x => { x with
    cores := x.cores.filter (fun e => e.1 / 128 ≠ t), pend := x.pend.filter (fun p => p.tile ≠ t),
    counts := x.counts.filter (fun e => e.1 / 16 ≠ t), spad := x.spad.filter (fun e => e.1 / 2 ^ 20 ≠ t),
    spois := x.spois.filter (fun e => e.1 / 2 ^ 17 ≠ t), dlds := x.dlds.filter (fun w => w.tile ≠ t),
    flips := x.flips.filter (fun e => e.1 / 2 ^ 17 ≠ t),
    landing := x.landing.filter fun e => e.1 / 256 ≠ t || !entries.contains (e.1 % 256) }
  each s.disp.places (fun p s => each (p.sites.map (·.1)) (fun site s =>
    if s.server site = some t then s.loadSite p site else s) s) s

/-- DUMP_CAPTURE_COMPLETE of a hung job whose instances have all stopped. -/
def State.dumpDone (s : State) (tenant job : Nat) : State :=
  match s.disp.dumps.find? fun d => d.tenant == tenant && d.job == job with
  | none => s
  | some d =>
    let is := (s.jobInsts tenant job).filter fun i => i.place.isSome
    if is.any fun i => i.state == 1 then s
    else
      let on (t : Nat) : Option Inst := is.find? fun i => (((i.place.bind s.place?).map s.placeTiles).getD []).contains t
      let tiles := (List.range 672).filter fun t => (on t).isSome
      let cap := s.on F.rstDumpEn
      let s := each tiles (fun t s => match on t with
        | some i => if cap then s.dumpTile d i t else s
        | none => s) s
      let s := each tiles (fun t s => match on t with
        | some i => s.hangTile i t
        | none => s) s
      s.setDisp fun x => { x with dumps := x.dumps.filter (· ≠ d) }

/-- What RST.DUMP.FREE does. -/
def hookDump : Hook := fun v s =>
  if tst v 43 then ((s.setRst fun r => { r with dumpUsed := [] }).wr F.rstDumpUsed 0, 0) else (s, 0)

/-- Write one command bit of an RST register. -/
def State.rstWrite (s : State) (fs : List (Fld × Nat)) (csa : Nat) (c : Cmd) (hook : Hook) : State :=
  s.ctlWrite csa (s.compose csa fs) c hook

/-! ## Commands -/

/-- POWER_ON_RESET (R443), with the strap converter's 16 samples (R448). -/
def execPowerOnReset (v : BitVec 256) (s : State) : Host.Outcome State Fault Refusal := supply s fun s => s.powerOn (strapCode v)

/-- VAON_LOSS (R518). -/
def execVaonLoss (s : State) : Host.Outcome State Fault Refusal :=
  supply s fun s => s.setRst fun r => { r with porHeld := true }

/-- COLD_RESET_PIN (R442). -/
def execColdResetPin (v : BitVec 256) (s : State) : Host.Outcome State Fault Refusal :=
  always s fun s => s.coldPin (strapCode v)

/-- COLD_RESET_RAIL (R518). -/
def execColdResetRail (v : BitVec 256) (s : State) : Host.Outcome State Fault Refusal :=
  always s fun s => s.coldRail (strapCode v)

/-- WARM (R442). -/
def execWarm (c : Cmd) (s : State) : Host.Outcome State Fault Refusal :=
  always s fun s => s.rstWrite [(F.rstCtlWarm, 1)] F.rstCtlWarm.csa c hookRstCtl

/-- RESTART (R447). -/
def execRestart (c : Cmd) (s : State) : Host.Outcome State Fault Refusal :=
  always s fun s => s.rstWrite [(F.rstCtlRestart, 1)] F.rstCtlRestart.csa c hookRstCtl

/-- AUTO_RESTART (R447). -/
def execAutoRestart (s : State) : Host.Outcome State Fault Refusal := always s fun s => s.autoRestart

/-- RESET_END (R444). -/
def execResetEnd (s : State) : Host.Outcome State Fault Refusal := always s fun s => s.resetEnd

/-- STAGE_ADVANCE (R452). -/
def execStageAdvance (islands : List (Fin 100)) (tiles : List (Fin 672)) (s : State) : Host.Outcome State Fault Refusal :=
  live s fun s => s.stageAdvance (islands.map (·.val)) (tiles.map (·.val))

/-- DRAM_TRAIN (R453). -/
def execDramTrain (c : Cmd) (s : State) : Host.Outcome State Fault Refusal :=
  live s fun s => s.rstWrite [(F.rstCtlTrain, 1)] F.rstCtlTrain.csa c hookRstCtl

/-- BOOT_OK (R456). -/
def execBootOk (c : Cmd) (s : State) : Host.Outcome State Fault Refusal :=
  live s fun s => s.rstWrite [(F.rstBootOk, 1)] F.rstBootOk.csa c hookBoot

/-- BOOT_CONFIRM_EXPIRY (R456). -/
def execBootConfirmExpiry (s : State) : Host.Outcome State Fault Refusal := live s fun s => s.bootExpiry

/-- READ_STATE (Table RST-8). -/
def execReadState (conn : BitVec 16) (f : Frame) (s : State) : Host.Outcome State Fault Refusal :=
  managed s fun s => s.recover conn.toNat f [.owner, .operator, .auditor] fun x s =>
    s.answer x.conn f.ty.toNat (.state s.stateReport)

/-- WRITE_IMAGE (Table RST-8). -/
def execWriteImage (conn : BitVec 16) (f : Frame) (slotB : Bool) (img : List Byte) (s : State) :
    Host.Outcome State Fault Refusal :=
  managed s fun s => s.recover conn.toNat f [.owner, .operator] fun x s =>
    s.writeImage (if slotB then 1 else 0) img x f.ty.toNat

/-- WRITE_RECORD (Table RST-8). -/
def execWriteRecord (conn : BitVec 16) (f : Frame) (r : Sum CfgRecord MinRecord) (s : State) :
    Host.Outcome State Fault Refusal :=
  managed s fun s => s.recover conn.toNat f [.owner] fun x s => match r with
    | .inl c => s.putConfig x f.ty.toNat c
    | .inr m => s.putMinver x f.ty.toNat m

/-- ATTEST (Table RST-8). -/
def execAttest (conn : BitVec 16) (f : Frame) (nonce : BitVec 256) (s : State) : Host.Outcome State Fault Refusal :=
  managed s fun s => s.recover conn.toNat f [.owner, .operator, .auditor] fun x s =>
    (s.answer x.conn f.ty.toNat (.report (s.recoveryReport nonce))).tel blkSec 5 0 1

/-- REBOOT (Table RST-8). -/
def execReboot (conn : BitVec 16) (f : Frame) (slotB : Bool) (s : State) : Host.Outcome State Fault Refusal :=
  managed s fun s => s.recover conn.toNat f [.owner, .operator] fun _ s =>
    (s.wr F.rstBootNext (if slotB then 3 else 2)).resetAll 4 none

/-- BLOCK_RESET (R458). -/
def execBlockReset (target : BitVec 10) (c : Cmd) (s : State) : Host.Outcome State Fault Refusal :=
  live s fun s => s.rstWrite [(F.rstBlkTarget, target.toNat), (F.rstBlkGo, 1)] F.rstBlkGo.csa c hookBlk

/-- BLOCK_RESET_ENTER (R458). -/
def execBlockResetEnter (s : State) : Host.Outcome State Fault Refusal := live s fun s => s.blkEnter

/-- PHASE_HANG (Table RST-6). -/
def execPhaseHang (i : BitVec 12) (s : State) : Host.Outcome State Fault Refusal := live s fun s => s.phaseHang i.toNat

/-- GATE_HANG (Table RST-6). -/
def execGateHang (i : BitVec 12) (s : State) : Host.Outcome State Fault Refusal := live s fun s => s.gateHang i.toNat

/-- WAIT_HANG (Table RST-6). -/
def execWaitHang (i : BitVec 12) (s : State) : Host.Outcome State Fault Refusal := live s fun s => s.waitHang i.toNat

/-- HOME_TRANSACTION_HANG (R463). -/
def execHomeTransactionHang (home : Fin 64) (entry : BitVec 10) (s : State) : Host.Outcome State Fault Refusal :=
  live s fun s => (s.homeHang home.val entry.toNat).resumeInvokes

/-- LINK_HANG (R464). -/
def execLinkHang (port : Fin 64) (s : State) : Host.Outcome State Fault Refusal := live s fun s => s.linkHang port.val

/-- HUNG_LINK_REENABLE (R464). -/
def execHungLinkReenable (port : Fin 64) (s : State) : Host.Outcome State Fault Refusal := live s fun s => s.linkReenable port.val

/-- DUMP_CAPTURE_COMPLETE (R462). -/
def execDumpCaptureComplete (tenant : BitVec 8) (job : BitVec 16) (s : State) : Host.Outcome State Fault Refusal :=
  live s fun s => s.dumpDone tenant.toNat job.toNat

/-- DUMP_FREE (R465). -/
def execDumpFree (c : Cmd) (s : State) : Host.Outcome State Fault Refusal :=
  live s fun s => s.rstWrite [(F.rstDumpFree, 1)] F.rstDumpFree.csa c hookDump

end Sys2Proof.Machine
end

