-- ==== Sys2Proof/Machine/Telemetry.lean ====
section
/-! DEFINITION. Counters and sampling: counter overflow and freeze, the tenant counter pages and the sample rings (R489 to
R500). -/

namespace Sys2Proof.Machine

/-- Beats of a millisecond. -/
def msBeats : Nat := 31250

/-- Counter `m` of a block adds `n` in a cycle in which that takes it past 2^48 − 1 (R491); nothing happens where it does not
run, holds a maximum, is frozen, or does not wrap. -/
def State.counterOverflow (s : State) (blk m n : Nat) : State :=
  let ctl := s.rd (F.cntCtlEn blk m)
  if ctl = 0 || s.rd (F.cntCtlMode blk m) = 2 || s.on F.beatTelCtlFrozen || s.rd (F.cntCount blk m) + n < 2 ^ 48 then s
  else s.cntAdd blk m n

/-- The armed freeze takes effect (R492). -/
def State.counterFreeze (s : State) : State :=
  if s.on F.beatTelCtlFrz && !s.on F.beatTelCtlFrozen && s.rd F.beatFrzAtBeat ≤ s.beat then s.wr F.beatTelCtlFrozen 1 else s

/-- What a write of BEAT.TEL_CTL does: FRZ = 0 resumes every counter (R492). -/
def hookTel : Hook := fun _ s => (if s.on F.beatTelCtlFrz then s else s.wr F.beatTelCtlFrozen 0, 0)

/-! ## Tenant counter pages (R498) -/

/-- May a tenant's counter page be kept in a region: active, DIRECT, bound to the tenant? -/
def State.tpageOk (s : State) (t id : Nat) : Bool :=
  match s.rgn? id with
  | some g => g.mode == 1 && g.tenant == t
  | none => false

/-- What a write of HOME[0].TPAGE[t] does, `old` being the word before it: EN = 1 with a region that may not hold the page is
discarded; the update period runs from the write that sets EN. -/
def hookTpage (t old : Nat) : Hook := fun _ s =>
  if !s.on (F.homeTpageEn t) then (s, 0)
  else if !s.tpageOk t (s.rd (F.homeTpageRegion t)) then (s.setReg (F.homeTpageEn t).csa old, fState)
  else if tst old 16 then (s, 0)
  else ({ s with tpageAt := SMap.set 0 s.tpageAt t s.beat }, 0)

/-- Line 0 of a counter page. -/
def tpageLine0 (seq beat t : Nat) : List Byte := natLe 8 seq ++ natLe 8 beat ++ natLe 1 t

/-- Line 1 of a counter page: the 16 counters. -/
def State.tpageLine1 (s : State) (t : Nat) : List Byte :=
  (List.range 16).flatMap fun i => natLe 8 (SMap.get 0 s.tenCnt (t * 16 + i))

/-- Write one line of a region through its page tables; a line that no leaf reaches is not written. -/
def State.regionLine (s : State) (space off : Nat) (bs : List Byte) : State :=
  let (w, s) := s.walk 0 space off false false 0
  match w with
  | .leaf e lg => s.writeLine (leafDpa e lg off) (lineOf bs) (BitVec.allOnes 128) false 0
  | _ => s

/-- TPAGE_UPDATE of a tenant: line 0 with SEQ odd, line 1, line 0 with SEQ even. -/
def State.tpageUpdate (s : State) (t : Nat) : State :=
  if !s.on (F.homeTpageEn t) || s.beat < SMap.get 0 s.tpageAt t + s.rd F.homeTpageCtlPeriod * msBeats then s
  else match s.rgn? (s.rd (F.homeTpageRegion t)) with
    | none => s
    | some g =>
      let q := SMap.get 0 s.tpageSeq t
      let n := s.beat
      let off := g.base * 0x10000
      let l1 := s.tpageLine1 t
      let s := s.regionLine g.space off (tpageLine0 (q + 1) n t)
      let s := s.regionLine g.space (off + 128) l1
      let s := s.regionLine g.space off (tpageLine0 (q + 2) n t)
      { s with tpageAt := SMap.set 0 s.tpageAt t n, tpageSeq := SMap.set 0 s.tpageSeq t ((q + 2) % 2 ^ 64) }

/-! ## Sample rings (R495 to R497) -/

/-- D1 to D7 of a record (Table TEL-3): nanoseconds from stage 1 to stage `n`, which the island `n` stamps with nanoseconds `ns n` of
its own clock into the beat (R496); no snoop sent makes stage 5 stage 4. -/
def Track.delay (x : Track) (ns : Nat → Nat) (n : Nat) : Nat :=
  let at_ (n : Nat) : Option Nat := (x.stamps.find? fun e => e.1 == n).map (·.2)
  match if n = 5 then (at_ 5).or (if x.flags / 32 % 2 = 1 then none else at_ 4) else at_ n with
  | some b => (32 * b + ns n - (32 * x.beat0 + ns 1)) % 2 ^ 32
  | none => 0xFFFFFFFF

/-- The 64 bytes of a record (Table TEL-3). -/
def sampleBytes (x : Track) (ns : Nat → Nat) : List Byte :=
  natLe 8 x.beat0 ++ natLe 2 x.host ++ natLe 2 x.tag ++ natLe 1 x.opc ++ natLe 1 x.port ++ natLe 1 x.unit ++ natLe 1 x.tenant ++
  natLe 1 x.status ++ natLe 1 x.flags ++ natLe 14 0 ++ natLe 4 (ns 1) ++ ([2, 3, 4, 5, 6, 7, 8].flatMap fun n => natLe 4 (x.delay ns n))

/-- Fill of a sample ring, and its slot count. -/
def State.ringSlots (s : State) (d : Nat) : Nat := s.rd (F.beatSmpBaseLen d) * 1024
def State.ringFill (s : State) (d : Nat) : Nat :=
  (s.rd (F.beatSmpPtrHead d) + s.ringSlots d - s.rd (F.beatSmpPtrTail d)) % s.ringSlots d

/-- Has the ring reached its fill mark? -/
def State.ringHigh (s : State) (d : Nat) : Bool := s.rd (F.beatSmpBaseWm d) * s.ringSlots d ≤ s.ringFill d * 256

/-- Write a record to ring `d`, or lose it (R495, R497). -/
def State.ringPut (s : State) (d : Nat) (bs : List Byte) : State :=
  let h := s.rd (F.beatSmpPtrHead d)
  let n := s.ringSlots d
  if !s.on (F.beatSmpBaseEn d) || (h + 1) % n = s.rd (F.beatSmpPtrTail d) then s.tel (blkXbar d) 0x0B 0 1
  else
    let was := s.ringHigh d
    let s := s.writeBytes (s.rd (F.beatSmpBaseBase d) * 0x10000 + 64 * h) bs 0
    let s := s.wr (F.beatSmpPtrHead d) ((h + 1) % n)
    if !was && s.ringHigh d then s.raise blkBeat 9 none else s

/-- SAMPLE_RECORD: a tagged request has ended; its record goes to the ring of the die of its host's response port, that of an
Invoke to the ring of the DISP half `d` that answered (R495). -/
def State.sampleRecord (s : State) (d h t : Nat) (ns : Nat → Nat) : State :=
  match s.hosts.tagged.find? fun x => x.host == h && x.tag == t with
  | none => s
  | some x =>
    ({ s with hosts := { s.hosts with tagged := s.hosts.tagged.erase x } }).ringPut
      (if x.flags / 32 % 2 = 1 then d else s.rport h / 32) (sampleBytes x ns)

/-! ## Commands -/

/-- COUNTER_OVERFLOW (R491). -/
def execCounterOverflow (blk : Fin 863) (m : Fin 16) (n : BitVec 48) (s : State) : Host.Outcome State Fault Refusal :=
  live s fun s => s.counterOverflow blk.val m.val n.toNat

/-- COUNTER_FREEZE (R492). -/
def execCounterFreeze (s : State) : Host.Outcome State Fault Refusal := live s fun s => s.counterFreeze

/-- TPAGE_UPDATE (R498). -/
def execTpageUpdate (tenant : BitVec 8) (s : State) : Host.Outcome State Fault Refusal :=
  live s fun s => s.tpageUpdate tenant.toNat

/-- SAMPLE_RECORD (R495). -/
def execSampleRecord (d : Fin 2) (r : SampleEnd) (s : State) : Host.Outcome State Fault Refusal :=
  live s fun s => s.sampleRecord d.val r.host.toNat r.tag.toNat fun n => bits r.ns.toNat (5 * n - 1) (5 * n - 5)

end Sys2Proof.Machine
end

