-- ==== Sys2Proof/Machine/Control.lean ====
section
/-! DEFINITION. The control space as a whole: what a write of each register does, what a read returns, the resolution of events,
the replay of the command log by a new claim holder, and the end of a block reset (R21 to R24, R435 to R439, R458, R501 to
R508). -/

namespace Sys2Proof.Machine

/-! ## Writes (R505 to R509) -/

/-- A write of MIR_CTL (R124): EN = 0 while a mirrored region is active is discarded. -/
def hookMirCtl (old : Nat) : Hook := fun _ s =>
  if tst old 0 && !s.on F.homeMirCtlEn && s.rgns.any (·.mirror) then (s.setReg F.homeMirCtlEn.csa old, fState) else (s, 0)

/-- A write of a word of a port's shadow gate plan (R384): discarded while a plan is armed. -/
def hookGateWord (p : Nat) : Hook := fun _ s => (s, if s.on (F.fportGateCtlArmed p) then fBusy else 0)

/-- What a write of a register of a channel does beside its fields. -/
def State.hookDch (s : State) (k csa off writer : Nat) : Hook :=
  if off = 0x100 then hookFence k (s.on (F.dchFenceEn k)) (s.on (F.dchFencePwrOff k))
  else if off = 0x200 then s.hookPlanArm k writer
  else if off = 0x300 then hookRefStat k
  else if off = 0x310 then hookRetrain k
  else if 0x800 ≤ off && off < 0xA00 then hookPlanWord k csa (s.reg csa)
  else noHook

/-- What a write of a register of a home slice does beside its fields. -/
def State.hookHome (s : State) (k csa off : Nat) : Hook :=
  if off = 0x210 then guarded csa (s.reg csa) (fun x => x) hookRgn
  else if off = 0x218 then hookXltInv
  else if off = 0x228 then hookFltDone
  else if off = 0x288 then hookCohBinv
  else if off = 0x290 then hookCohSlot
  else if off = 0x2B0 then hookMirCtl (s.reg csa)
  else if off = 0x2B8 then hookMirSync
  else if off = 0x2C0 then hookHavl k
  else if 0x1000 ≤ off && off < 0x1800 then hookTpage ((off - 0x1000) / 8) (s.reg csa)
  else noHook

/-- What a write of a register of a fabric port does beside its fields. -/
def State.hookPort (s : State) (p off : Nat) : Hook :=
  if off = 0x100 then hookLctl p (s.on (F.fportLctlDisable p))
  else if off = 0x180 then hookLaser (p / 8)
  else if off = 0x200 then hookShape p (s.on (F.fportShapeEn p))
  else if off = 0x210 then hookGate p
  else if 0x1000 ≤ off && off < 0x1400 then hookGateWord p
  else noHook

/-- What a write of a register of a crossbar does beside its fields. -/
def State.hookXbar (s : State) (csa off : Nat) : Hook :=
  if off = 0x300 then hookFrz
  else if off = 0x440 then hookHostCtl
  else if off = 0x500 then hookPol
  else if off = 0x720 then guarded csa (s.reg csa) (fun x => x) hookAdm
  else if (0x600 ≤ off && off < 0x700) || (0x410 ≤ off && off < 0x430) then guarded csa (s.reg csa) (fun x => x) noHook
  else noHook

/-- What a write of a register of SEC does beside its fields. -/
def State.hookSec (s : State) (csa off : Nat) : Hook :=
  if off = 0x100 then hookTen
  else if off = 0x110 then hookPart (s.on F.secPartCtlEn)
  else if off = 0x200 then hookMeas
  else if 0x400 ≤ off && off < 0x480 then guarded csa (s.reg csa) (fun x => x) noHook
  else noHook

/-- What a write of a register of RST does beside its fields. -/
def hookRst (off : Nat) : Hook :=
  if off = 0x110 then hookBoot
  else if off = 0x118 then hookRstCtl
  else if off = 0x120 then hookWdog
  else if off = 0x128 then hookBlk
  else if off = 0x138 then hookDump
  else noHook

/-- What a write of a control-space address by `writer` does beside the fields of its register. -/
def State.hookOf (s : State) (csa writer : Nat) : Hook :=
  let off := csa % 0x100000
  let b := blkOfWindow (csa / 0x100000)
  match b.1 with
  | .tile => if off = 0x108 then hookTileCtl b.2 else noHook
  | .home => s.hookHome b.2 csa off
  | .dch => s.hookDch b.2 csa off writer
  | .fport => s.hookPort b.2 off
  | .nvp => if off = 0x100 then hookDrv b.2 (s.on (F.nvpDrvRetire b.2)) (s.on (F.nvpDrvSlotOff b.2)) else noHook
  | .xbar => s.hookXbar csa off
  | .brush => if off = 0x110 then hookZero b.2 else noHook
  | .perc =>
    if off = 0x100 then hookPercCtl b.2 else if off = 0x110 then hookFreePush b.2 else if off = 0x200 then hookSram else noHook
  | .cp => if off = 0x100 then hookTrio else noHook
  | .sec => s.hookSec csa off
  | .beat => if off = 0x200 then hookTel else noHook
  | .rst => hookRst off
  | .pwr => if off = 0x100 then hookFstep writer else noHook
  | .disp =>
    if off = 0x808 then guarded csa (s.reg csa) (fun x => x) hookPatCmd else if off = 0x910 then hookJobKill else noHook
  | _ => noHook

/-- Is a control-space write still served in the fatal halt (R446)?  SEC, MGT, BEAT, RST and PWR go on; the commands of SEC and
RST that act on the rest of the T7 (tenants, partitions, measurements, boot, watchdog, block resets, dumps) do not, as their own
rows do not (DESIGN CHOICE, log entry 61).  `dead`: the fatal fault lies in SEC or MGT. -/
def haltServes (dead : Bool) (csa : Nat) : Bool :=
  let w := csa / 0x100000
  let off := csa % 0x100000
  857 ≤ w && w ≤ 861 && !(w ≤ 858 && dead) && !(w == 857 && [0x100, 0x110, 0x200].contains off) &&
    !(w == 860 && [0x110, 0x120, 0x128, 0x138].contains off)

/-- CONFIG_WRITE. -/
def State.configWrite (s : State) (csa v : Nat) (c : Cmd) : State :=
  if s.halted && !haltServes (s.rd F.rstCauseFblk = 857 || s.rd F.rstCauseFblk = 858) csa then s
  else
    let s' := s.ctlWrite csa v c (s.hookOf csa c.writer.toNat)
    if s.halted then s' else s'.resumeHeld

/-! ## Reads (R502, R504, R507) -/

/-- Is a block out of service: OUT of HDR_STATE? -/
def State.blkOut (s : State) (t : BlkType) (i : Nat) : Bool :=
  match t with
  | .tile => 3 ≤ s.tileState i
  | .home => s.rd (F.homeHavlState i) == 1
  | .dch => [2, 3, 7].contains (s.rd (F.dchFenceState i))
  | .fport => s.lstate i == 0
  | .nvp => [4, 5].contains (s.drv i)
  | .cp => [0, 5].contains (s.role i)
  | _ => false

/-- Does a command of a block run: BUSY of HDR_STATE? -/
def State.blkBusy (s : State) (t : BlkType) (i : Nat) : Bool :=
  match t with
  | .home => s.on F.homeRgnCmdBusy || s.on F.homeXltInvBusy || s.on F.homeCohBinvBusy || s.on F.homeMirSyncBusy
  | .dch => s.on (F.dchTrainBusy i)
  | .disp => s.on F.dispPatCmdBusy || s.on F.dispJobKillBusy
  | .sec => s.on F.secMeasCmdBusy || !s.on F.secTenCmdDone
  | .rst => s.rst.blk.isSome
  | _ => false

/-- FRZ_CMD as a read returns it: the status fields describe the host in HOST. -/
def State.viewFrz (s : State) (w : Nat) : Nat :=
  let h := bits w 11 0
  let f := s.frz h
  let held := (s.hosts.frzq.filter fun q => q.host.toNat == h).length
  setBits (setBits (setBits (setBits w 17 16 f.state) 20 18 f.cause) 47 32 (min held 65535)) 63 48 f.dropped

/-- HOST_STAT: the host that HOST_CTL names. -/
def State.viewHost (s : State) : Nat :=
  let h := s.rd F.xbarHostCtlHost
  let l := s.leaseOf h
  s.rport h + (if s.pinned h then 2 ^ 6 else 0) + l.state * 2 ^ 7 + (match l.slot with | some i => 2 ^ 9 + i * 2 ^ 10 | none => 0) +
    l.epoch * 2 ^ 18 + l.renew % 2 ^ 32 * 2 ^ 32

/-- COH_SLOT: the slot in SLOT, and the free slots. -/
def State.viewSlot (s : State) (w : Nat) : Nat :=
  let w := setBits w 40 32 (256 - s.hosts.slots.length)
  match s.hosts.slots.find? fun e => e.1 == bits w 7 0 with
  | some e => setBits (setBits w 9 9 1) 27 16 e.2
  | none => w

/-- COH_STAT of a home slice. -/
def State.viewCoh (s : State) (k : Nat) : Nat :=
  let q := (s.homes.pendq ++ s.homes.chain).filterMap fun e => if e.1 = k then some e.2 else none
  let f := s.homes.faultWait.filterMap fun f => match f.waiter with
    | .req r => if f.src = k then some r else none
    | _ => none
  let old := (q ++ f).foldl (fun m r => max m (s.beat - r.arrive)) 0
  (s.homes.txns.filter fun t => t.home == k).length + min (s.pendUsed k) 2048 * 2 ^ 11 +
    (if s.homes.starve.any fun e => e.1 == k then 2 ^ 23 else 0) + min old (2 ^ 32 - 1) * 2 ^ 32

/-- PUB_STAT. -/
def State.viewPub (s : State) : Nat :=
  min (s.freeFrames false).length 65535 + ((List.range 64).foldl (fun n k => n + s.stagingsAt k) 0) * 2 ^ 16

/-- OPS_STAT; operator 3 is PREFIX-ATTEND. -/
def State.viewOps (s : State) : Nat :=
  s.disp.insts.length + (s.jobsOf none).length * 2 ^ 16 + (s.disp.insts.filter fun i => i.state == 0).length * 2 ^ 32 +
    (s.disp.insts.filter fun i => i.state == 1 && i.opid == 3).length * 2 ^ 48

/-- CKPT: the age of the newest checkpoint in µs, saturating; its reset value 0 while there is none. -/
def State.viewCkpt (s : State) (w : Nat) : Nat :=
  match s.newestCkpt with
  | some c => setBits w 63 48 (min ((s.beat - c.beat) * 4 / 125) 65535)
  | none => w

/-- Recompute queue entries of a die, of the slot part or of the home part. -/
def State.queued (s : State) (d : Nat) (slot : Bool) : Nat :=
  (s.mem.recompute.filter fun e => e.2.1 == slot && s.queueDie e.1 == d).length

/-- ZERO: the frames of a brush that wait for zeroing. -/
def State.viewZero (s : State) (d w : Nat) : Nat :=
  setBits w 47 32 (min (s.zeroq.filter fun z => z.pushed == some d).length 65535)

/-- PSTAT of a brush: the queue, and whether one of its parts is full. -/
def State.viewPstat (s : State) (d w : Nat) : Nat :=
  setBits (setBits w 16 0 (s.queued d true + s.queued d false)) 17 17
    (if 32768 ≤ s.queued d false || 32768 ≤ s.queued d true then 1 else 0)

/-- The word that a read of a register returns, from the word stored for it. -/
def State.view (s : State) (t : BlkType) (i off w : Nat) : Nat :=
  match t, off with
  | _, 0xE08 => setBits (setBits w 0 0 (if s.blkBusy t i then 1 else 0)) 2 2 (if s.blkOut t i then 1 else 0)
  | _, 0xE20 => s.rd F.cpTrioClaim
  | .beat, 0 => s.beat
  | .tile, 0x110 => s.mbar
  | .xbar, 0x300 => s.viewFrz w
  | .xbar, 0x448 => s.viewHost
  | .home, 0x290 => s.viewSlot w
  | .home, 0x298 => s.viewCoh i
  | .home, 0x2A8 => s.viewPub
  | .disp, 0x908 => s.viewOps
  | .cp, 0x108 => s.viewCkpt w
  | .cp, 0x200 => setBits w 1 0 (s.cupState i)
  | .sec, 0x100 => setBits w 13 12 (s.tenState (s.rd F.secTenCmdTenant))
  | .brush, 0x110 => s.viewZero i w
  | .brush, 0x118 => s.viewPstat i w
  | _, _ => w

/-- The address of a register in the window that holds it: a distributed register stands in instance 0 (R507). -/
def homeCsa (csa : Nat) : Nat :=
  let off := csa % 0x100000
  let (t, i) := blkOfWindow (csa / 0x100000)
  if (findReg t i off).isSome then csa
  else if (findReg t 0 off).isSome && t ≠ .fport then csa - i * 0x100000
  else csa

/-- What a read of the control space returns; nothing where it is not aligned or lies beyond the last window (R501, R502). -/
def State.readCsr (s : State) (csa : Nat) : Option Nat :=
  if csa % 8 ≠ 0 || 863 ≤ csa / 0x100000 then none
  else
    let a := homeCsa csa
    let off := a % 0x100000
    let (t, i) := blkOfWindow (a / 0x100000)
    if (findReg t i off).isSome || (arrayWord t off).isSome then some (s.view t i off (s.reg a)) else some 0

/-! ## Events (R21 to R24, R508) -/

/-- Is an event resolved before another: by stamp, class, block and event bit? -/
def Event.before (a b : Event) : Bool :=
  a.stamp < b.stamp || (a.stamp == b.stamp && (a.cls < b.cls || (a.cls == b.cls && (a.blk < b.blk ||
    (a.blk == b.blk && a.bit.getD 64 ≤ b.bit.getD 64)))))

/-- Put an event into a list in the order of resolution, after its equals. -/
def insertEvent (e : Event) : List Event → List Event
  | [] => [e]
  | x :: l => if x.before e then x :: insertEvent e l else e :: x :: l

/-- Resolve one event: its bit in EVT is set, and it is delivered unless EVT_EN masks its bit. -/
def State.resolve (s : State) (e : Event) : State :=
  let d : Delivered := ⟨e.stamp, e.cls, e.blk, e.bit⟩
  match e.bit with
  | none => { s with cpOut := s.cpOut ++ [d] }
  | some b =>
    let s := s.wr (F.hdrEvtEvt e.blk) (s.rd (F.hdrEvtEvt e.blk) ||| 2 ^ b)
    if bit (s.rd (F.hdrEvtEnEn e.blk)) b = 1 then { s with cpOut := s.cpOut ++ [d] } else s

/-- EVENT_RESOLUTION at this beat: every event stamped at least two beats ago, in order. -/
def State.resolveEvents (s : State) : State :=
  let due := (s.events.filter fun e => e.stamp + 2 ≤ s.beat).foldl (fun l e => insertEvent e l) []
  each due (fun e s => s.resolve e) { s with events := s.events.filter fun e => !(e.stamp + 2 ≤ s.beat) }

/-! ## Takeover (R438) and the end of a block reset (R439, R458) -/

/-- WRITER of the claim holder (Table CSP-4). -/
def State.writerCode (s : State) : Nat := match s.holders' with
  | [n] => n + 1
  | _ => 0

/-- The newest checkpoint whose digest verifies: `ok` tells it of each slot. -/
def State.usableCkpt (s : State) (ok : BitVec 2) : Option Ckpt :=
  let at_ (i : Nat) : Option Ckpt := if ok.getLsbD i then s.cpx.ckpts.getD i none else none
  let n := s.rd F.cpCkptNewest
  match at_ n with
  | some c => some c
  | none => at_ (1 - n)

/-- TAKEOVER: the new holder issues again, in log order and under its claim, every entry above the checkpoint. -/
def State.takeover (s : State) (ok : BitVec 2) : State :=
  if !s.cpx.replay then s
  else
    let q := ((s.usableCkpt ok).map (·.seq)).getD 0
    let es := s.cpx.log.filter fun e => q < e.seq
    let w := BitVec.ofNat 2 s.writerCode
    let s := { s with cpx := { s.cpx with replay := false } }
    let s := each es (fun e s => s.ctlWrite e.csa e.value ⟨BitVec.ofNat 32 (s.rd F.cpTrioClaim), BitVec.ofNat 48 e.seq, w⟩
      (s.hookOf e.csa w.toNat)) s
    ((s.tel (blkCp 0) 1 0 1).tel (blkCp 0) 3 0 es.length).resumeInvokes

/-- BLOCK_RESET_END, and the judgement of the commands that the clapper held, in sequence order. -/
def State.blkResetEnd (s : State) : State :=
  let (held, s) := s.blkEnd
  (each held (fun h s => s.clapped h.csa h.value h.cmd (s.hookOf h.csa h.cmd.writer.toNat)) s).resumeInvokes

/-! ## Commands -/

/-- EVENT_RESOLUTION (R23). -/
def execEventResolution (s : State) : Host.Outcome State Fault Refusal := always s fun s => s.resolveEvents

/-- CONFIG_WRITE (R22). -/
def execConfigWrite (csa : BitVec 32) (value : BitVec 64) (c : Cmd) (s : State) : Host.Outcome State Fault Refusal :=
  always s fun s => s.configWrite csa.toNat value.toNat c

/-- TAKEOVER (R438). -/
def execTakeover (ok : BitVec 2) (s : State) : Host.Outcome State Fault Refusal := live s fun s => s.takeover ok

/-- BLOCK_RESET_END (R458). -/
def execBlockResetEnd (s : State) : Host.Outcome State Fault Refusal := live s fun s => s.blkResetEnd

end Sys2Proof.Machine
end

