-- ==== Sys2Proof/Machine/Counts.lean ====
section
/-! DEFINITION. What the block counters count in every cycle of their clocks, beat by beat (R489, R490). -/

namespace Sys2Proof.Machine

/-- Cycles of a block's clock in a beat (Table ARC-4): 56 of the 1.75 GHz port clock and 5 of the 156.25 MHz timekeeping clock; a
halted tile clock gives none; how many a clock from the spread reference gives is no number of the spec's. -/
def State.cycles (s : State) (blk : Nat) : Nat :=
  if blk < 672 && (s.rd F.rstCtlStage < 4 || s.pwr.halt.isSome) then 0
  else if 768 ≤ blk && blk < 832 then 56
  else if 859 ≤ blk && blk ≤ 861 then 5
  else Config.clockCycles blk s.beat

/-- Qualifiers of the conditions that a block counts in every cycle of its clock (Table TEL-1): each cycle itself; a channel of a port
with a packet and no credit, and an output's head that waits for it; a head that waits on a closed time gate. -/
def State.waiting (s : State) (blk code : Nat) : List Nat :=
  if code = 0 then [0]
  else if 768 ≤ blk && blk < 832 then
    let p := blk - 768
    if code = 0x08 then (List.range 6).filter fun v => ((s.link p).stalled.getD v none).isSome
    else if code = 0x0A then
      if s.out.any fun k => k.port.val == p && !systemPkt k.opc.toNat && !s.gateOpen p (s.flowOf k) then [0] else []
    else []
  else if blk = 848 || blk = 849 then
    if code = 0x03 then ((List.range 32).map (32 * (blk - 848) + ·)).filter fun p => (s.link p).stalled.any (·.isSome) else []
  else []

/-- The quantities of a block that SUM and MAX read, by qualifier (Table TEL-1): occupancy of a home's pending queue and transaction
entries, of the virtual output queues, and of a recompute queue. -/
def State.quantities (s : State) (blk code : Nat) : List (Nat × Nat) :=
  if 672 ≤ blk && blk < 736 then
    let k := blk - 672
    if code = 0x0E then [(0, s.pendUsed k)]
    else if code = 0x0F then [(0, (s.homes.txns.filter fun t => t.home == k).length)] else []
  else if (blk = 848 || blk = 849) && code = 0x02 then
    ((dedup (s.hosts.routed.map fun e => (e.pkt.port.val, voqOut e.pkt))).filter fun e => e.1 / 32 == blk - 848).map fun e =>
      (e.1 + 64 * (e.2 % 64), s.voqLen e.1 e.2)
  else if (blk = 850 || blk = 851) && code = 0x04 then [(0, s.queued (blk - 850) true + s.queued (blk - 850) false)]
  else []

/-- One counter in a beat. -/
def State.countOne (s : State) (blk m ctl : Nat) : State :=
  let code := bits ctl 7 0
  let n := s.cycles blk
  match bits ctl 9 8 with
  | 0 =>
    let k := ((s.waiting blk code).filter fun q => cntSelects ctl code q).length * n
    if k = 0 then s else s.cntAdd blk m k
  | 1 =>
    let v := ((s.quantities blk code).filter fun q => cntSelects ctl code q.1).foldl (fun a q => a + q.2) 0 * n
    if v = 0 then s else s.cntAdd blk m v
  | _ =>
    let v := ((s.quantities blk code).filter fun q => cntSelects ctl code q.1).foldl (fun a q => max a q.2) 0
    if s.rd (F.cntCount blk m) < v then s.wr (F.cntCount blk m) v else s

/-- Every counter that runs counts what each cycle of a beat gives it; none while they are frozen or the T7 is halted (R492, R493). -/
def State.countBeat (s : State) : State :=
  if s.on F.beatTelCtlFrozen || s.halted then s
  else
    let es := s.regs.filter fun e => 0xF80 ≤ e.1 % 0x100000 && e.1 % 0x100000 < 0x1000 && tst e.2.toNat 10
    each es (fun e s => s.countOne (e.1 / 0x100000) ((e.1 % 0x100000 - 0xF80) / 8) e.2.toNat) s

/-- A beat passes with no command waiting: the counters count its cycles and the master counter counts on. -/
def State.passBeat (s : State) : State := if s.rst.porHeld then s else s.countBeat.nextBeat

end Sys2Proof.Machine
end

