-- ==== Sys2Proof/Machine/Atomics.lean ====
section
/-! DEFINITION. The atomic operations as commands, one per row of Table OPS-14: from a host by AtomicReq, from a tile by a
dynamic packet (R304 to R306). -/

namespace Sys2Proof.Machine

/-- The AtomicReq that a row performs: the packet with the operation of the row; one that waits with a reserved AOP is taken as
it is, so that its home refuses it (R304). -/
def State.atomPkt (s : State) (p : Pkt) (aop : Nat) : Pkt :=
  if (atomSizes p.aop.toNat).isEmpty && s.hosts.routed.any fun e => decide (e.pkt = p) then p else { p with aop := BitVec.ofNat 8 aop }

/-- An atomic reaches the home of its line. -/
def State.atomic (s : State) (a : AtomSrc) (aop : Nat) : State :=
  (match a with
  | .host p => s.hostRequest (s.atomPkt p aop) 6
  | .tile m => s.comes m fun m s => s.tileRequest m aop).resumeInvokes

/-- FADD.I (Table OPS-14). -/
def execFaddI (a : AtomSrc) (s : State) : Host.Outcome State Fault Refusal := live s fun s => s.atomic a 0x01

/-- FADD.F32 (Table OPS-14). -/
def execFaddF32 (a : AtomSrc) (s : State) : Host.Outcome State Fault Refusal := live s fun s => s.atomic a 0x02

/-- FADD.BF16 (Table OPS-14). -/
def execFaddBf16 (a : AtomSrc) (s : State) : Host.Outcome State Fault Refusal := live s fun s => s.atomic a 0x03

/-- CAS (Table OPS-14). -/
def execCas (a : AtomSrc) (s : State) : Host.Outcome State Fault Refusal := live s fun s => s.atomic a 0x04

/-- MIN.S (Table OPS-14). -/
def execMinS (a : AtomSrc) (s : State) : Host.Outcome State Fault Refusal := live s fun s => s.atomic a 0x05

/-- MAX.S (Table OPS-14). -/
def execMaxS (a : AtomSrc) (s : State) : Host.Outcome State Fault Refusal := live s fun s => s.atomic a 0x06

/-- MIN.U (Table OPS-14). -/
def execMinU (a : AtomSrc) (s : State) : Host.Outcome State Fault Refusal := live s fun s => s.atomic a 0x07

/-- MAX.U (Table OPS-14). -/
def execMaxU (a : AtomSrc) (s : State) : Host.Outcome State Fault Refusal := live s fun s => s.atomic a 0x08

/-- MIN.F32 (Table OPS-14). -/
def execMinF32 (a : AtomSrc) (s : State) : Host.Outcome State Fault Refusal := live s fun s => s.atomic a 0x09

/-- MAX.F32 (Table OPS-14). -/
def execMaxF32 (a : AtomSrc) (s : State) : Host.Outcome State Fault Refusal := live s fun s => s.atomic a 0x0a

/-- VFADD.F32 (Table OPS-14). -/
def execVfaddF32 (a : AtomSrc) (s : State) : Host.Outcome State Fault Refusal := live s fun s => s.atomic a 0x0b

/-- VFADD.I32 (Table OPS-14). -/
def execVfaddI32 (a : AtomSrc) (s : State) : Host.Outcome State Fault Refusal := live s fun s => s.atomic a 0x0c

end Sys2Proof.Machine
end

