-- ==== Sys2Proof/Machine/Publishing.lean ====
section
/-! DEFINITION. Published regions: the meanings of the publish messages and of what follows them (R103 to R117, R535). -/

namespace Sys2Proof.Machine

/-- PUBLISH (R111, R112). -/
def execPublish (p : Pkt) (s : State) : Host.Outcome State Fault Refusal := live s fun s => s.publishRequest p 0x30

/-- PUBLISH_COMMIT of a region (R113, R114). -/
def execPublishCommit (region : BitVec 16) (s : State) : Host.Outcome State Fault Refusal :=
  live s fun s => s.publishCommit region.toNat

/-- STAGE_DISCARD (R110). -/
def execStageDiscard (p : Pkt) (s : State) : Host.Outcome State Fault Refusal := live s fun s => s.publishRequest p 0x31

/-- SNAP_PIN (R115). -/
def execSnapPin (p : Pkt) (s : State) : Host.Outcome State Fault Refusal := live s fun s => s.publishRequest p 0x32

/-- SNAP_UNPIN (R116). -/
def execSnapUnpin (p : Pkt) (s : State) : Host.Outcome State Fault Refusal := live s fun s => s.publishRequest p 0x33

/-- PIN_TIMEOUT of a host's pins of a region (R116). -/
def execPinTimeout (region : BitVec 16) (host : BitVec 12) (s : State) : Host.Outcome State Fault Refusal :=
  live s fun s => s.pinTimeout region.toNat host.toNat

/-- SUBSCRIBE (R114). -/
def execSubscribe (p : Pkt) (s : State) : Host.Outcome State Fault Refusal := live s fun s => s.publishRequest p 0x34

/-- UNSUBSCRIBE (R114). -/
def execUnsubscribe (p : Pkt) (s : State) : Host.Outcome State Fault Refusal := live s fun s => s.publishRequest p 0x35

/-- STAGING_COPY_COMPLETE (R106). -/
def execStagingCopyComplete (region : BitVec 16) (host : BitVec 12) (page : BitVec 32) (s : State) :
    Host.Outcome State Fault Refusal :=
  live s fun s => s.stagingCopyDone region.toNat host.toNat page.toNat

end Sys2Proof.Machine
end

