-- ==== Sys2Proof/Machine/Dispatch.lean ====
section
/-! DEFINITION. What each command does: one arm per row of the table. -/

namespace Sys2Proof.Machine

def exec (i : Instr) (s : State) : Host.Outcome State Fault Refusal :=
  match i with
  | .eventResolution => Sys2Proof.Machine.execEventResolution s
  | .beatReplicaReload island count => Sys2Proof.Machine.execBeatReplicaReload island count s
  | .beatTreeFailure island tree => Sys2Proof.Machine.execBeatTreeFailure island tree s
  | .configWrite csa value c => Sys2Proof.Machine.execConfigWrite csa value c s
  | .controlSpaceAccessError csa => Sys2Proof.Machine.execControlSpaceAccessError csa s
  | .fstepTarget target c => Sys2Proof.Machine.execFstepTarget target c s
  | .fstepBegin => Sys2Proof.Machine.execFstepBegin s
  | .fstepResume => Sys2Proof.Machine.execFstepResume s
  | .thermalStepDown => Sys2Proof.Machine.execThermalStepDown s
  | .thermalCeilingLift => Sys2Proof.Machine.execThermalCeilingLift s
  | .rgnActivate region c => Sys2Proof.Machine.execRgnActivate region c s
  | .rgnDeactivate region c => Sys2Proof.Machine.execRgnDeactivate region c s
  | .xltInv space all base count c => Sys2Proof.Machine.execXltInv space all base count c s
  | .xltInvDone => Sys2Proof.Machine.execXltInvDone s
  | .ingress p => Sys2Proof.Machine.execIngress p s
  | .frzRelease host c => Sys2Proof.Machine.execFrzRelease host c s
  | .frzEvict host c => Sys2Proof.Machine.execFrzEvict host c s
  | .frzFreeze host c => Sys2Proof.Machine.execFrzFreeze host c s
  | .admWrite index c => Sys2Proof.Machine.execAdmWrite index c s
  | .admRead index c => Sys2Proof.Machine.execAdmRead index c s
  | .faultRecordOpen home => Sys2Proof.Machine.execFaultRecordOpen home s
  | .faultPendingRetry home => Sys2Proof.Machine.execFaultPendingRetry home s
  | .faultTimeout home index => Sys2Proof.Machine.execFaultTimeout home index s
  | .fltDone home index c => Sys2Proof.Machine.execFltDone home index c s
  | .faultQueueEntry => Sys2Proof.Machine.execFaultQueueEntry s
  | .streamPrefetch n tile stream page => Sys2Proof.Machine.execStreamPrefetch n tile stream page s
  | .rdShared p => Sys2Proof.Machine.execRdShared p s
  | .rdOwn p => Sys2Proof.Machine.execRdOwn p s
  | .upgrade p => Sys2Proof.Machine.execUpgrade p s
  | .rdCur p => Sys2Proof.Machine.execRdCur p s
  | .wrCur p => Sys2Proof.Machine.execWrCur p s
  | .wbM p => Sys2Proof.Machine.execWbM p s
  | .evictClean p => Sys2Proof.Machine.execEvictClean p s
  | .grantAck p => Sys2Proof.Machine.execGrantAck p s
  | .rspI p => Sys2Proof.Machine.execRspI p s
  | .rspIWb p => Sys2Proof.Machine.execRspIWb p s
  | .rspS p => Sys2Proof.Machine.execRspS p s
  | .rspSWb p => Sys2Proof.Machine.execRspSWb p s
  | .rspFwd p => Sys2Proof.Machine.execRspFwd p s
  | .rspAbsentEvict p => Sys2Proof.Machine.execRspAbsentEvict p s
  | .fwdData p => Sys2Proof.Machine.execFwdData p s
  | .pendingQueueOffer home => Sys2Proof.Machine.execPendingQueueOffer home s
  | .requestAgePriority home => Sys2Proof.Machine.execRequestAgePriority home s
  | .starveMark home => Sys2Proof.Machine.execStarveMark home s
  | .snoopTimeout home entry => Sys2Proof.Machine.execSnoopTimeout home entry s
  | .leaseExpiry host => Sys2Proof.Machine.execLeaseExpiry host s
  | .cohBinv space base count c => Sys2Proof.Machine.execCohBinv space base count c s
  | .cohBinvDone => Sys2Proof.Machine.execCohBinvDone s
  | .slotRevoke slot c => Sys2Proof.Machine.execSlotRevoke slot c s
  | .filterEccError home slot set way => Sys2Proof.Machine.execFilterEccError home slot set way s
  | .faddI a => Sys2Proof.Machine.execFaddI a s
  | .faddF32 a => Sys2Proof.Machine.execFaddF32 a s
  | .faddBf16 a => Sys2Proof.Machine.execFaddBf16 a s
  | .cas a => Sys2Proof.Machine.execCas a s
  | .minS a => Sys2Proof.Machine.execMinS a s
  | .maxS a => Sys2Proof.Machine.execMaxS a s
  | .minU a => Sys2Proof.Machine.execMinU a s
  | .maxU a => Sys2Proof.Machine.execMaxU a s
  | .minF32 a => Sys2Proof.Machine.execMinF32 a s
  | .maxF32 a => Sys2Proof.Machine.execMaxF32 a s
  | .vfaddF32 a => Sys2Proof.Machine.execVfaddF32 a s
  | .vfaddI32 a => Sys2Proof.Machine.execVfaddI32 a s
  | .publish p => Sys2Proof.Machine.execPublish p s
  | .publishCommit region => Sys2Proof.Machine.execPublishCommit region s
  | .stageDiscard p => Sys2Proof.Machine.execStageDiscard p s
  | .snapPin p => Sys2Proof.Machine.execSnapPin p s
  | .snapUnpin p => Sys2Proof.Machine.execSnapUnpin p s
  | .pinTimeout region host => Sys2Proof.Machine.execPinTimeout region host s
  | .subscribe p => Sys2Proof.Machine.execSubscribe p s
  | .unsubscribe p => Sys2Proof.Machine.execUnsubscribe p s
  | .stagingCopyComplete region host page => Sys2Proof.Machine.execStagingCopyComplete region host page s
  | .stamp p => Sys2Proof.Machine.execStamp p s
  | .stampAck p => Sys2Proof.Machine.execStampAck p s
  | .mirrorOutOfStep => Sys2Proof.Machine.execMirrorOutOfStep s
  | .mirrorAlone => Sys2Proof.Machine.execMirrorAlone s
  | .mirSyncGo c => Sys2Proof.Machine.execMirSyncGo c s
  | .mirSyncComplete => Sys2Proof.Machine.execMirSyncComplete s
  | .mirSyncHandoff c => Sys2Proof.Machine.execMirSyncHandoff c s
  | .planArm k c => Sys2Proof.Machine.execPlanArm k c s
  | .planTakeover k => Sys2Proof.Machine.execPlanTakeover k s
  | .refreshDue k sub => Sys2Proof.Machine.execRefreshDue k sub s
  | .doubleModeChange k temp => Sys2Proof.Machine.execDoubleModeChange k temp s
  | .zqCalibration k => Sys2Proof.Machine.execZqCalibration k s
  | .oscillatorUpdate k margin => Sys2Proof.Machine.execOscillatorUpdate k margin s
  | .dramTrain c => Sys2Proof.Machine.execDramTrain c s
  | .trainingDone k pass serial spd margin => Sys2Proof.Machine.execTrainingDone k pass serial spd margin s
  | .dramServiceStart => Sys2Proof.Machine.execDramServiceStart s
  | .retrain k c => Sys2Proof.Machine.execRetrain k c s
  | .retrainDone k pass margin => Sys2Proof.Machine.execRetrainDone k pass margin s
  | .fenceSet k c => Sys2Proof.Machine.execFenceSet k c s
  | .fenceClear k c => Sys2Proof.Machine.execFenceClear k c s
  | .selfFence k alert => Sys2Proof.Machine.execSelfFence k alert s
  | .drainComplete k => Sys2Proof.Machine.execDrainComplete k s
  | .modulePowerOff k c => Sys2Proof.Machine.execModulePowerOff k c s
  | .modulePowerOn k c => Sys2Proof.Machine.execModulePowerOn k c s
  | .rebuildComplete k => Sys2Proof.Machine.execRebuildComplete k s
  | .fillRequest home index => Sys2Proof.Machine.execFillRequest home index s
  | .promoteReadDone space page bad => Sys2Proof.Machine.execPromoteReadDone space page bad s
  | .promotionEnd space page => Sys2Proof.Machine.execPromotionEnd space page s
  | .demotionStart d zone => Sys2Proof.Machine.execDemotionStart d zone s
  | .demoteReadDone space page => Sys2Proof.Machine.execDemoteReadDone space page s
  | .demotionEnd space page => Sys2Proof.Machine.execDemotionEnd space page s
  | .touch home space page => Sys2Proof.Machine.execTouch home space page s
  | .heatEpoch d => Sys2Proof.Machine.execHeatEpoch d s
  | .freePush d frame c => Sys2Proof.Machine.execFreePush d frame c s
  | .driveLinkUp n link drive => Sys2Proof.Machine.execDriveLinkUp n link drive s
  | .driveCommandTimeout n => Sys2Proof.Machine.execDriveCommandTimeout n s
  | .driveFatal n warning => Sys2Proof.Machine.execDriveFatal n warning s
  | .rootPortLinkDown n => Sys2Proof.Machine.execRootPortLinkDown n s
  | .driveRetire n c => Sys2Proof.Machine.execDriveRetire n c s
  | .driveRetired n => Sys2Proof.Machine.execDriveRetired n s
  | .driveInboundRequest n own => Sys2Proof.Machine.execDriveInboundRequest n own s
  | .nop a => Sys2Proof.Machine.execNop a s
  | .add a rd ra rb => Sys2Proof.Machine.execAdd a rd ra rb s
  | .sub a rd ra rb => Sys2Proof.Machine.execSub a rd ra rb s
  | .and a rd ra rb => Sys2Proof.Machine.execAnd a rd ra rb s
  | .or a rd ra rb => Sys2Proof.Machine.execOr a rd ra rb s
  | .xor a rd ra rb => Sys2Proof.Machine.execXor a rd ra rb s
  | .shl a rd ra rb => Sys2Proof.Machine.execShl a rd ra rb s
  | .shr a rd ra rb => Sys2Proof.Machine.execShr a rd ra rb s
  | .sra a rd ra rb => Sys2Proof.Machine.execSra a rd ra rb s
  | .mul a rd ra rb => Sys2Proof.Machine.execMul a rd ra rb s
  | .slt a rd ra rb => Sys2Proof.Machine.execSlt a rd ra rb s
  | .sltu a rd ra rb => Sys2Proof.Machine.execSltu a rd ra rb s
  | .min a rd ra rb => Sys2Proof.Machine.execMin a rd ra rb s
  | .max a rd ra rb => Sys2Proof.Machine.execMax a rd ra rb s
  | .addi a rd ra imm => Sys2Proof.Machine.execAddi a rd ra imm s
  | .andi a rd ra imm => Sys2Proof.Machine.execAndi a rd ra imm s
  | .ori a rd ra imm => Sys2Proof.Machine.execOri a rd ra imm s
  | .xori a rd ra imm => Sys2Proof.Machine.execXori a rd ra imm s
  | .shli a rd ra imm => Sys2Proof.Machine.execShli a rd ra imm s
  | .shri a rd ra imm => Sys2Proof.Machine.execShri a rd ra imm s
  | .srai a rd ra imm => Sys2Proof.Machine.execSrai a rd ra imm s
  | .li a rd imm => Sys2Proof.Machine.execLi a rd imm s
  | .lih a rd imm => Sys2Proof.Machine.execLih a rd imm s
  | .beq a ra rb target => Sys2Proof.Machine.execBeq a ra rb target s
  | .bne a ra rb target => Sys2Proof.Machine.execBne a ra rb target s
  | .blt a ra rb target => Sys2Proof.Machine.execBlt a ra rb target s
  | .bge a ra rb target => Sys2Proof.Machine.execBge a ra rb target s
  | .jmp a target => Sys2Proof.Machine.execJmp a target s
  | .coreEnd a => Sys2Proof.Machine.execCoreEnd a s
  | .rdsp a rd sel => Sys2Proof.Machine.execRdsp a rd sel s
  | .vld a vr ra off => Sys2Proof.Machine.execVld a vr ra off s
  | .vst a vr ra off => Sys2Proof.Machine.execVst a vr ra off s
  | .sld a rd ra off => Sys2Proof.Machine.execSld a rd ra off s
  | .sst a rs ra off => Sys2Proof.Machine.execSst a rs ra off s
  | .send a ra off => Sys2Proof.Machine.execSend a ra off s
  | .sende a ra off => Sys2Proof.Machine.execSende a ra off s
  | .dreq a ra off => Sys2Proof.Machine.execDreq a ra off s
  | .dld a vr ra cc => Sys2Proof.Machine.execDld a vr ra cc s
  | .waitc a cc ra => Sys2Proof.Machine.execWaitc a cc ra s
  | .rdc a cc ra => Sys2Proof.Machine.execRdc a cc ra s
  | .clrc a cc ra => Sys2Proof.Machine.execClrc a cc ra s
  | .vfma a vd va vb rm => Sys2Proof.Machine.execVfma a vd va vb rm s
  | .vfmaH a vd va vb fa fb h rm => Sys2Proof.Machine.execVfmaH a vd va vb fa fb h rm s
  | .vdot8 a vd va vb fa fb h rm acc toa rsp => Sys2Proof.Machine.execVdot8 a vd va vb fa fb h rm acc toa rsp s
  | .vdot4 a vd va vb fa fb h rm acc toa rsp => Sys2Proof.Machine.execVdot4 a vd va vb fa fb h rm acc toa rsp s
  | .vadd a vd va vb rm => Sys2Proof.Machine.execVadd a vd va vb rm s
  | .vsub a vd va vb rm => Sys2Proof.Machine.execVsub a vd va vb rm s
  | .vmul a vd va vb rm => Sys2Proof.Machine.execVmul a vd va vb rm s
  | .vmax a vd va vb => Sys2Proof.Machine.execVmax a vd va vb s
  | .vmin a vd va vb => Sys2Proof.Machine.execVmin a vd va vb s
  | .vcmp a vd va vb cond => Sys2Proof.Machine.execVcmp a vd va vb cond s
  | .vred a vd va => Sys2Proof.Machine.execVred a vd va s
  | .accz a acc ra => Sys2Proof.Machine.execAccz a acc ra s
  | .acci a acc va lane => Sys2Proof.Machine.execAcci a acc va lane s
  | .vmov a vd va => Sys2Proof.Machine.execVmov a vd va s
  | .vbc a vd ra => Sys2Proof.Machine.execVbc a vd ra s
  | .exp a vd va => Sys2Proof.Machine.execExp a vd va s
  | .exp2 a vd va => Sys2Proof.Machine.execExp2 a vd va s
  | .log a vd va => Sys2Proof.Machine.execLog a vd va s
  | .log2 a vd va => Sys2Proof.Machine.execLog2 a vd va s
  | .rcp a vd va => Sys2Proof.Machine.execRcp a vd va s
  | .rsqrt a vd va => Sys2Proof.Machine.execRsqrt a vd va s
  | .lsem a vd va => Sys2Proof.Machine.execLsem a vd va s
  | .cvt a vd va fmt rm satf adv part srp => Sys2Proof.Machine.execCvt a vd va fmt rm satf adv part srp s
  | .cvtw a vd va fmt part => Sys2Proof.Machine.execCvtw a vd va fmt part s
  | .xst a ra va fmt rm satf adv srp => Sys2Proof.Machine.execXst a ra va fmt rm satf adv srp s
  | .unpk6 a vd va fmt => Sys2Proof.Machine.execUnpk6 a vd va fmt s
  | .pack6 a vd va fmt => Sys2Proof.Machine.execPack6 a vd va fmt s
  | .mxenc a vd va fmt rm adv srp => Sys2Proof.Machine.execMxenc a vd va fmt rm adv srp s
  | .accx a vd acc lane => Sys2Proof.Machine.execAccx a vd acc lane s
  | .acc2f a vd acc rm satf => Sys2Proof.Machine.execAcc2f a vd acc rm satf s
  | .acc2i a vd acc rm satf => Sys2Proof.Machine.execAcc2i a vd acc rm satf s
  | .rd m => Sys2Proof.Machine.execRd m s
  | .rdv m => Sys2Proof.Machine.execRdv m s
  | .wr m => Sys2Proof.Machine.execWr m s
  | .walk m => Sys2Proof.Machine.execWalk m s
  | .msg m => Sys2Proof.Machine.execMsg m s
  | .desc m => Sys2Proof.Machine.execDesc m s
  | .load m => Sys2Proof.Machine.execLoad m s
  | .result m => Sys2Proof.Machine.execResult m s
  | .done m => Sys2Proof.Machine.execDone m s
  | .dynamicResponse m => Sys2Proof.Machine.execDynamicResponse m s
  | .meshPlanTakeover => Sys2Proof.Machine.execMeshPlanTakeover s
  | .tileFault tile cause => Sys2Proof.Machine.execTileFault tile cause s
  | .tileRetire tile c => Sys2Proof.Machine.execTileRetire tile c s
  | .spareLoadComplete tile => Sys2Proof.Machine.execSpareLoadComplete tile s
  | .spareTakeover tile => Sys2Proof.Machine.execSpareTakeover tile s
  | .tileReturn tile c => Sys2Proof.Machine.execTileReturn tile c s
  | .tileSelfTestDone tile pass => Sys2Proof.Machine.execTileSelfTestDone tile pass s
  | .spareSelfTest tile => Sys2Proof.Machine.execSpareSelfTest tile s
  | .gateBar n => Sys2Proof.Machine.execGateBar n s
  | .phaseEnd n => Sys2Proof.Machine.execPhaseEnd n s
  | .patternLoad strip c => Sys2Proof.Machine.execPatternLoad strip c s
  | .patternUnload place c => Sys2Proof.Machine.execPatternUnload place c s
  | .unloadComplete place => Sys2Proof.Machine.execUnloadComplete place s
  | .invoke p => Sys2Proof.Machine.execInvoke p s
  | .cancel p => Sys2Proof.Machine.execCancel p s
  | .jobKill tenant job c => Sys2Proof.Machine.execJobKill tenant job c s
  | .gatherReduce => Sys2Proof.Machine.execGatherReduce s
  | .scatterAccumulate => Sys2Proof.Machine.execScatterAccumulate s
  | .prefixAttend => Sys2Proof.Machine.execPrefixAttend s
  | .kvAppend => Sys2Proof.Machine.execKvAppend s
  | .copy => Sys2Proof.Machine.execCopy s
  | .fill => Sys2Proof.Machine.execFill s
  | .checksum => Sys2Proof.Machine.execChecksum s
  | .imageOperator opid => Sys2Proof.Machine.execImageOperator opid s
  | .instanceComplete n => Sys2Proof.Machine.execInstanceComplete n s
  | .opdoneSend n => Sys2Proof.Machine.execOpdoneSend n s
  | .laneLoss port lanes skew => Sys2Proof.Machine.execLaneLoss port lanes skew s
  | .laneRejoin port lane => Sys2Proof.Machine.execLaneRejoin port lane s
  | .allLanesLost port => Sys2Proof.Machine.execAllLanesLost port s
  | .flitReceive port fs => Sys2Proof.Machine.execFlitReceive port fs s
  | .rollTimeout port => Sys2Proof.Machine.execRollTimeout port s
  | .noGoodFlit port => Sys2Proof.Machine.execNoGoodFlit port s
  | .laserFault g present aok bok => Sys2Proof.Machine.execLaserFault g present aok bok s
  | .laserSwap g c => Sys2Proof.Machine.execLaserSwap g c s
  | .widthChangeStart port mask c => Sys2Proof.Machine.execWidthChangeStart port mask c s
  | .autoWiden port => Sys2Proof.Machine.execAutoWiden port s
  | .wreqTimeout port => Sys2Proof.Machine.execWreqTimeout port s
  | .wreq port token mask locked => Sys2Proof.Machine.execWreq port token mask locked s
  | .wack port token locked => Sys2Proof.Machine.execWack port token locked s
  | .wgo port token mask => Sys2Proof.Machine.execWgo port token mask s
  | .rtreq port token cause => Sys2Proof.Machine.execRtreq port token cause s
  | .rtack port token => Sys2Proof.Machine.execRtack port token s
  | .withdraw port token => Sys2Proof.Machine.execWithdraw port token s
  | .ldown port lost => Sys2Proof.Machine.execLdown port lost s
  | .resume port ackseq => Sys2Proof.Machine.execResume port ackseq s
  | .creditInit port credits => Sys2Proof.Machine.execCreditInit port credits s
  | .disable port => Sys2Proof.Machine.execDisable port s
  | .linkRetrain port c => Sys2Proof.Machine.execLinkRetrain port c s
  | .csymRetrain port lane count => Sys2Proof.Machine.execCsymRetrain port lane count s
  | .linkDisable port c => Sys2Proof.Machine.execLinkDisable port c s
  | .linkEnable port c => Sys2Proof.Machine.execLinkEnable port c s
  | .trainingStart port => Sys2Proof.Machine.execTrainingStart port s
  | .trainingComplete port id resumable lanes rtt full half => Sys2Proof.Machine.execTrainingComplete port id resumable lanes rtt full half s
  | .trainingTimeout port failed skew => Sys2Proof.Machine.execTrainingTimeout port failed skew s
  | .retrainTimeout port => Sys2Proof.Machine.execRetrainTimeout port s
  | .graceExpiry port => Sys2Proof.Machine.execGraceExpiry port s
  | .leaseOpen p => Sys2Proof.Machine.execLeaseOpen p s
  | .heartbeat p => Sys2Proof.Machine.execHeartbeat p s
  | .leaseClose p => Sys2Proof.Machine.execLeaseClose p s
  | .knell p => Sys2Proof.Machine.execKnell p s
  | .peerResponse p => Sys2Proof.Machine.execPeerResponse p s
  | .hostPin host port c => Sys2Proof.Machine.execHostPin host port c s
  | .hostUnpin host c => Sys2Proof.Machine.execHostUnpin host c s
  | .refillTick => Sys2Proof.Machine.execRefillTick s
  | .congestionMark host => Sys2Proof.Machine.execCongestionMark host s
  | .slowdownDecay host => Sys2Proof.Machine.execSlowdownDecay host s
  | .polWrite host c => Sys2Proof.Machine.execPolWrite host c s
  | .polRead host c => Sys2Proof.Machine.execPolRead host c s
  | .polWriteFill host c => Sys2Proof.Machine.execPolWriteFill host c s
  | .shapeWrite port en rate burst c => Sys2Proof.Machine.execShapeWrite port en rate burst c s
  | .gateArm port c => Sys2Proof.Machine.execGateArm port c s
  | .gateTakeover port => Sys2Proof.Machine.execGateTakeover port s
  | .dchReadReturn dpa src home nd nc again => Sys2Proof.Machine.execDchReadReturn dpa src home nd nc again s
  | .reconstruction dpa home => Sys2Proof.Machine.execReconstruction dpa home s
  | .parityDelta half j delta home => Sys2Proof.Machine.execParityDelta half j delta home s
  | .recompute die home => Sys2Proof.Machine.execRecompute die home s
  | .brushWalkRead k sub => Sys2Proof.Machine.execBrushWalkRead k sub s
  | .brushCorrection dpa home => Sys2Proof.Machine.execBrushCorrection dpa home s
  | .zeroFrame d frame c => Sys2Proof.Machine.execZeroFrame d frame c s
  | .zeroComplete => Sys2Proof.Machine.execZeroComplete s
  | .homeSliceFault home => Sys2Proof.Machine.execHomeSliceFault home s
  | .havlFail home c => Sys2Proof.Machine.execHavlFail home c s
  | .havlReturn home c => Sys2Proof.Machine.execHavlReturn home c s
  | .homeSelfTestDone home pass => Sys2Proof.Machine.execHomeSelfTestDone home pass s
  | .homeHandback home => Sys2Proof.Machine.execHomeHandback home s
  | .fatalError blk => Sys2Proof.Machine.execFatalError blk s
  | .pairMismatch a b => Sys2Proof.Machine.execPairMismatch a b s
  | .claimGrant cp agree => Sys2Proof.Machine.execClaimGrant cp agree s
  | .takeover ok => Sys2Proof.Machine.execTakeover ok s
  | .checkpoint => Sys2Proof.Machine.execCheckpoint s
  | .cuppingCycle cp fails => Sys2Proof.Machine.execCuppingCycle cp fails s
  | .rotate c => Sys2Proof.Machine.execRotate c s
  | .stbyReload c => Sys2Proof.Machine.execStbyReload c s
  | .pairReload c => Sys2Proof.Machine.execPairReload c s
  | .reloadSelfTestDone cp pass => Sys2Proof.Machine.execReloadSelfTestDone cp pass s
  | .wdogKick c => Sys2Proof.Machine.execWdogKick c s
  | .wdogExpiry => Sys2Proof.Machine.execWdogExpiry s
  | .powerOnReset v => Sys2Proof.Machine.execPowerOnReset v s
  | .coldResetPin v => Sys2Proof.Machine.execColdResetPin v s
  | .warm c => Sys2Proof.Machine.execWarm c s
  | .restart c => Sys2Proof.Machine.execRestart c s
  | .autoRestart => Sys2Proof.Machine.execAutoRestart s
  | .resetEnd => Sys2Proof.Machine.execResetEnd s
  | .stageAdvance islands tiles => Sys2Proof.Machine.execStageAdvance islands tiles s
  | .bootOk c => Sys2Proof.Machine.execBootOk c s
  | .bootConfirmExpiry => Sys2Proof.Machine.execBootConfirmExpiry s
  | .readState conn f => Sys2Proof.Machine.execReadState conn f s
  | .writeImage conn f slotB img => Sys2Proof.Machine.execWriteImage conn f slotB img s
  | .writeRecord conn f r => Sys2Proof.Machine.execWriteRecord conn f r s
  | .attest conn f nonce => Sys2Proof.Machine.execAttest conn f nonce s
  | .reboot conn f slotB => Sys2Proof.Machine.execReboot conn f slotB s
  | .blockReset target c => Sys2Proof.Machine.execBlockReset target c s
  | .blockResetEnter => Sys2Proof.Machine.execBlockResetEnter s
  | .blockResetEnd => Sys2Proof.Machine.execBlockResetEnd s
  | .phaseHang n => Sys2Proof.Machine.execPhaseHang n s
  | .gateHang n => Sys2Proof.Machine.execGateHang n s
  | .waitHang n => Sys2Proof.Machine.execWaitHang n s
  | .homeTransactionHang home entry => Sys2Proof.Machine.execHomeTransactionHang home entry s
  | .linkHang port => Sys2Proof.Machine.execLinkHang port s
  | .hungLinkReenable port => Sys2Proof.Machine.execHungLinkReenable port s
  | .dumpCaptureComplete tenant job => Sys2Proof.Machine.execDumpCaptureComplete tenant job s
  | .dumpFree c => Sys2Proof.Machine.execDumpFree c s
  | .tenActivate t c => Sys2Proof.Machine.execTenActivate t c s
  | .tenTeardown t c => Sys2Proof.Machine.execTenTeardown t c s
  | .teardownComplete t => Sys2Proof.Machine.execTeardownComplete t s
  | .tileScrub tile => Sys2Proof.Machine.execTileScrub tile s
  | .partitionEnable c => Sys2Proof.Machine.execPartitionEnable c s
  | .hello conn src body => Sys2Proof.Machine.execHello conn src body s
  | .auth conn f cred sig => Sys2Proof.Machine.execAuth conn f cred sig s
  | .sessionCommand conn f op => Sys2Proof.Machine.execSessionCommand conn f op s
  | .sessionIdleTimeout conn => Sys2Proof.Machine.execSessionIdleTimeout conn s
  | .installRecord conn f r => Sys2Proof.Machine.execInstallRecord conn f r s
  | .installMinver conn f r => Sys2Proof.Machine.execInstallMinver conn f r s
  | .endorsementSigned => Sys2Proof.Machine.execEndorsementSigned s
  | .attestationRequest conn f nonce scope => Sys2Proof.Machine.execAttestationRequest conn f nonce scope s
  | .measureMark region c => Sys2Proof.Machine.execMeasureMark region c s
  | .measureUnmark region c => Sys2Proof.Machine.execMeasureUnmark region c s
  | .measureAgain region c => Sys2Proof.Machine.execMeasureAgain region c s
  | .measurementDone => Sys2Proof.Machine.execMeasurementDone s
  | .counterOverflow blk m n => Sys2Proof.Machine.execCounterOverflow blk m n s
  | .counterFreeze => Sys2Proof.Machine.execCounterFreeze s
  | .tpageUpdate tenant => Sys2Proof.Machine.execTpageUpdate tenant s
  | .sampleRecord d r => Sys2Proof.Machine.execSampleRecord d r s
  | .railFault rail => Sys2Proof.Machine.execRailFault rail s
  | .rideThroughExpiry rail => Sys2Proof.Machine.execRideThroughExpiry rail s
  | .avsbusFrame valid alert mv amps => Sys2Proof.Machine.execAvsbusFrame valid alert mv amps s
  | .vcoreAdjust up mv => Sys2Proof.Machine.execVcoreAdjust up mv s
  | .voltageConfirm mv => Sys2Proof.Machine.execVoltageConfirm mv s
  | .raiseAbandon => Sys2Proof.Machine.execRaiseAbandon s
  | .currentCeiling mean1ms mean10us mean10ms => Sys2Proof.Machine.execCurrentCeiling mean1ms mean10us mean10ms s
  | .referenceClockLost ref => Sys2Proof.Machine.execReferenceClockLost ref s
  | .thermalThreshold temps => Sys2Proof.Machine.execThermalThreshold temps s
  | .thermalTrip temps => Sys2Proof.Machine.execThermalTrip temps s
  | .i3cPrivateRead offset n => Sys2Proof.Machine.execI3cPrivateRead offset n s
  | .dramPosition k sub heads => Sys2Proof.Machine.execDramPosition k sub heads s
  | .meshBarBoundary => Sys2Proof.Machine.execMeshBarBoundary s
  | .railReturn rail => Sys2Proof.Machine.execRailReturn rail s
  | .coldResetRail v => Sys2Proof.Machine.execColdResetRail v s
  | .vaonLoss => Sys2Proof.Machine.execVaonLoss s
  | .thermtripRelease temps => Sys2Proof.Machine.execThermtripRelease temps s

end Sys2Proof.Machine
end

