-- ==== Sys2Proof/Machine/Step.lean ====
section
/-! DEFINITION. One step of the T7: the command at the front of the queue, or one beat. -/

namespace Sys2Proof.Machine

/-- One step: the command at the front of the queue is performed on the state with the queue's rest.  With no command waiting,
a beat passes (R19; DESIGN CHOICE, log entry 1). -/
def step (s : State) : Host.Outcome State Fault Refusal :=
  match s.pending with
  | i :: rest => exec i { s with pending := rest }
  | [] => .next s.passBeat

/-- The state with the command that a table word spells put at the front of its queue; the table gives no row bits, so no word
spells a command and the state is unchanged. -/
def State.withFetchWord (s : State) (nbits w : Nat) : State :=
  match Sys2Proof.decodeTableWord nbits w with
  | some i => { s with pending := i :: s.pending }
  | none => s

end Sys2Proof.Machine
end

