-- ==== Sys2Proof/WellFormed.lean ====
section
/-! DEFINITION. What a command's operands must satisfy beyond their types: the lengths and lists that the spec bounds. -/

namespace Sys2Proof

/-- Does a list hold no element twice? -/
def noRepeat {α : Type} [DecidableEq α] : List α → Bool
  | [] => true
  | a :: l => !l.contains a && noRepeat l

/-- A dynamic packet carries as many data flits as its header's LEN says, at most 16 (Table TIL-3). -/
def MPkt.wf (m : MPkt) : Bool := m.flits.length == m.len.toNat && m.flits.length ≤ 16

/-- A management frame's body fits its 4-byte length (R482). -/
def Frame.wf (f : Frame) : Bool := f.body.length < 2 ^ 32

/-- An atomic's packet is well formed. -/
def AtomSrc.wf : AtomSrc → Bool
  | .host _ => true
  | .tile m => m.wf

/-- The operands of a command are what its row can carry: each lane, class, island or tile at most once in a list, as many data
flits as a header says, and frames within their length. -/
def Instr.wf : Instr → Bool
  | .flitReceive _ fs => noRepeat (fs.map (·.lane))
  | .dramPosition _ _ heads => noRepeat (heads.map (·.cls))
  | .stageAdvance islands tiles => noRepeat islands && noRepeat tiles
  | .hello _ _ body => body.length < 2 ^ 32
  | .auth _ f _ _ => f.wf
  | .sessionCommand _ f _ => f.wf
  | .installRecord _ f _ => f.wf
  | .installMinver _ f _ => f.wf
  | .attestationRequest _ f _ _ => f.wf
  | .readState _ f => f.wf
  | .writeImage _ f _ _ => f.wf
  | .writeRecord _ f _ => f.wf
  | .attest _ f _ => f.wf
  | .reboot _ f _ => f.wf
  | .rd m => m.wf
  | .rdv m => m.wf
  | .wr m => m.wf
  | .walk m => m.wf
  | .msg m => m.wf
  | .desc m => m.wf
  | .load m => m.wf
  | .result m => m.wf
  | .done m => m.wf
  | .dynamicResponse m => m.wf
  | .faddI a => a.wf
  | .faddF32 a => a.wf
  | .faddBf16 a => a.wf
  | .cas a => a.wf
  | .minS a => a.wf
  | .maxS a => a.wf
  | .minU a => a.wf
  | .maxU a => a.wf
  | .minF32 a => a.wf
  | .maxF32 a => a.wf
  | .vfaddF32 a => a.wf
  | .vfaddI32 a => a.wf
  | _ => true

end Sys2Proof
end

