-- ==== Sys2Proof/Safety.lean ====
section
/-! DEFINITION. What counts as a sound state and a safe step of the T7, in the terms the statements use. -/

namespace Sys2Proof.Machine

/-- The canonical form of device memory: addresses strictly rising, no byte listed that reads as an unlisted one. -/
def Memory.wf (m : List Host.Cell) : Bool := SMap.wf (fun _ => 0#8) m

/-- The master beat counter holds 64 bits (R19). -/
abbrev BeatInv (s : State) : Prop := s.beat < 2 ^ 64

/-- Nothing is out of service as a whole: neither the fatal halt nor the loss of the always-on rail. -/
abbrev Running (s : State) : Prop := s.halted = false ∧ s.rst.porHeld = false

/-- A step that goes on: a next state, neither a fault nor a refusal. -/
abbrev GoesOn (s : State) : Prop := ∃ t, step s = .next t

/-- A command that the fatal halt does not hold off: those of the control processors, SEC, MGT, the beat, RST and PWR (R426,
R446), and the supply events. -/
def servedInHalt (i : Instr) : Bool :=
  match i with
  | .eventResolution | .configWrite _ _ _ | .controlSpaceAccessError _ | .fstepTarget _ _ | .thermalCeilingLift
  | .fatalError _ | .coldResetPin _ | .warm _ | .restart _ | .autoRestart | .resetEnd | .readState _ _
  | .writeImage _ _ _ _ | .writeRecord _ _ _ | .attest _ _ _ | .reboot _ _ _ | .hello _ _ _ | .auth _ _ _ _
  | .sessionCommand _ _ _ | .sessionIdleTimeout _ | .installRecord _ _ _ | .installMinver _ _ _
  | .endorsementSigned | .attestationRequest _ _ _ _ | .railFault _ | .rideThroughExpiry _ | .avsbusFrame _ _ _ _
  | .vcoreAdjust _ _ | .voltageConfirm _ | .raiseAbandon | .currentCeiling _ _ _ | .referenceClockLost _
  | .thermalThreshold _ | .thermalTrip _ | .i3cPrivateRead _ _ | .railReturn _ | .coldResetRail _
  | .thermtripRelease _ | .powerOnReset _ | .vaonLoss => true
  | _ => false

/-- The events of the always-on supply, which alone may clear the beat counter (R443). -/
def ofSupply (i : Instr) : Bool :=
  match i with
  | .powerOnReset _ | .vaonLoss => true
  | _ => false

/-- A control-space write to block window `w` is neither from an old claim nor a duplicate nor from a FROZEN processor, and the block is
not under reset, so that its clapper performs it at once (R434, R435, R439, R505). -/
abbrev Accepts (s : State) (w : Nat) (c : Cmd) : Prop :=
  c.claim.toNat = s.rd F.cpTrioClaim ∧ s.rd (F.hdrSeqSeq w) < c.seq.toNat ∧ s.on (F.hdrStateInreset w) = false ∧
  s.frozenWriter c = false

/-- Nothing waits under number `k`: a fenced channel, or 32 and a die whose recompute queue is full (R149, R399). -/
abbrev NoneHeld (s : State) (k : Nat) : Prop :=
  (∀ w ∈ s.mem.waits, w.1 ≠ k) ∧ (∀ x ∈ s.homes.txns, x.stage ≠ .chan k) ∧ ∀ w ∈ s.homes.chanWait, w.1 ≠ k

/-- No region command, LOAD or descriptor read waits to go on with a write of the control space (R149). -/
abbrev NothingResumes (s : State) : Prop := s.on F.homeRgnCmdBusy = false ∧ s.disp.loading = none ∧ s.disp.descs = []

/-- The state in which the command bit of an accepted control-space write acts: the write is logged, its sequence number taken and the
register's fields written (R436, R505). -/
def State.atHook (s : State) (csa v : Nat) (c : Cmd) : State :=
  let w := csa / 0x100000
  let b := blkOfWindow w
  let s := (s.logCmd csa v c).wr (F.hdrSeqSeq w) c.seq.toNat
  match findReg b.1 b.2 (csa % 0x100000) with
  | none => s
  | some r => s.setReg csa (s.groupCheck b.1 b.2 (csa % 0x100000) (s.reg csa)
      (r.fields.foldl (fun acc f => writeField f v acc) (s.reg csa, 0)).1).1

/-- The state in which PAT_CMD.GO of a LOAD into a strip acts. -/
def State.atLoad (s : State) (strip : BitVec 3) (c : Cmd) : State :=
  s.atHook F.dispPatCmdGo.csa
    (s.compose F.dispPatCmdGo.csa [(F.dispPatCmdStrip, strip.toNat), (F.dispPatCmdOp, 1), (F.dispPatCmdGo, 1)]) c

/-- A line is served from the home line cache: the SRAM tier does not hold its frame, and the cache has it as `l` (R77, R163). -/
abbrev InCache (s : State) (dpa : Nat) (l : LcLine) : Prop := s.inSram (dpa / 0x10000) = false ∧ s.lcGet dpa = some l

/-- Nothing waits in the queues of the home slices, the mirror and DISP: no chain, pending queue, back-invalidation, held request
or descriptor read. -/
abbrev NoQueue (s : State) : Prop :=
  s.homes.chain = [] ∧ s.homes.pendq = [] ∧ s.homes.chanWait = [] ∧ s.homes.jobs = [] ∧ s.homes.starve = [] ∧
  s.mir.held = [] ∧ s.mir.readHeld = [] ∧ s.mir.sent = [] ∧ s.mir.waits = [] ∧ s.disp.descs = []

/-- Nothing waits and no line transaction is open, so that a command has its own effect only. -/
abbrev Quiet (s : State) : Prop := s.homes.txns = [] ∧ NoQueue s

/-- A host is within reach: its response port is ACTIVE, and no snoop to it waits to be sent again (R358, R360). -/
abbrev InReach (s : State) (h : Nat) : Prop :=
  s.rd (F.fportLstatState (s.rport h)) = 3 ∧ s.hosts.lostSnoops = []

/-- The T7 serves requests without the features that add waiting of their own: tag records and strict partitions are off. -/
abbrev Plain (s : State) : Prop := s.on F.xbarIdemEn = false ∧ s.on F.secPartCtlEn = false

/-- A host's request `p` of opcode `op` finds everything at its home: a live lease, an active unmirrored region `g` that its
attachments admit it to, the leaf `e` of its page in the home's translation cache with both rights, and its line `l` in the
home line cache (R41, R44, R55, R77). -/
abbrev Ready (s : State) (p : Pkt) (op : Nat) (g : Rgn) (e : Tlb) (l : LcLine) : Prop :=
  Running s ∧ Quiet s ∧ Plain s ∧ s.hosts.routed = [] ∧ s.returning (homeOfPtr p.addr.toNat) = false ∧
  s.leased p.host.toNat = true ∧ p.host ≠ 0xFFF ∧ p.vsel = false ∧
  s.rgnAt (ptrSpace p.addr.toNat) (ptrOff p.addr.toNat) = some g ∧ g.mirror = false ∧ g.tier ≠ 2 ∧
  judgeAtts (s.attach p.host.toNat (some (ptrSpace p.addr.toNat))) g
    (if op = 4 && s.isTpage g.id then 33 else rightsOf op) = none ∧
  s.tlbHit (homeOfPtr p.addr.toNat) (ptrSpace p.addr.toNat) (ptrOff p.addr.toNat) = some e ∧
  leafRd e.entry = true ∧ leafWr e.entry = true ∧
  InCache s (leafDpa e.entry e.bits (ptrOff p.addr.toNat) / 128 * 128) l

/-- Filter key of the way that a host's grant of a line fills (R77, R81). -/
def grantKey (slot : Nat) (p : Pkt) : Nat :=
  let line := p.addr.toNat / 128 * 128
  fKey (homeOfPtr p.addr.toNat) slot (setOf (ptrSpace line) (ptrOff line) % 64) p.way.toNat

/-- A dynamic packet has come to its end as it stands: the tile clocks run, and nothing of it is on its way (R26, R199). -/
abbrev Come (s : State) (m : MPkt) : Prop :=
  s.pwr.halt = none ∧ s.inNet m = false ∧ ∀ x ∈ s.tiles.mesh ++ s.meshResp, mKey x = mKey m → x = m

/-- Response `k` answers request `m` with a status, its own header fields in their places (Table TIL-3, R203, R205). -/
abbrev Replies (k m : MPkt) (status : Nat) : Prop :=
  k.status = BitVec.ofNat 8 status ∧ k.dx = m.sx ∧ k.dy = m.sy ∧ k.sx = m.dx ∧ k.sy = m.dy ∧ k.seq = m.seq ∧ k.cc = m.cc ∧
  k.cls = true ∧ k.ce = false ∧ k.cee = m.ce

/-- A tile's request `m` finds everything at its home: an active region `g`, the leaf `e` of its page in the home's translation
cache with every right, its line `l` in the home line cache, and nobody's pinned version in the way (R41, R44, R99). -/
abbrev TileReady (s : State) (m : MPkt) (g : Rgn) (e : Tlb) (l : LcLine) : Prop :=
  Running s ∧ Quiet s ∧ Plain s ∧ Come s m ∧ s.pub.pins = [] ∧ s.returning (homeOfPtr m.addr.toNat) = false ∧
  s.rgnAt (ptrSpace m.addr.toNat) (ptrOff m.addr.toNat) = some g ∧ g.tier ≠ 2 ∧
  s.tlbHit (homeOfPtr m.addr.toNat) (ptrSpace m.addr.toNat) (ptrOff m.addr.toNat) = some e ∧
  leafRd e.entry = true ∧ leafWr e.entry = true ∧ leafOp e.entry = true ∧
  InCache s (leafDpa e.entry e.bits (ptrOff m.addr.toNat) / 128 * 128) l

/-- A host's publish message `p` of opcode `op` finds its region `g` active, PUBLISHED and not mirrored, a live lease, and an
attachment that admits it (R104, R535). -/
abbrev PubReady (s : State) (p : Pkt) (op : Nat) (g : Rgn) : Prop :=
  Running s ∧ Quiet s ∧ Plain s ∧ s.hosts.routed = [] ∧ s.leased p.host.toNat = true ∧ p.host ≠ 0xFFF ∧
  s.rgn? (bits p.body.toNat 15 0) = some g ∧ g.mode = 2 ∧ g.mirror = false ∧
  ((publishRights op).all fun n => (judgeAtts ((s.attach p.host.toNat none).filter fun a =>
    a.spaceLo ≤ g.space && g.space ≤ a.spaceHi) g n).isSome) = false

/-- An invocation passes checks 1 to 7 of Table OPS-4 with its descriptor `d`, under attachments that admit its extents to one tenant:
it is well formed, its pointers are good, the modes, limits and ranges hold, and a placement of the operator serves (R270). -/
abbrev InvokeValid (s : State) (h : InvHdr) (d : List Byte) (atts : List Attach) (tenant : Nat) : Prop :=
  h.zeros = true ∧ opKnown h.opid = true ∧ descOk h.opid d h.dlen = true ∧ pointersOk h (strmsOf d) = true ∧
  s.admitExtents atts (extentsOf h (strmsOf d)) = (none, some tenant) ∧
  s.modesOk h (strmsOf d) (extentsOf h (strmsOf d)) = true ∧ limitOk h.opid d = true ∧ overlapOk h.opid d = true ∧
  ∃ p ∈ s.disp.places, p.opid = h.opid ∧ s.placeLost p = false

/-- An Invoke or Cancel `p` reaches DISP from a host that its record does not hold up. -/
abbrev DispReady (s : State) : Prop :=
  Running s ∧ Plain s ∧ s.hosts.routed = [] ∧ s.disp.descs = []

/-- The request in packet `p` as DISP reads it. -/
def asInvoke (p : Pkt) : InvHdr := invHdr { p with opc := 0x38 }

/-- DISP can start instance `i` of operator `n` on placement `p`, which the one tile `tile` serves with ways free for the translations of
its streams (R47, R280). -/
abbrev OpStart (s : State) (n : Nat) (i : Inst) (p : Placement) (tile : Nat) : Prop :=
  Running s ∧ s.nextStart n = some (i, p) ∧ s.inst? i.idx = some i ∧ s.place? p.num = some p ∧ s.placeTiles p = [tile] ∧
  i.done = false ∧ i.stopping = none ∧ s.pub.pins = [] ∧
  (s.homes.tlb.filter fun u => u.place == 64 + tile).length + i.streams.length ≤ 8

/-- A sequential stream lies in one page, whose leaf `e` is in the tile's translation cache (R47). -/
abbrev Mapped (s : State) (tile : Nat) (x : Strm) (e : Tlb) : Prop :=
  x.dir = false ∧ x.gath = false ∧ x.len ≠ 0 ∧ s.tlbHit (64 + tile) (ptrSpace x.base) (ptrOff x.base) = some e ∧
  ptrOff x.base % 2 ^ e.bits + x.len ≤ 2 ^ e.bits

/-- A line of region `g` that the tile reaches under leaf `e`, with every right, stands in its home line cache as `l`, good. -/
abbrev Cached (s : State) (tile ptr : Nat) (g : Rgn) (e : Tlb) (l : LcLine) : Prop :=
  ptr % 128 = 0 ∧ s.rgnAt (ptrSpace ptr) (ptrOff ptr) = some g ∧
  s.tlbHit (64 + tile) (ptrSpace ptr) (ptrOff ptr) = some e ∧ leafRd e.entry = true ∧ leafWr e.entry = true ∧
  leafOp e.entry = true ∧ InCache s (leafDpa e.entry e.bits (ptrOff ptr) / 128 * 128) l ∧ l.poison = false

/-- After the step the instance runs on the placement and its work is done. -/
abbrev Worked (t : State) (i : Inst) (p : Placement) (j : Inst) : Prop :=
  t.inst? i.idx = some j ∧ j.state = 1 ∧ j.place = some p.num ∧ j.done = true ∧ j.stopping = none

/-- An OpData packet of an instance: stream, offset and line (R283). -/
abbrev IsOpData (k : Pkt) (i : Inst) (stream off : Nat) (d : Line) : Prop :=
  k.opc = 0x3B ∧ k.host = BitVec.ofNat 12 i.host ∧ k.tag = BitVec.ofNat 15 i.tag ∧ k.poison = false ∧
  k.body = BitVec.ofNat 2048 (stream % 16 + off % 2 ^ 40 * 16 + d.toNat * 2 ^ 128)

/-- A port is ACTIVE with no request outstanding or waiting and no width change under way (R333, R334). -/
abbrev LinkIdle (s : State) (p : Nat) : Prop :=
  Running s ∧ s.lstate p = 3 ∧ (s.link p).req = none ∧ (s.link p).want = [] ∧ (s.link p).width = none

/-- No carillon slot has a copy for the port (R365). -/
abbrev NoCopies (s : State) (p : Nat) : Prop := ∀ c ∈ s.hosts.carillon, tst c.mask p = false

/-- A port has nothing to send: no message, rolled flit, open packet, carillon copy, or packet at the crossbar. -/
abbrev NothingToSend (s : State) (p : Nat) : Prop :=
  (s.link p).ctl = [] ∧ (s.link p).roll = [] ∧ (s.link p).sending = [[], [], [], [], [], []] ∧ NoCopies s p ∧
  ∀ k ∈ s.out, k.port.val ≠ p

/-- In this slot the lanes of a port that its receive mask holds deliver one flit: the lane's `f`, out of its codewords (R315, R316,
R322). -/
abbrev OneFlit (s : State) (p : Nat) (x : LaneFlit) (f : FlitIn) : Prop :=
  ((s.link p).takeMarkers [x]).flitsOf [x] = [f] ∧ tst (s.rd (F.fportLstatRxmask p)) f.lane = true

/-- A port's last link message waits for the next CONTROL flit (R331). -/
abbrev Says (s t : State) (p code fields : Nat) : Prop := (t.link p).ctl = (s.link p).ctl ++ [linkMsg code fields]

/-- A port's replay buffer, sequence numbers and credits stay (R342). -/
abbrev KeepsFlits (s t : State) (p : Nat) : Prop :=
  (t.link p).replay = (s.link p).replay ∧ (t.link p).next = (s.link p).next ∧ (t.link p).expect = (s.link p).expect ∧
  (t.link p).credit = (s.link p).credit ∧ (t.link p).freed = (s.link p).freed

/-- A flit with the given header fields, no acknowledgement, credit or roll request, and the given sequence number and units. -/
abbrev PlainFlit (x : FlitIn) (ft fseq vc : Nat) (us : List (BitVec 128)) : Prop :=
  flitBad x = false ∧ bits x.data.toNat 1 0 = ft ∧ bits x.data.toNat 15 2 = fseq ∧ bits x.data.toNat 36 34 = vc ∧
  bit x.data.toNat 30 = 0 ∧ bit x.data.toNat 31 = 0 ∧ 6 ≤ bits x.data.toNat 43 41 ∧
  (List.range 15).map (fun i => unitOf (x.data.toNat / 2 ^ 64) i) = us

/-- Cycle at which a core issues its next operation from a slot: not before the cycle it is commanded for, the clock, its last bundle or
the end of a stall, and not twice from one slot of a bundle (R177, R180, R185, R222). -/
def issueCycle (s : State) (a : CoreAt) (slot : Nat) : Nat :=
  let c := s.core (coreKey a)
  let u := max (max a.cyc.toNat s.tiles.clock) (max c.cyc c.stallTo)
  if u = c.cyc && tst c.slots slot then u + 1 else u

/-- No flit is on its way or owed among the tiles, and no load is under way. -/
abbrev MeshStill (s : State) : Prop :=
  s.tiles.flights = [] ∧ s.tiles.crosses = [] ∧ s.tiles.landing = [] ∧ s.tiles.owed = [] ∧ s.tiles.net.queue = [] ∧
  s.tiles.net.bufs = [] ∧ s.tiles.dlds = []

/-- A core that can issue: its tile serves and has its clock, it waits for nothing and holds nothing back, and no flit or load is on
its way (R178, R180, R208). -/
abbrev CoreOn (s : State) (a : CoreAt) : Prop :=
  Running s ∧ s.tileState a.tile.val ≤ 1 ∧ s.pwr.halt = none ∧ s.on (F.hdrStateInreset a.tile.val) = false ∧
  (s.core (coreKey a)).waiting = none ∧ (s.core (coreKey a)).held = [] ∧ MeshStill s

/-- A core that can issue, with no effect of an earlier operation still to come. -/
abbrev CoreReady (s : State) (a : CoreAt) : Prop := CoreOn s a ∧ s.tiles.pend = []

/-- The core does not run the body of a pattern phase, so that the operations of dynamic phases act. -/
abbrev InDynamic (s : State) (a : CoreAt) : Prop := s.inPattern a.tile.val a.core.val = false

/-- The banks of the core's tile serve it in cycle `n`: no port is taken or kept and no clear path runs (R184, R185, R224). -/
abbrev BanksFree (s : State) (a : CoreAt) (n : Nat) : Prop :=
  s.tiles.ports = [] ∧ s.tiles.clears = [] ∧ ∀ port, s.portKept a.tile.val port n = false

/-- Registers of the core as its next operation reads them. -/
def sregOf (s : State) (a : CoreAt) (r : BitVec 5) : SReg := (s.core (coreKey a)).sreg r.toNat
def vregOf (s : State) (a : CoreAt) (r : BitVec 6) : VReg := (s.core (coreKey a)).vreg r.toNat

/-- The step issues an operation of the core from a slot and does nothing else at issue but what the operation adds: the clock and the
bundle index move on, and every register, accumulator, counter, byte of scratchpad and memory, and other core stays. -/
abbrev Issues (s t : State) (a : CoreAt) (slot : Nat) : Prop :=
  (t.core (coreKey a)).cyc = issueCycle s a slot ∧ t.tiles.clock = issueCycle s a slot ∧
  (t.core (coreKey a)).pc = (s.core (coreKey a)).pcAt (issueCycle s a slot) ∧
  (∀ r, sregOf t a r = sregOf s a r) ∧ (∀ r, vregOf t a r = vregOf s a r) ∧
  (∀ x l, (t.core (coreKey a)).acc x l = (s.core (coreKey a)).acc x l) ∧
  (∀ k, k ≠ coreKey a → t.core k = s.core k) ∧ t.tiles.counts = s.tiles.counts ∧ t.tiles.spad = s.tiles.spad ∧ t.mem = s.mem

/-- The step issues the operation from a slot, and exactly one effect is under way: that of the operation, `dt` cycles after issue. -/
abbrev OneEffect (s t : State) (a : CoreAt) (dt slot : Nat) (e : Effect) : Prop :=
  Issues s t a slot ∧ t.tiles.pend = [⟨a.tile.val, a.core.val, issueCycle s a slot + dt, slot, e⟩]

/-- The operation writes the eight lanes of a vector register, `dt` cycles after issue: a lane for which `bad` holds is poisoned, and
every other has the value `g` (R257). -/
abbrev WritesLanes (s t : State) (a : CoreAt) (dt slot : Nat) (vd : BitVec 6) (bad : Nat → Bool) (g : Nat → Nat) : Prop :=
  ∃ (v : BitVec 256) (p : BitVec 8), OneEffect s t a dt slot (.vreg vd.toNat v (BitVec.allOnes 256) p 0xFF) ∧
    ∀ j, j < 8 → p.getLsbD j = bad j ∧ (bad j = false → elemOf v 32 j = g j % 2 ^ 32)

/-- The flags of the operation's unpoisoned lanes are added to the core's sticky flags (R256, R257). -/
abbrev AddsFlags (s t : State) (a : CoreAt) (bad : Nat → Bool) (g : Nat → Nat) : Prop :=
  (t.core (coreKey a)).flags = (List.range 8).foldl (fun m j => if bad j then m else m ||| g j) (s.core (coreKey a)).flags

/-- A poisoned value stops the core's instance with POISONED, and has no other effect than the issue. -/
abbrev EndsPoisoned (s t : State) (a : CoreAt) (slot : Nat) (i : Inst) : Prop :=
  Issues s t a slot ∧ t.tiles.pend = [] ∧ t.disp.insts = [{ i with stopping := some 0x13 }]

/-- The running instance of the core, the only one DISP has. -/
abbrev RunsAlone (s : State) (a : CoreAt) (i : Inst) : Prop :=
  s.instAt a.tile.val a.core.val = some i ∧ s.disp.insts = [i] ∧ i.state = 1 ∧ i.stopping = none

/-- The products of lane `j` of a dot product: `n` elements of each register, scaled where scales are given (R251). -/
def laneProducts (x y : VReg) (fa fb n : Nat) (h : Bool) (sa sb : Option Word) (j : Nat) : List (FV × Nat) :=
  (List.range n).map fun i =>
    mulFV (elemVal x fa (2 * n * j + (if h then n else 0) + i) sa) (elemVal y fb (2 * n * j + (if h then n else 0) + i) sb)

/-- Block scales of a dot product: of va's elements (0) and vb's (1), from the scalar register pair that RSP names; and whether either is
poisoned (R182, R251). -/
def dotScale (s : State) (a : CoreAt) (rsp : BitVec 4) (i : Nat) : Option Word :=
  if rsp = 0 then none else some ((s.core (coreKey a)).sreg (2 * rsp.toNat + i)).val
def dotScaleBad (s : State) (a : CoreAt) (rsp : BitVec 4) : Bool :=
  rsp ≠ 0 && (((s.core (coreKey a)).sreg (2 * rsp.toNat)).poison || ((s.core (coreKey a)).sreg (2 * rsp.toNat + 1)).poison)

/-- MGT serves its sessions: it is not under reset, and no fatal fault of SEC or MGT holds the part (R446, Table RST-5). -/
abbrev MgtServes (s : State) : Prop :=
  s.rst.porHeld = false ∧ s.on (F.hdrStateInreset 858) = false ∧
  (s.on F.rstCtlHalted = false ∨ (s.rd F.rstCauseFblk ≠ 857 ∧ s.rd F.rstCauseFblk ≠ 858))

/-- A frame `f` on a connection opens in its session `x`: MGT serves, it authenticates, and fewer than 2^32 frames have passed (R445,
R446, R483). -/
abbrev GoodFrame (s : State) (conn : Nat) (f : Frame) (x : Session) : Prop :=
  MgtServes s ∧ s.session? conn = some x ∧
  (Config.gcmOpen x.keyIn (nonce x.ivIn x.nIn) (frameHead f.ty.toNat f.body.length) f.body).isSome = true ∧
  x.nIn < 2 ^ 32 ∧ x.nOut < 2 ^ 32

/-- The step answers in session `x` with one protected frame and goes on with the session (R482, R483). -/
abbrev Answers (s t : State) (x : Session) (ty : Nat) (b : MgtBody) : Prop :=
  (⟨x.conn, ty, b, x.seal ty (mgtBytes b), s.beat⟩ : MgtFrame) ∈ t.sec.mgtOut ∧
  t.session? x.conn = some { x with nIn := x.nIn + 1, nOut := x.nOut + 1, last := s.beat }

/-- The step answers with status DENIED and does nothing else. -/
abbrev Denies (s t : State) (x : Session) (ty : Nat) : Prop :=
  Answers s t x ty .denied ∧ t.sec.flash = s.sec.flash ∧ t.sec.fwIn = s.sec.fwIn ∧ t.regs = s.regs ∧ t.homes = s.homes

/-- The session holds a credential of a role. -/
abbrev HasRole (x : Session) (r : Role) : Prop := ∃ c, x.who = some c ∧ c.role = r

end Sys2Proof.Machine
end

