-- ==== Sys2Proof/Certificates/Slice0/Obligations.lean ====
section
/-! DEFINITION. The statements about the model that are to be proved. -/

open Sys2Proof Sys2Proof.Machine

/-- A step performs the command at the front of the queue. With command c at the front, a step is exec of c on the state
with the queue's rest. -/
def Obligations.StepPerformsTheFrontCommand : Prop :=
  ∀ (c : Instr) (rest : List Instr) (s : State), step { s with pending := c :: rest } = exec c { s with pending := rest }

/-- An empty queue lets one beat pass. With no command waiting a step counts the 64-bit master counter on by one (log entry 1: the
model's choice). Beside it only the block counters change, in their count and control words, with an event of class 9 where one
wraps; with no counter enabled, with the counters frozen and in the fatal halt nothing else changes at all; and nothing whatever
while VAON holds the power-on reset. -/
def Obligations.EmptyQueueIsOneBeat : Prop :=
  (∀ s : State, s.pending = [] → s.rst.porHeld = true → step s = .next s) ∧
  (∀ s : State, s.pending = [] → s.rst.porHeld = false →
    ∃ (t : State) (l : List Event), step s = .next t ∧
      t = { s with beat := (s.beat + 1) % 2 ^ 64, regs := t.regs, events := s.events ++ l } ∧
      (∀ e ∈ l, e.stamp = s.beat ∧ e.cls = 9) ∧
      ∀ d, d % 0x100000 < 0xF00 ∨ 0x1000 ≤ d % 0x100000 → t.reg d = s.reg d) ∧
  (∀ s : State, s.pending = [] → s.rst.porHeld = false →
    (s.on F.beatTelCtlFrozen = true ∨ s.halted = true ∨
      ∀ e ∈ s.regs, 0xF80 ≤ e.1 % 0x100000 → e.1 % 0x100000 < 0x1000 → tst e.2.toNat 10 = false) →
    step s = .next { s with beat := (s.beat + 1) % 2 ^ 64 })

/-- Every command completes and leaves the queue alone. Every command answers a next state from every state, neither a fault
nor a refusal, with the queue as it was; and the beat counter as it was, unless the command is an event of the always-on
supply. -/
def Obligations.EveryCommandCompletes : Prop :=
  ∀ (c : Instr) (s : State), ∃ t : State, exec c s = .next t ∧ t.pending = s.pending ∧ (ofSupply c = false → t.beat = s.beat)

/-- Any number of steps from any state goes on, first in, first out. k steps from any state answer a state whose queue is the
old queue without its first k commands. -/
def Obligations.QueueDrainsInOrder : Prop :=
  ∀ (k : Nat) (s : State), ∃ t : State, Sys2Proof.core.run k s = .next t ∧ t.pending = s.pending.drop k

/-- The master beat counter stays a 64-bit counter. Every step from a state whose beat counter is below 2^64 answers a state
whose beat counter is below 2^64. -/
def Obligations.BeatCounterInvariant : Prop :=
  ∀ s t : State, BeatInv s → step s = .next t → BeatInv t

/-- The reset state meets the beat invariant, holds no command and counts from beat zero. Memory is in canonical form. -/
def Obligations.ResetMeetsInvariant : Prop :=
  BeatInv State.reset ∧ State.reset.beat = 0 ∧ State.reset.pending = [] ∧ Memory.wf State.reset.mem.dram = true

/-- The fatal halt takes the T7 out of service. In the fatal halt every command but those of SEC, MGT, BEAT, RST, PWR and the
supply leaves the whole state as it was. -/
def Obligations.FatalHaltHoldsOff : Prop :=
  ∀ (c : Instr) (s : State), s.halted = true → servedInHalt c = false → exec c s = .next s

/-- Nothing but the supply acts while the always-on rail is down. While VAON holds the power-on reset, every command but the
supply's own events leaves the whole state as it was. -/
def Obligations.PowerOnResetHoldsOff : Prop :=
  ∀ (c : Instr) (s : State), s.rst.porHeld = true → ofSupply c = false → exec c s = .next s

/-- A beat replica that disagrees with a pulse reloads and reports. A replica whose low 8 bits agree keeps its count; one that
disagrees holds the master's count afterwards and an event of class 9 is raised; nothing else changes.  The failure of one
distribution tree of an island is reported, that of the second is a fatal error. -/
def Obligations.BeatReplicasFollowTheMaster : Prop :=
  (∀ (s : State) (island : Fin 100) (count : Word), Running s → count.toNat % 256 ≠ s.beat % 256 →
    exec (.beatReplicaReload island count) s = .next { s with
      beatNet := { s.beatNet with replica := SMap.set 0#64 s.beatNet.replica island.val 0#64 }
      events := s.events ++ [⟨s.beat, 9, 859, none⟩] }) ∧
  (∀ (s : State) (island : Fin 100) (count : Word), Running s → BeatInv s → count.toNat % 256 = s.beat % 256 →
    ∃ t : State, exec (.beatReplicaReload island count) s = .next t ∧
      t = { s with beatNet := { s.beatNet with replica := t.beatNet.replica } } ∧
      (SMap.get 0#64 t.beatNet.replica island.val + BitVec.ofNat 64 s.beat) = count) ∧
  (∀ (s : State) (island : Fin 100) (tree : Fin 2), Running s →
    SMap.get 0 s.beatNet.trees island.val ||| 2 ^ tree.val ≠ 3 →
    exec (.beatTreeFailure island tree) s = .next { s with
      beatNet := { s.beatNet with
        trees := SMap.set 0 s.beatNet.trees island.val (SMap.get 0 s.beatNet.trees island.val ||| 2 ^ tree.val) }
      events := s.events ++ [⟨s.beat, 9, 859, none⟩] }) ∧
  (∀ (s : State) (island : Fin 100) (tree : Fin 2), Running s →
    SMap.get 0 s.beatNet.trees island.val ||| 2 ^ tree.val = 3 →
    ∃ t : State, exec (.beatTreeFailure island tree) s = .next t ∧ t.halted = true ∧
      t.events = s.events ++ [⟨s.beat, 3, 859, none⟩])

/-- A write of TARGET arms a frequency-step change. TARGET becomes the written step, or the highest step that PAT_STAT.CEIL
allows where the written one lies above it; FSTEP_AT becomes at least 64 beats after the write takes effect; CUR stands.  A change
is then pending, unless the target is the step that holds anyway once a change under way is over and no ceiling lies below it (log
entry 4: the model's choice). -/
def Obligations.StepTargetArmsAChange : Prop :=
  ∀ (s : State) (target : BitVec 2) (c : Cmd), s.rst.porHeld = false → Accepts s 861 c → s.beat + 66 < 2 ^ 64 →
    ∃ t : State, exec (.fstepTarget target c) s = .next t ∧
      t.rd F.pwrFstepCtlTarget = max target.toNat (s.rd F.dispPatStatCeil) ∧
      t.rd F.pwrFstepAtBeat = max (s.rd F.pwrFstepAtBeat) (s.beat + 66) ∧
      t.rd F.pwrFstepCtlPending =
        (if max target.toNat (s.rd F.dispPatStatCeil) = s.nextStep ∧
            s.aboveCeil (max target.toNat (s.rd F.dispPatStatCeil)) = false then 0 else 1) ∧
      t.rd F.pwrFstepCtlCur = s.rd F.pwrFstepCtlCur ∧ t.pwr.halt = s.pwr.halt

/-- A frequency-step change halts the tile clocks and ends at the new step. A pending change that is due and that no ceiling
forbids begins with a 64-beat halt, a change to a faster step once its voltage is confirmed; a held ceiling below the current
step begins a halt to the slower of the ceiling and a slower target that is due; when the 64 beats are over the clocks resume at
the new step and the mesh-bar counters restart at zero. -/
def Obligations.StepChangeHaltsAndResumes : Prop :=
  (∀ s : State, Running s → s.on F.pwrFstepCtlPending = true → s.rd F.pwrFstepAtBeat ≤ s.beat → s.pwr.halt = none →
    s.aboveCeil (s.rd F.pwrFstepCtlTarget) = false →
    (s.rd F.pwrFstepCtlCur ≤ s.rd F.pwrFstepCtlTarget ∨ ∃ b, s.pwr.confirmed = some b ∧ b ≤ s.beat) →
    ∃ t : State, exec .fstepBegin s = .next t ∧
      t = { s with regs := t.regs, pwr := { s.pwr with
        halt := some (s.rd F.pwrFstepCtlTarget, s.beat + 64), raiseAt := none, confirmed := none } } ∧
      t.rd F.pwrFstepCtlPending = 0 ∧ t.rd F.pwrFstepCtlCur = s.rd F.pwrFstepCtlCur ∧
      ∀ d, d ≠ F.pwrFstepCtlPending.csa → t.reg d = s.reg d) ∧
  (∀ s : State, Running s → s.on F.pwrFstepCtlThermal = true → s.rd F.pwrFstepCtlCur < s.rd F.pwrFstepCtlCeil →
    s.pwr.halt = none →
    ∃ t : State, exec .thermalStepDown s = .next t ∧
      t.pwr.halt = some (if s.on F.pwrFstepCtlPending = true ∧ s.rd F.pwrFstepAtBeat ≤ s.beat ∧
          s.rd F.pwrFstepCtlCur < s.rd F.pwrFstepCtlTarget then max (s.rd F.pwrFstepCtlTarget) (s.rd F.pwrFstepCtlCeil)
        else s.rd F.pwrFstepCtlCeil, s.beat + 64) ∧
      t = { s with regs := t.regs, pwr := t.pwr } ∧ ∀ d, d ≠ F.pwrFstepCtlPending.csa → t.reg d = s.reg d) ∧
  (∀ (s : State) (st b : Nat), Running s → s.pwr.halt = some (st, b) → st < 4 → b ≤ s.beat →
    ∃ t : State, exec .fstepResume s = .next t ∧ t.pwr.halt = none ∧ t.rd F.pwrFstepCtlCur = st ∧ t.mbar = 0)

/-- Junction temperature and core current set, lower and lift the ceilings. The hottest of the 40 sensors counts.  From 102 °C on the
thermal ceiling is the slowest step; from 97 °C on it is one step below the current one, and one further step lower after each 10 ms;
below 92 °C for 1 ms it lifts; at 110 °C the T7 halts and asserts THERMTRIP_N, which it releases below 90 °C.  A mean current above
1,900 A over 1 ms or 2,300 A over 10 µs sets or lowers the current ceiling in the same steps; below 1,700 A over 10 ms it lifts. -/
def Obligations.ThermalAndCurrentLimits : Prop :=
  (∀ (s : State) (temps : BitVec 360), s.rst.porHeld = false → 102 ≤ hottest temps → s.pwr.thermCeil.map (·.1) ≠ some 3 →
    (∀ x ∈ s.pwr.currCeil, x.1 < 4) →
    ∃ t : State, exec (.thermalThreshold temps) s = .next t ∧ t.pwr.thermCeil = some (3, s.beat) ∧
      t.rd F.pwrFstepCtlThermal = 1 ∧ t.rd F.pwrFstepCtlCeil = 3 ∧ t.events = s.events ++ [⟨s.beat, 9, 861, some 19⟩]) ∧
  (∀ (s : State) (temps : BitVec 360), s.rst.porHeld = false → 97 ≤ hottest temps → hottest temps < 102 →
    s.pwr.thermCeil = none →
    ∃ t : State, exec (.thermalThreshold temps) s = .next t ∧
      t.pwr.thermCeil = some (min 3 (s.rd F.pwrFstepCtlCur + 1), s.beat) ∧
      t.rd F.pwrFstepCtlThermal = 1 ∧ t.events = s.events ++ [⟨s.beat, 9, 861, some 19⟩]) ∧
  (∀ (s : State) (temps : BitVec 360) (st b : Nat), s.rst.porHeld = false → 97 ≤ hottest temps → hottest temps < 102 →
    s.pwr.thermCeil = some (st, b) → st < 3 → b + 312500 ≤ s.beat →
    ∃ t : State, exec (.thermalThreshold temps) s = .next t ∧ t.pwr.thermCeil = some (st + 1, s.beat) ∧
      t.events = s.events ++ [⟨s.beat, 9, 861, some 19⟩]) ∧
  (∀ (s : State) (temps : BitVec 360), s.rst.porHeld = false → hottest temps < 97 →
    exec (.thermalThreshold temps) s = .next { s with pwr := { s.pwr with
      temp := hottest temps,
      coolSince := if hottest temps < 92 then some (s.pwr.coolSince.getD s.beat) else none } }) ∧
  (∀ (s : State) (b : Nat), s.rst.porHeld = false → s.pwr.coolSince = some b → b + 31250 ≤ s.beat →
    s.pwr.thermCeil.isSome = true → (∀ x ∈ s.pwr.currCeil, x.1 < 4) →
    ∃ t : State, exec .thermalCeilingLift s = .next t ∧ t.pwr.thermCeil = none ∧
      t.rd F.pwrFstepCtlThermal = (if s.pwr.currCeil.isSome = true then 1 else 0) ∧
      t.rd F.pwrFstepCtlCeil = (s.pwr.currCeil.map (·.1)).getD 0) ∧
  (∀ (s : State) (temps : BitVec 360), s.rst.porHeld = false → 110 ≤ hottest temps →
    ∃ t : State, exec (.thermalTrip temps) s = .next t ∧ t.pwr.thermtrip = true ∧ t.halted = true) ∧
  (∀ (s : State) (temps : BitVec 360), s.rst.porHeld = false → hottest temps < 90 →
    exec (.thermtripRelease temps) s =
      .next { s with pwr := { s.pwr with temp := hottest temps, thermtrip := false } }) ∧
  (∀ (s : State) (m1 mu m10 : BitVec 12), s.rst.porHeld = false → (1900 < m1.toNat ∨ 2300 < mu.toNat) →
    s.pwr.currCeil = none →
    ∃ t : State, exec (.currentCeiling m1 mu m10) s = .next t ∧
      t.pwr.currCeil = some (min 3 (s.rd F.pwrFstepCtlCur + 1), s.beat) ∧ t.rd F.pwrFstepCtlThermal = 1 ∧
      t.events = s.events ++ [⟨s.beat, 9, 861, some 18⟩]) ∧
  (∀ (s : State) (m1 mu m10 : BitVec 12) (st b : Nat), s.rst.porHeld = false → (1900 < m1.toNat ∨ 2300 < mu.toNat) →
    s.pwr.currCeil = some (st, b) → st < 3 → b + 312500 ≤ s.beat →
    ∃ t : State, exec (.currentCeiling m1 mu m10) s = .next t ∧ t.pwr.currCeil = some (st + 1, s.beat) ∧
      t.events = s.events ++ [⟨s.beat, 9, 861, some 18⟩]) ∧
  (∀ (s : State) (m1 mu m10 : BitVec 12), s.rst.porHeld = false → m1.toNat ≤ 1900 → mu.toNat ≤ 2300 → m10.toNat < 1700 →
    s.pwr.currCeil.isSome = true → (∀ x ∈ s.pwr.thermCeil, x.1 < 4) →
    ∃ t : State, exec (.currentCeiling m1 mu m10) s = .next t ∧ t.pwr.currCeil = none ∧
      t.rd F.pwrFstepCtlThermal = (if s.pwr.thermCeil.isSome = true then 1 else 0) ∧
      t.rd F.pwrFstepCtlCeil = (s.pwr.thermCeil.map (·.1)).getD 0)

/-- Rails, the regulator bus and the core voltage. A rail that leaves its window is recorded and raises a power fault; it is
forgotten when it returns; beyond its ride-through it halts the T7; a fault of VCORE ends a raise that waits.  A third AVSBus frame in succession without a valid response
halts the T7; a valid one carries the readings.  The closed loop moves the command of the current step by at most 5 mV within
its window.  A read-back within 1.5 % confirms a raise; a raise unconfirmed for 3,125 beats is abandoned.  A lost reference halts. -/
def Obligations.RailsAndCoreVoltage : Prop :=
  (∀ (s : State) (rail : Fin 6), s.rst.porHeld = false → rail ≠ 0 → (∀ x ∈ s.pwr.railsOut, x.1 ≠ rail.val) →
    exec (.railFault rail) s = .next { s with
      pwr := { s.pwr with railsOut := s.pwr.railsOut ++ [(rail.val, s.beat)] }
      events := s.events ++ [⟨s.beat, 1, 861, some 16⟩] }) ∧
  (∀ s : State, s.rst.porHeld = false → (∀ x ∈ s.pwr.railsOut, x.1 ≠ 0) → s.pwr.raiseAt = none →
    ∃ t : State, exec (.railFault 0) s = .next t ∧ t.pwr.railsOut = s.pwr.railsOut ++ [(0, s.beat)] ∧
      t.events = s.events ++ [⟨s.beat, 1, 861, some 16⟩]) ∧
  (∀ (s : State) (b : Nat), s.rst.porHeld = false → (∀ x ∈ s.pwr.railsOut, x.1 ≠ 0) → s.pwr.raiseAt = some b →
    s.pwr.confirmed = none →
    ∃ t : State, exec (.railFault 0) s = .next t ∧ t.pwr.raiseAt = none ∧ t.rd F.pwrFstepCtlPending = 0 ∧
      t.events = s.events ++ [⟨s.beat, 1, 861, some 16⟩, ⟨s.beat, 9, 861, some 24⟩]) ∧
  (∀ (s : State) (rail : Fin 6) (b : Nat), s.rst.porHeld = false → (rail.val, b) ∈ s.pwr.railsOut →
    ∃ t : State, exec (.railReturn rail) s = .next t ∧ (∀ x, x ∈ t.pwr.railsOut ↔ x ∈ s.pwr.railsOut ∧ x.1 ≠ rail.val) ∧
      t.regs = s.regs ∧ t.events = s.events) ∧
  (∀ (s : State) (rail : Fin 6) (b : Nat), s.rst.porHeld = false → (rail.val, b) ∈ s.pwr.railsOut →
    b + rideBeats rail.val < s.beat →
    ∃ t : State, exec (.rideThroughExpiry rail) s = .next t ∧ t.halted = true ∧ t.pwr.railHalt.isSome = true) ∧
  (∀ (s : State) (alert : Bool) (mv amps : BitVec 16), s.rst.porHeld = false →
    ∃ t : State, exec (.avsbusFrame true alert mv amps) s = .next t ∧ t.pwr.vcore = mv.toNat ∧ t.pwr.amps = amps.toNat ∧
      t.pwr.avsMiss = 0) ∧
  (∀ (s : State) (alert : Bool) (mv amps : BitVec 16), s.rst.porHeld = false → 2 ≤ s.pwr.avsMiss →
    ∃ t : State, exec (.avsbusFrame false alert mv amps) s = .next t ∧ t.halted = true) ∧
  (∀ (s : State) (up : Bool) (mv : BitVec 3), s.rst.porHeld = false → (∀ b ∈ s.pwr.lastAdjust, b + 31250 ≤ s.beat) →
    s.rd F.pwrFstepCtlCur < s.pwr.vstep.length →
    ∃ t : State, exec (.vcoreAdjust up mv) s = .next t ∧ t.pwr.lastAdjust = some s.beat ∧
      t.pwr.vstep.getD (s.rd F.pwrFstepCtlCur) 0 =
        clamp (vcoreWindow (s.rd F.pwrFstepCtlCur)).1 (vcoreWindow (s.rd F.pwrFstepCtlCur)).2
          (if up = true then s.pwr.vstep.getD (s.rd F.pwrFstepCtlCur) 0 + min mv.toNat 5
            else s.pwr.vstep.getD (s.rd F.pwrFstepCtlCur) 0 - min mv.toNat 5)) ∧
  (∀ (s : State) (mv : BitVec 16), s.rst.porHeld = false → s.pwr.raiseAt.isSome = true → s.pwr.confirmed = none →
    985 * s.pwr.vcmd ≤ 1000 * mv.toNat → 1000 * mv.toNat ≤ 1015 * s.pwr.vcmd →
    exec (.voltageConfirm mv) s =
      .next { s with pwr := { s.pwr with vcore := mv.toNat, confirmed := some s.beat } }) ∧
  (∀ (s : State) (b : Nat), s.rst.porHeld = false → s.pwr.raiseAt = some b → s.pwr.confirmed = none →
    b + 3125 ≤ s.beat →
    ∃ t : State, exec .raiseAbandon s = .next t ∧ t.pwr.raiseAt = none ∧ t.rd F.pwrFstepCtlPending = 0 ∧
      t.events = s.events ++ [⟨s.beat, 9, 861, some 24⟩]) ∧
  (∀ (s : State) (ref : Fin 2), s.rst.porHeld = false →
    ∃ t : State, exec (.referenceClockLost ref) s = .next t ∧ t.halted = true ∧ t.pwr.refLost = s.pwr.refLost ||| 2 ^ ref.val)

/-- The I3C target answers private reads of its read-only items. A read of n bytes answers n bytes and changes nothing but the
answer and the model's counter of free values. -/
def Obligations.I3cReadsChangeNothing : Prop :=
  ∀ (s : State) (offset n : BitVec 8), s.rst.porHeld = false →
    ∃ t : State, exec (.i3cPrivateRead offset n) s = .next t ∧ t.pwr.i3c.length = n.toNat ∧
      t = { s with free := t.free, pwr := { s.pwr with i3c := t.pwr.i3c } }

/-- A control-space write is judged by claim and sequence number and then performed. An accepted write of a register without a
command bit stores what its fields admit and moves the block's sequence number; beside them it changes no register but the command
log's fill level, the clamp report and the counters of clamped writes, and nothing else of the T7 but events and the log; so does a
write of the event mask of any block.  A write from an old claim changes nothing but the clamp report; a write whose sequence number
is not above the block's last changes no register but the fill level of the command log; a FROZEN processor writes nothing. -/
def Obligations.ControlWritesAreJudged : Prop :=
  (∀ (s : State) (csa : BitVec 32) (value : BitVec 64) (c : Cmd) (r : RegDesc), csa.toNat % 8 = 0 →
    csa.toNat / 0x100000 < 863 → csa.toNat / 0x100000 ≠ 860 →
    (csa.toNat % 0x100000 < 0xE00 ∨ 0xE30 ≤ csa.toNat % 0x100000) → Running s → NothingResumes s → csa.toNat ≠ F.homeRgnCmdGo.csa → Accepts s (csa.toNat / 0x100000) c →
    findReg (blkOfWindow (csa.toNat / 0x100000)).1 (blkOfWindow (csa.toNat / 0x100000)).2 (csa.toNat % 0x100000) = some r →
    s.hookOf csa.toNat c.writer.toNat = noHook →
    ∃ (t : State) (l : List Event), exec (.configWrite csa value c) s = .next t ∧
      t.reg csa.toNat = (s.atHook csa.toNat value.toNat c).reg csa.toNat ∧
      t.rd (F.hdrSeqSeq (csa.toNat / 0x100000)) = c.seq.toNat ∧
      t = { s with regs := t.regs, cpx := t.cpx, events := s.events ++ l } ∧ (∀ e ∈ l, e = ⟨s.beat, 9, 860, some 16⟩) ∧
      ∀ d, d ≠ csa.toNat → d ≠ (F.hdrSeqSeq (csa.toNat / 0x100000)).csa → d ≠ F.cpCkptLogfill.csa → d / 0x100000 ≠ 860 →
        d ≠ (F.hdrStateClamps (csa.toNat / 0x100000)).csa → t.reg d = s.reg d) ∧
  (∀ (s : State) (w : Nat) (csa : BitVec 32) (value : BitVec 64) (c : Cmd), w < 863 → csa.toNat = w * 0x100000 + 0xE18 →
    Running s → NothingResumes s → Accepts s w c →
    ∃ t : State, exec (.configWrite csa value c) s = .next t ∧ t.rd (F.hdrEvtEnEn w) = value.toNat ∧
      t.rd (F.hdrSeqSeq w) = c.seq.toNat ∧ t.events = s.events ∧
      ∀ d, d ≠ csa.toNat → d ≠ (F.hdrSeqSeq w).csa → d ≠ F.cpCkptLogfill.csa → t.reg d = s.reg d) ∧
  (∀ (s : State) (csa : BitVec 32) (value : BitVec 64) (c : Cmd), csa.toNat % 8 = 0 → csa.toNat / 0x100000 < 863 →
    Running s → NothingResumes s → s.frozenWriter c = false →
    s.on (F.hdrStateInreset (csa.toNat / 0x100000)) = false →
    s.rd (F.hdrSeqSeq (csa.toNat / 0x100000)) < c.seq.toNat → c.claim.toNat ≠ s.rd F.cpTrioClaim →
    ∃ t : State, exec (.configWrite csa value c) s = .next t ∧ t.rd (F.hdrStateClamped (csa.toNat / 0x100000)) = 1 ∧
      t = { s with regs := t.regs, cpx := t.cpx, events := t.events } ∧
      ∀ d, d / 0x100000 ≠ 860 → d ≠ (F.hdrStateClamps (csa.toNat / 0x100000)).csa → d ≠ F.cpCkptLogfill.csa →
        t.reg d = s.reg d) ∧
  (∀ (s : State) (csa : BitVec 32) (value : BitVec 64) (c : Cmd), csa.toNat % 8 = 0 → csa.toNat / 0x100000 < 863 →
    Running s → NothingResumes s →
    s.on (F.hdrStateInreset (csa.toNat / 0x100000)) = false → c.seq.toNat ≤ s.rd (F.hdrSeqSeq (csa.toNat / 0x100000)) →
    ∃ t : State, exec (.configWrite csa value c) s = .next t ∧ t = { s with regs := t.regs, cpx := t.cpx } ∧
      ∀ d, d ≠ F.cpCkptLogfill.csa → t.reg d = s.reg d) ∧
  (∀ (s : State) (csa : BitVec 32) (value : BitVec 64) (c : Cmd), Running s → NothingResumes s → s.frozenWriter c = true → exec (.configWrite csa value c) s = .next s)

/-- A misaligned access, or one beyond the last window, is an access error. It raises RST event bit 17 of class 9 and changes
nothing else, for a write and for the row of the error itself; a read of such an address answers nothing. -/
def Obligations.AccessErrorsChangeNothing : Prop :=
  (∀ (s : State) (csa : BitVec 32), s.rst.porHeld = false → (csa.toNat % 8 ≠ 0 ∨ 863 ≤ csa.toNat / 0x100000) →
    exec (.controlSpaceAccessError csa) s = .next { s with events := s.events ++ [⟨s.beat, 9, 860, some 17⟩] } ∧
    s.readCsr csa.toNat = none) ∧
  (∀ (s : State) (csa : BitVec 32) (value : BitVec 64) (c : Cmd), Running s → NothingResumes s → s.frozenWriter c = false →
    (csa.toNat % 8 ≠ 0 ∨ 863 ≤ csa.toNat / 0x100000) →
    exec (.configWrite csa value c) s = .next { s with events := s.events ++ [⟨s.beat, 9, 860, some 17⟩] })

/-- Events are resolved two beats after their stamp, in order. EVENT_RESOLUTION takes exactly the events stamped at least two beats ago
out of the waiting ones, in the order of stamp, class, block index and event bit; sets exactly their bits in the EVT words; delivers
to the processors, in that order, those without a bit and those whose bit EVT_EN lets through; and changes nothing else. -/
def Obligations.EventsResolveInOrder : Prop :=
  ∀ s : State, s.rst.porHeld = false →
    ∃ (t : State) (due : List Event), exec .eventResolution s = .next t ∧
      due.Perm (s.events.filter fun e => decide (e.stamp + 2 ≤ s.beat)) ∧
      due.Pairwise (fun a b => a.stamp < b.stamp ∨ (a.stamp = b.stamp ∧ (a.cls < b.cls ∨ (a.cls = b.cls ∧ (a.blk < b.blk ∨
        (a.blk = b.blk ∧ a.bit.getD 64 ≤ b.bit.getD 64)))))) ∧
      t = { s with
        regs := t.regs,
        events := s.events.filter (fun e => decide (s.beat < e.stamp + 2)),
        cpOut := s.cpOut ++ ((due.filter fun e => match e.bit with
          | none => true
          | some b => tst (s.rd (F.hdrEvtEnEn e.blk)) b).map fun e => ⟨e.stamp, e.cls, e.blk, e.bit⟩) } ∧
      (∀ blk b, b < 64 → (bit (t.rd (F.hdrEvtEvt blk)) b = 1 ↔
        bit (s.rd (F.hdrEvtEvt blk)) b = 1 ∨ ∃ e ∈ due, e.blk = blk ∧ e.bit = some b)) ∧
      ∀ d, d % 0x100000 ≠ 0xE10 → t.reg d = s.reg d

/-- Counters wrap, report and freeze. A running counter that passes 2^48 - 1 keeps the remainder, sets OVF and raises event bit m
of class 9 where OVIE is set; an armed freeze takes effect at its beat and a frozen counter stands. -/
def Obligations.CountersWrapAndFreeze : Prop :=
  (∀ (s : State) (blk : Fin 863) (m : Fin 16) (n : BitVec 48), Running s → s.rd (F.cntCtlEn blk.val m.val) = 1 →
    s.rd (F.cntCtlMode blk.val m.val) ≠ 2 → s.on F.beatTelCtlFrozen = false →
    2 ^ 48 ≤ s.rd (F.cntCount blk.val m.val) + n.toNat →
    ∃ t : State, exec (.counterOverflow blk m n) s = .next t ∧
      t.rd (F.cntCount blk.val m.val) = s.rd (F.cntCount blk.val m.val) + n.toNat - 2 ^ 48 ∧
      t.rd (F.cntCtlOvf blk.val m.val) = 1 ∧
      t.events = s.events ++ (if s.on (F.cntCtlOvie blk.val m.val) = true then [⟨s.beat, 9, blk.val, some m.val⟩] else [])) ∧
  (∀ s : State, Running s → s.on F.beatTelCtlFrz = true → s.rd F.beatFrzAtBeat ≤ s.beat →
    ∃ t : State, exec .counterFreeze s = .next t ∧ t.on F.beatTelCtlFrozen = true ∧
      ∀ (blk : Fin 863) (m : Fin 16) (n : BitVec 48), exec (.counterOverflow blk m n) t = .next t)

/-- Samples and counter pages reach memory. The record of a tagged request that has ended is written at the head of the ring of its
response port's die, that of an Invoke to the ring of the DISP half that answered, and the head moves on; a full ring keeps its head
and memory and loses the record; either way the request is no longer followed.  A counter page that is due is written through the
region's first leaf with an odd sequence number, then its counters, then with the next even number. -/
def Obligations.SamplesAndCounterPages : Prop :=
  (∀ (s : State) (d : Fin 2) (r : SampleEnd) (x : Track) (k : Nat), Running s →
    s.hosts.tagged.find? (fun x => x.host == r.host.toNat && x.tag == r.tag.toNat) = some x →
    k = (if tst x.flags 5 = true then d.val else s.rport r.host.toNat / 32) → s.on (F.beatSmpBaseEn k) = true →
    0 < s.rd (F.beatSmpBaseLen k) →
    (s.rd (F.beatSmpPtrHead k) + 1) % (s.rd (F.beatSmpBaseLen k) * 1024) ≠ s.rd (F.beatSmpPtrTail k) →
    ∃ t : State, exec (.sampleRecord d r) s = .next t ∧
      t.rd (F.beatSmpPtrHead k) = (s.rd (F.beatSmpPtrHead k) + 1) % (s.rd (F.beatSmpBaseLen k) * 1024) ∧
      t.mem = (({ s with hosts := { s.hosts with tagged := s.hosts.tagged.erase x } } : State).writeBytes
        (s.rd (F.beatSmpBaseBase k) * 0x10000 + 64 * s.rd (F.beatSmpPtrHead k))
        (sampleBytes x fun n => bits r.ns.toNat (5 * n - 1) (5 * n - 5)) 0).mem ∧
      t.hosts = { s.hosts with tagged := s.hosts.tagged.erase x }) ∧
  (∀ (s : State) (d : Fin 2) (r : SampleEnd) (x : Track) (k : Nat), Running s →
    s.hosts.tagged.find? (fun x => x.host == r.host.toNat && x.tag == r.tag.toNat) = some x →
    k = (if tst x.flags 5 = true then d.val else s.rport r.host.toNat / 32) →
    (s.on (F.beatSmpBaseEn k) = false ∨
      (s.rd (F.beatSmpPtrHead k) + 1) % (s.rd (F.beatSmpBaseLen k) * 1024) = s.rd (F.beatSmpPtrTail k)) →
    ∃ t : State, exec (.sampleRecord d r) s = .next t ∧
      t.rd (F.beatSmpPtrHead k) = s.rd (F.beatSmpPtrHead k) ∧ t.mem = s.mem ∧ t.homes = s.homes ∧
      t.hosts = { s.hosts with tagged := s.hosts.tagged.erase x }) ∧
  (∀ (s : State) (tenant : BitVec 8) (g : Rgn), Running s → s.on (F.homeTpageEn tenant.toNat) = true →
    s.rgn? (s.rd (F.homeTpageRegion tenant.toNat)) = some g →
    SMap.get 0 s.tpageAt tenant.toNat + s.rd F.homeTpageCtlPeriod * 31250 ≤ s.beat →
    ∃ t : State, exec (.tpageUpdate tenant) s = .next t ∧ SMap.get 0 t.tpageAt tenant.toNat = s.beat ∧
      SMap.get 0 t.tpageSeq tenant.toNat = (SMap.get 0 s.tpageSeq tenant.toNat + 2) % 2 ^ 64 ∧
      t.mem = (((s.regionLine g.space (g.base * 0x10000)
            (tpageLine0 (SMap.get 0 s.tpageSeq tenant.toNat + 1) s.beat tenant.toNat)).regionLine g.space (g.base * 0x10000 + 128)
            (s.tpageLine1 tenant.toNat)).regionLine g.space (g.base * 0x10000)
            (tpageLine0 (SMap.get 0 s.tpageSeq tenant.toNat + 2) s.beat tenant.toNat)).mem)

/-- Fencing takes a channel out of service and a rebuild brings it back. EN = 1 on a serving channel starts the drain with cause
MANAGEMENT; EN = 0 in READY starts the rebuild and in any other state is discarded and recorded; module power changes in FENCED
and OFF; a channel in service or being rebuilt fences itself with an event of class 6; a drained channel is FENCED, or trains where it
drained for a retrain; a completed rebuild serves again. -/
def Obligations.FencingLifecycle : Prop :=
  (∀ (s : State) (k : Fin 32) (c : Cmd), Running s → Accepts s (736 + k.val) c → s.rd (F.dchFenceEn k.val) = 0 →
    s.rd (F.dchFenceState k.val) = 0 →
    ∃ t : State, exec (.fenceSet k c) s = .next t ∧ t.rd (F.dchFenceEn k.val) = 1 ∧ t.rd (F.dchFenceState k.val) = 1 ∧
      t.rd (F.dchFenceCause k.val) = 1 ∧ t.mem = s.mem) ∧
  (∀ (s : State) (k : Fin 32) (c : Cmd), Running s → Accepts s (736 + k.val) c → s.rd (F.dchFenceEn k.val) = 1 →
    s.rd (F.dchFenceState k.val) = 5 →
    ∃ t : State, exec (.fenceClear k c) s = .next t ∧ t.rd (F.dchFenceEn k.val) = 0 ∧ t.rd (F.dchFenceState k.val) = 6 ∧
      t.rd (F.dchFenceFront k.val) = 0 ∧ t.mem.dram = s.mem.dram ∧ t.mem.parity = s.mem.parity) ∧
  (∀ (s : State) (k : Fin 32) (c : Cmd), Running s → Accepts s (736 + k.val) c → s.rd (F.dchFenceEn k.val) = 1 →
    s.rd (F.dchFenceState k.val) ≠ 5 →
    ∃ t : State, exec (.fenceClear k c) s = .next t ∧ t.rd (F.dchFenceEn k.val) = 1 ∧
      t.rd (F.dchFenceState k.val) = s.rd (F.dchFenceState k.val) ∧
      t.rd (F.hdrStateClamped (736 + k.val)) = 1 ∧ t.mem = s.mem) ∧
  (∀ (s : State) (k : Fin 32) (c : Cmd), Running s → Accepts s (736 + k.val) c → s.rd (F.dchFencePwrOff k.val) = 0 →
    NoneHeld s k.val → NothingResumes s →
    (s.rd (F.dchFenceState k.val) = 2 ∨ s.rd (F.dchFenceState k.val) = 3) →
    ∃ t : State, exec (.modulePowerOff k c) s = .next t ∧ t.rd (F.dchFenceState k.val) = 3 ∧ (t.dc k.val).powered = false ∧
      (t.dc k.val).pwrLost = true) ∧
  (∀ (s : State) (k : Fin 32) (c : Cmd), Running s → Accepts s (736 + k.val) c → s.rd (F.dchFencePwrOff k.val) = 1 →
    s.rd (F.dchFenceState k.val) = 3 →
    ∃ t : State, exec (.modulePowerOn k c) s = .next t ∧ t.rd (F.dchFenceState k.val) = 4 ∧ t.rd (F.dchTrainBusy k.val) = 1 ∧
      (t.dc k.val).powered = true) ∧
  (∀ (s : State) (k : Fin 32) (alert : Bool), Running s →
    (s.rd (F.dchFenceState k.val) = 0 ∨ s.rd (F.dchFenceState k.val) = 6) →
    ∃ t : State, exec (.selfFence k alert) s = .next t ∧ t.rd (F.dchFenceEn k.val) = 1 ∧
      t.rd (F.dchFenceState k.val) = (if s.rd (F.dchFenceState k.val) = 0 then 1 else 2) ∧
      t.rd (F.dchFenceCause k.val) = (if alert = true then 4 else 3) ∧
      t.events = s.events ++ [⟨s.beat, 6, 736 + k.val, none⟩]) ∧
  (∀ (s : State) (k : Fin 32), Running s → s.rd (F.dchFenceState k.val) = 1 →
    ∃ t : State, exec (.drainComplete k) s = .next t ∧
      t.rd (F.dchFenceState k.val) = (if s.rd (F.dchFenceCause k.val) = 5 then 4 else 2)) ∧
  (∀ (s : State) (k : Fin 32), Running s → s.rd (F.dchFenceState k.val) = 6 → NoneHeld s k.val → NothingResumes s →
    ∃ t : State, exec (.rebuildComplete k) s = .next t ∧ t.rd (F.dchFenceState k.val) = 0 ∧ t.rd (F.dchFenceCause k.val) = 0 ∧
      t.rd (F.dchFenceFront k.val) = 0 ∧ (t.dc k.val).journal = [])

/-- Training runs once firmware asks for it. TRAIN fixes MAP and moves every fenced channel that is OFF with cause 6 to TRAINING; a
training that passes with a module that meets Table DRM-1 and holds MAP's lines ends in READY, any other in FAILED; service starts
with enough READY channels, which then serve; RETRAIN is accepted in service only, and its end starts the rebuild or leaves the
channel FAILED. -/
def Obligations.TrainingLifecycle : Prop :=
  (∀ (s : State) (c : Cmd), Running s → Accepts s 860 c →
    ∃ t : State, exec (.dramTrain c) s = .next t ∧ t.mem.mapFixed = true ∧
      ∀ k : Fin 32, s.rd (F.dchFenceState k.val) = 3 → s.rd (F.dchFenceEn k.val) = 1 → s.rd (F.dchFenceCause k.val) = 6 →
        t.rd (F.dchFenceState k.val) = 4 ∧ t.rd (F.dchTrainBusy k.val) = 1 ∧ (t.dc k.val).powered = true) ∧
  (∀ (s : State) (k : Fin 32) (pass : Bool) (serial : BitVec 32) (spd : Spd) (margin : BitVec 8), Running s →
    s.rd (F.dchFenceState k.val) = 4 → s.rd (F.dchFenceCause k.val) ≠ 5 →
    ∃ t : State, exec (.trainingDone k pass serial spd margin) s = .next t ∧ t.rd (F.dchTrainBusy k.val) = 0 ∧
      t.rd (F.dchFenceState k.val) = (if pass = true ∧ s.moduleOk spd = true then 5 else 7) ∧
      (pass = true → s.moduleOk spd = true → (t.dc k.val).serial = serial.toNat ∧
        t.rd (F.dchTrainMargin k.val) = margin.toNat) ∧
      t.rd (F.dchFenceEn k.val) = s.rd (F.dchFenceEn k.val)) ∧
  (∀ s : State, Running s → s.mem.up = false → s.mem.mapFixed = true →
    16 + 4 * s.maxP ≤ (findAll 32 fun k => s.rd (F.dchFenceState k) == 5).length →
    ∃ t : State, exec .dramServiceStart s = .next t ∧ t.mem.up = true ∧
      ∀ k : Fin 32, t.rd (F.dchFenceState k.val) =
        (if s.rd (F.dchFenceState k.val) = 5 then 0 else s.rd (F.dchFenceState k.val)) ∧
        (s.rd (F.dchFenceState k.val) = 5 → t.rd (F.dchFenceEn k.val) = 0 ∧ t.rd (F.dchFenceCause k.val) = 0)) ∧
  (∀ (s : State) (k : Fin 32) (c : Cmd), Running s → Accepts s (736 + k.val) c →
    (s.rd (F.dchFenceState k.val) = 0 →
      ∃ t : State, exec (.retrain k c) s = .next t ∧ t.rd (F.dchFenceState k.val) = 1 ∧ t.rd (F.dchFenceCause k.val) = 5 ∧
        t.rd (F.dchFenceEn k.val) = 1) ∧
    (s.rd (F.dchFenceState k.val) ≠ 0 →
      ∃ t : State, exec (.retrain k c) s = .next t ∧ t.rd (F.dchFenceState k.val) = s.rd (F.dchFenceState k.val) ∧
        t.rd (F.hdrStateClamped (736 + k.val)) = 1)) ∧
  (∀ (s : State) (k : Fin 32) (pass : Bool) (margin : BitVec 8), Running s → s.rd (F.dchFenceState k.val) = 4 →
    s.rd (F.dchFenceCause k.val) = 5 →
    ∃ t : State, exec (.retrainDone k pass margin) s = .next t ∧ t.rd (F.dchTrainBusy k.val) = 0 ∧
      t.rd (F.dchFenceState k.val) = (if pass = true then 6 else 7) ∧
      t.rd (F.dchFenceEn k.val) = (if pass = true then 0 else s.rd (F.dchFenceEn k.val)))

/-- Positions, refresh, plans and maintenance of a channel. Every position moves its own subchannel on by one; a due refresh counts; a
plan that passes its checks is armed no earlier than 16 beats after the write takes effect, one that fails is refused with the check
and the entry that failed, and an armed plan replaces the active plan whole at a bar boundary from its beat on; double mode follows the
sensor with its hysteresis from the next bar boundary on; calibration and oscillator reads take a free REFRESH position, and a low
margin fences. -/
def Obligations.PositionsPlansAndMaintenance : Prop :=
  (∀ (s : State) (k : Fin 32) (sub : Fin 2) (heads : List OpenHead), Running s → s.mem.up = true →
    (s.dc k.val).pos.length = 2 →
    ∃ t : State, exec (.dramPosition k sub heads) s = .next t ∧ t.posOf k.val sub.val = s.posOf k.val sub.val + 1 ∧
      t.posOf k.val (1 - sub.val) = s.posOf k.val (1 - sub.val)) ∧
  (∀ (s : State) (k : Fin 32) (sub : Fin 2), Running s → s.mem.up = true → s.dchOn k.val sub.val = true →
    (s.dc k.val).pos.length = 2 → planKind (s.nowEntry k.val sub.val) = 2 →
    s.refreshDue k.val (planSet (s.nowEntry k.val sub.val)) (s.posOf k.val sub.val / 64) = true →
    ∃ t : State, exec (.refreshDue k sub) s = .next t ∧
      t.rd (F.dchRefStatRefs k.val) = min (s.rd (F.dchRefStatRefs k.val) + 1) (2 ^ 48 - 1) ∧
      t.posOf k.val sub.val = s.posOf k.val sub.val + 1) ∧
  (∀ (s : State) (k : Fin 32) (c : Cmd), Running s → Accepts s (736 + k.val) c → s.on F.secPartCtlEn = false →
    s.on (F.dchPlanCtlArmed k.val) = false → s.beat + 18 < 2 ^ 64 →
    (s.planCheck k.val s.groupRuns = none →
      ∃ t : State, exec (.planArm k c) s = .next t ∧ t.on (F.dchPlanCtlArmed k.val) = true ∧ t.rd (F.dchPlanCtlStatus k.val) = 0 ∧
        t.rd (F.dchPlanAtBeat k.val) = max (s.rd (F.dchPlanAtBeat k.val)) (s.beat + 18)) ∧
    (∀ code i, s.planCheck k.val s.groupRuns = some (code, i) →
      ∃ t : State, exec (.planArm k c) s = .next t ∧ t.on (F.dchPlanCtlArmed k.val) = false ∧
        t.rd (F.dchPlanCtlStatus k.val) = code ∧ t.rd (F.dchPlanCtlFailPos k.val) = i)) ∧
  (∀ (s : State) (k : Fin 32), Running s → s.on (F.dchPlanCtlArmed k.val) = true → s.rd (F.dchPlanAtBeat k.val) ≤ s.beat →
    s.barEdge k.val = true →
    ∃ t : State, exec (.planTakeover k) s = .next t ∧
      ((∀ b ∈ s.disp.binds, b.1 ≠ k.val) → t.on (F.dchPlanCtlArmed k.val) = false) ∧
      ∀ i : Fin 128, t.planEntry k.val true i.val = s.planEntry k.val false i.val) ∧
  (∀ (s : State) (k : Fin 32) (temp : BitVec 8), Running s →
    ∃ t : State, exec (.doubleModeChange k temp) s = .next t ∧ t.rd (F.dchRefStatTemp k.val) = temp.toNat ∧
      (∀ b, s.posOf k.val 0 ≤ 64 * b → (s.dc k.val).dbl.2 ≤ b → (t.doubleIn k.val b = true ↔
        85 ≤ temp.toNat ∨ s.on (F.dchRefStatForceDouble k.val) = true ∨ ((s.dc k.val).dbl.1 = true ∧ 82 < temp.toNat))) ∧
      (s.posOf k.val 0 % 64 ≠ 0 →
        t.doubleIn k.val (s.posOf k.val 0 / 64) = s.doubleIn k.val (s.posOf k.val 0 / 64))) ∧
  (∀ (s : State) (k : Fin 32), Running s → s.maintPos k.val = true →
    (s.dc k.val).zqBar + 2 ^ 20 ≤ s.posOf k.val 0 / 64 → (s.dc k.val).pos.length = 2 →
    ∃ t : State, exec (.zqCalibration k) s = .next t ∧ (t.dc k.val).zqBar = s.posOf k.val 0 / 64 ∧
      t.posOf k.val 0 = s.posOf k.val 0 + 1 ∧ ∀ d, d ≠ (F.dchRefStatDouble k.val).csa → t.reg d = s.reg d) ∧
  (∀ (s : State) (k : Fin 32) (margin : BitVec 8), Running s → s.maintPos k.val = true →
    (s.dc k.val).oscBar + 4096 ≤ s.posOf k.val 0 / 64 →
    ∃ t : State, exec (.oscillatorUpdate k margin) s = .next t ∧ t.rd (F.dchTrainMargin k.val) = margin.toNat ∧
      (t.dc k.val).oscBar = s.posOf k.val 0 / 64 ∧
      t.rd (F.dchFenceState k.val) = (if margin.toNat < s.rd (F.dchTrainMarginMin k.val) then 1 else 0))

/-- Codes find and mend a failing line. A line that returns with a failing check counts and is logged; an ERASED line that its stripe half
can decode is put right; a parity delta is exclusive-ored into its parity line; the oldest queued half of a die leaves the queue with its
parity lines computed from its data lines. -/
def Obligations.CodesMendLines : Prop :=
  (∀ (s : State) (dpa : BitVec 48) (src : Fin 6) (home : Fin 64) (nd : Line) (nc : BitVec 256) (again : Bool), Running s →
    s.inDram dpa.toNat = true → s.lineServed dpa.toNat = true → s.synd dpa.toNat = 0 →
    dataCheck nd ^^^ nc ≠ 0 → dataCheck nd ^^^ nc ≠ poisonSynd →
    ∃ t : State, exec (.dchReadReturn dpa src home nd nc again) s = .next t ∧
      t.rd (F.dchElogCtlHead (chanOf dpa.toNat)) = (s.rd (F.dchElogCtlHead (chanOf dpa.toNat)) + 1) % 32 ∧
      t.rd (F.dchErrLines (chanOf dpa.toNat)) = satInc (s.rd (F.dchErrLines (chanOf dpa.toNat))) 32) ∧
  (∀ (s : State) (dpa : BitVec 48) (home : Fin 64) (d : Line), Running s → s.inDram dpa.toNat = true →
    s.lineServed dpa.toNat = true → 0 < zoneP (s.zone dpa.toNat) → s.synd dpa.toNat ≠ 0 → s.synd dpa.toNat ≠ poisonSynd →
    s.rebuiltLine dpa.toNat = some (d, false) →
    ∃ t : State, exec (.reconstruction dpa home) s = .next t ∧ t.storedLine dpa.toNat = d ∧ t.synd dpa.toNat = 0) ∧
  (∀ (s : State) (half : BitVec 37) (j : Fin 4) (delta : Line) (home : Fin 64), Running s →
    j.val < zoneP (s.zone (halfLine half.toNat 0)) → halfLine half.toNat 0 < s.dramTop →
    s.parityServed half.toNat j.val = true →
    ∃ t : State, exec (.parityDelta half j delta home) s = .next t ∧
      t.parityLine half.toNat j.val = s.parityLine half.toNat j.val ^^^ delta ∧ t.mem.dram = s.mem.dram) ∧
  (∀ (s : State) (die : Fin 2) (home : Fin 64) (e : Nat × Bool × List (Nat × Line × Bool)), Running s →
    s.mem.recompute.find? (fun x => s.queueDie x.1 == die.val) = some e → NoneHeld s (32 + die.val) →
    ∃ t : State, exec (.recompute die home) s = .next t ∧
      t.mem.recompute = s.mem.recompute.filter (fun x => decide (x.1 ≠ e.1)) ∧ t.mem.dram = s.mem.dram ∧
      ∀ j, j < zoneP (s.zone (halfLine e.1 0)) → s.parityServed e.1 j = true →
        t.parityLine e.1 j = parityOf (zoneP (s.zone (halfLine e.1 0))) j
          ((List.range 16).map fun c => ((s.halfData e.1 c).getD (0#1024, true)).1))

/-- The brushes walk, correct and zero. A walk read of a sound line moves the walk on, and one that finds a line failing notes it to be
read once more; a correction leaves the queue once no transaction of its line is open, and puts an ERASED line that its half can
decode right; a frame inside DRAM is queued for zeroing and one outside is discarded and recorded; a zeroed frame reads zero in
every byte and every other byte stays. -/
def Obligations.BrushesWalkCorrectAndZero : Prop :=
  (∀ (s : State) (k : Fin 32) (sub : Fin 2) (w : Nat), Running s →
    s.on (F.hdrStateInreset (850 + k.val / 16)) = false → s.on (F.brushCtlEn (k.val / 16)) = true →
    s.rd (F.dchFenceState k.val) = 0 → (∀ a ∈ (s.dc k.val).again, a.1 ≠ sub.val) → (s.dc k.val).walk.length = 2 →
    (s.dc k.val).walk.getD sub.val 0 = w → w + 1 < s.linesPerSub →
    (w < s.rd F.dchMapTop * 2 ^ 17 → s.synd (dpaOfPlace k.val sub.val w) = 0) →
    ∃ t : State, exec (.brushWalkRead k sub) s = .next t ∧ (t.dc k.val).walk.getD sub.val 0 = w + 1 ∧ t.mem = s.mem) ∧
  (∀ (s : State) (k : Fin 32) (sub : Fin 2) (w : Nat), Running s →
    s.on (F.hdrStateInreset (850 + k.val / 16)) = false → s.on (F.brushCtlEn (k.val / 16)) = true →
    s.rd (F.dchFenceState k.val) = 0 → (∀ a ∈ (s.dc k.val).again, a.1 ≠ sub.val) → (s.dc k.val).walk.length = 2 →
    (s.dc k.val).walk.getD sub.val 0 = w → w + 1 < s.linesPerSub → w < s.rd F.dchMapTop * 2 ^ 17 →
    s.synd (dpaOfPlace k.val sub.val w) ≠ 0 → s.synd (dpaOfPlace k.val sub.val w) ≠ poisonSynd →
    ∃ t : State, exec (.brushWalkRead k sub) s = .next t ∧ (t.dc k.val).walk.getD sub.val 0 = w + 1 ∧
      (sub.val, w) ∈ (t.dc k.val).again ∧ t.mem = s.mem) ∧
  (∀ (s : State) (dpa : BitVec 48) (home : Fin 64), Running s → dpa.toNat ∈ s.mem.corrections →
    (∀ x ∈ s.homes.txns, x.dpa ≠ dpa.toNat) →
    ∃ t : State, exec (.brushCorrection dpa home) s = .next t ∧ t.mem.corrections = s.mem.corrections.erase dpa.toNat ∧
      ∀ d, s.lineServed dpa.toNat = true → 0 < zoneP (s.zone dpa.toNat) → s.synd dpa.toNat ≠ 0 →
        s.synd dpa.toNat ≠ poisonSynd → dpa.toNat % 128 = 0 → s.rebuiltLine dpa.toNat = some (d, false) →
        t.storedLine dpa.toNat = d ∧ t.synd dpa.toNat = 0) ∧
  (∀ (s : State) (d : Fin 2) (frame : BitVec 32) (c : Cmd), Running s → Accepts s (850 + d.val) c →
    (frame.toNat * 65536 + 65536 ≤ s.dramTop →
      ∃ t : State, exec (.zeroFrame d frame c) s = .next t ∧ t.zeroq = s.zeroq ++ [⟨frame.toNat, some d.val⟩] ∧ t.mem = s.mem) ∧
    (s.dramTop < frame.toNat * 65536 + 65536 →
      ∃ t : State, exec (.zeroFrame d frame c) s = .next t ∧ t.zeroq = s.zeroq ∧ t.rd (F.hdrStateClamped (850 + d.val)) = 1)) ∧
  (∀ (s : State) (z : ZeroJob) (rest : List ZeroJob), Running s → s.on (F.hdrStateInreset 850) = false →
    s.on (F.hdrStateInreset 851) = false → s.zeroq = z :: rest →
    ∃ t : State, exec .zeroComplete s = .next t ∧ t.zeroq = rest ∧
      (∀ a, z.frame * 65536 ≤ a → a < z.frame * 65536 + 65536 → memByte t.mem.dram a = 0) ∧
      (∀ a, a < z.frame * 65536 ∨ z.frame * 65536 + 65536 ≤ a → memByte t.mem.dram a = memByte s.mem.dram a))

/-- Home slices fail to their buddy, return through a self-test, and a fatal error halts. A faulty slice whose buddy serves is
FAILED, its range is served by the buddy and an event of class 6 is raised; without a serving buddy the T7 halts; RETURN starts
the test in FAILED only; a passed test hands the range back once no transaction is open.  A fatal error sets HALTED, records its
block and beat, mutes every lane and stops every instance. -/
def Obligations.HomeFaultsAndFatalErrors : Prop :=
  (∀ (s : State) (home : Fin 64), Running s → s.rd (F.homeHavlState home.val) = 0 → s.homeDown (buddy home.val) = false →
    ∃ t : State, exec (.homeSliceFault home) s = .next t ∧ t.rd (F.homeHavlState home.val) = 1 ∧
      t.rd (F.homeHavlCause home.val) = 2 ∧ t.rd (F.homeHavlServer home.val) = buddy home.val ∧
      (⟨s.beat, 6, 672 + home.val, none⟩ : Event) ∈ t.events) ∧
  (∀ (s : State) (home : Fin 64), Running s → s.rd (F.homeHavlState home.val) = 0 → s.homeDown (buddy home.val) = true →
    ∃ t : State, exec (.homeSliceFault home) s = .next t ∧ t.halted = true) ∧
  (∀ (s : State) (home : Fin 64) (c : Cmd), Running s → Accepts s (672 + home.val) c →
    (s.rd (F.homeHavlState home.val) = 0 ∧ s.homeDown (buddy home.val) = false ∨ s.rd (F.homeHavlState home.val) = 1) →
    ∃ t : State, exec (.havlFail home c) s = .next t ∧ t.rd (F.homeHavlState home.val) = 1 ∧
      t.rd (F.homeHavlCause home.val) = 1 ∧ (⟨s.beat, 6, 672 + home.val, none⟩ : Event) ∈ t.events) ∧
  (∀ (s : State) (home : Fin 64) (c : Cmd), Running s → Accepts s (672 + home.val) c →
    ∃ t : State, exec (.havlReturn home c) s = .next t ∧ t.rd (F.homeHavlState home.val) =
        (if s.rd (F.homeHavlState home.val) = 1 then 2 else s.rd (F.homeHavlState home.val)) ∧
      (s.rd (F.homeHavlState home.val) ≠ 1 → t.rd (F.hdrStateClamped (672 + home.val)) = 1)) ∧
  (∀ (s : State) (home : Fin 64) (pass : Bool), Running s → s.rd (F.homeHavlState home.val) = 2 →
    ∃ t : State, exec (.homeSelfTestDone home pass) s = .next t ∧
      t.rd (F.homeHavlState home.val) = (if pass = true then 3 else 1) ∧
      (pass = false → t.rd (F.homeHavlCause home.val) = 3)) ∧
  (∀ (s : State) (home : Fin 64), Running s → s.rd (F.homeHavlState home.val) = 3 →
    (∀ x ∈ s.homes.txns, x.home ≠ home.val) → s.homes.pendq = [] → s.homes.chain = [] → s.homes.jobs = [] →
    s.mir.readHeld = [] → s.disp.descs = [] →
    ∃ t : State, exec (.homeHandback home) s = .next t ∧ t.rd (F.homeHavlState home.val) = 0 ∧
      t.rd (F.homeHavlServer home.val) = home.val) ∧
  (∀ (s : State) (blk : Fin 863), Running s →
    ∃ t : State, exec (.fatalError blk) s = .next t ∧ t.halted = true ∧ t.rd F.rstCauseFblk = blk.val ∧
      t.rd F.rstCauseFbeat = s.beat % 2 ^ 32 ∧ t.disp.insts = [] ∧ t.events = s.events ++ [⟨s.beat, 3, blk.val, none⟩] ∧
      t.mem = s.mem ∧ ∀ p : Fin 64, t.rd (F.fportLstatTxmask p.val) = 0)

/-- The claim moves from processor to processor. Disagreeing members of the pair freeze; a standby that asks gets the claim plus
one and the old holder stands by; a checkpoint that is due, or that a log more than half full calls for, empties the log below it;
cupping decides whether a standby is READY, which it reads only while the newest checkpoint is recent; ROTATE needs every standby
READY; processors reload only as the claim allows; a late watchdog freezes the holder; a new holder issues the log entries above the
checkpoint again, here one write of an event mask. -/
def Obligations.ClaimAndWatchdog : Prop :=
  (∀ (s : State) (a b : List Byte), Running s → s.role 0 = 1 → s.role 1 = 1 → crc64 a ≠ crc64 b →
    ∃ t : State, exec (.pairMismatch a b) s = .next t ∧ t.role 0 = 4 ∧ t.role 1 = 4 ∧
      t.events = s.events ++ [⟨s.beat, 9, 860, some 19⟩]) ∧
  (∀ (s : State) (cp : Fin 3) (agree : Bool), Running s → s.role cp.val = 3 → s.rd (F.cpCupState cp.val) ≠ 3 →
    (cp.val = 2 ∨ s.role 0 ≠ 3 ∨ s.role 1 ≠ 3) →
    ∃ t : State, exec (.claimGrant cp agree) s = .next t ∧ t.rd F.cpTrioClaim = (s.rd F.cpTrioClaim + 1) % 2 ^ 32 ∧
      t.role cp.val = 2 ∧ (∀ n ∈ s.holders', t.role n = 3) ∧ t.cpx.replay = true ∧
      t.events = s.events ++ [⟨s.beat, 2, 860, none⟩]) ∧
  (∀ (s : State) (cp : Fin 3), Running s → cp.val < 2 → s.role 0 = 3 → s.role 1 = 3 → s.rd (F.cpCupState 0) ≠ 3 →
    s.rd (F.cpCupState 1) ≠ 3 →
    ∃ t : State, exec (.claimGrant cp true) s = .next t ∧ t.rd F.cpTrioClaim = (s.rd F.cpTrioClaim + 1) % 2 ^ 32 ∧
      t.role 0 = 1 ∧ t.role 1 = 1) ∧
  (∀ s : State, Running s → s.rd F.cpCkptBase ≠ 0 → s.holders' ≠ [] → s.cpx.ckpts.length = 2 →
    ((∀ x ∈ s.newestCkpt, x.beat + 31250 ≤ s.beat) ∨ 2048 < s.cpx.log.length) →
    ∃ (t : State) (x : Ckpt), exec .checkpoint s = .next t ∧ t.newestCkpt = some x ∧ x.beat = s.beat ∧ t.cpx.log = [] ∧
      ∀ e ∈ s.cpx.log, e.seq ≤ x.seq) ∧
  (∀ (s : State) (cp : Fin 3) (fails : BitVec 4), Running s → s.role cp.val = 3 →
    ∃ t : State, exec (.cuppingCycle cp fails) s = .next t ∧ t.role cp.val = 3 ∧
      t.cupState cp.val = (if fails = 0 then (if s.ckptFresh = true then 2 else 1) else 3)) ∧
  (∀ (s : State) (c : Cmd), Running s → Accepts s 854 c → s.standbys ≠ [] → s.holders' ≠ [] →
    (∀ n ∈ s.standbys, s.cupState n = 2) →
    ∃ t : State, exec (.rotate c) s = .next t ∧ t.rd F.cpTrioClaim = (s.rd F.cpTrioClaim + 1) % 2 ^ 32 ∧
      (∀ n ∈ s.holders', t.role n = 3) ∧ (∀ n ∈ s.standbys, n ∈ t.holders')) ∧
  (∀ (s : State) (c : Cmd) (n : Nat), Running s → Accepts s 854 c → s.standbys = [n] →
    ∃ t : State, exec (.stbyReload c) s = .next t ∧ t.role n = 6) ∧
  (∀ (s : State) (c : Cmd), Running s → Accepts s 854 c → (∀ n ∈ s.holders', n = 2) →
    ∃ t : State, exec (.pairReload c) s = .next t ∧ t.role 0 = 6 ∧ t.role 1 = 6 ∧ t.role 2 = s.role 2) ∧
  (∀ (s : State) (c : Cmd) (n : Nat), Running s → Accepts s 854 c → n ∈ s.holders' → n < 2 →
    ∃ t : State, exec (.pairReload c) s = .next t ∧ t.role 0 = s.role 0 ∧ t.role 1 = s.role 1 ∧
      t.rd (F.hdrStateClamped 854) = 1) ∧
  (∀ (s : State) (cp : Fin 3) (pass : Bool), Running s → s.role cp.val = 6 →
    ∃ t : State, exec (.reloadSelfTestDone cp pass) s = .next t ∧ t.role cp.val = (if pass = true then 3 else 5)) ∧
  (∀ (s : State) (c : Cmd), Running s → Accepts s 860 c →
    ∃ t : State, exec (.wdogKick c) s = .next t ∧ t.cpx.wdogSince = s.beat) ∧
  (∀ s : State, Running s → s.holders' ≠ [] → s.cpx.wdogSince + s.rd F.rstWdogLimit * 31250 ≤ s.beat →
    ∃ t : State, exec .wdogExpiry s = .next t ∧ (∀ n ∈ s.holders', t.role n = 4) ∧
      (⟨s.beat, 9, 860, none⟩ : Event) ∈ t.events) ∧
  (∀ (s : State) (ok : BitVec 2), Running s → s.cpx.replay = true → s.disp.descs = [] →
    (∀ e ∈ s.cpx.log, e.seq ≤ ((s.usableCkpt ok).map (·.seq)).getD 0) →
    ∃ t : State, exec (.takeover ok) s = .next t ∧ t.cpx.replay = false ∧ t.cpx.log = s.cpx.log ∧ t.mem = s.mem) ∧
  (∀ (s : State) (ok : BitVec 2) (e : LogEntry) (w : Nat), Running s → s.cpx.replay = true → s.disp.descs = [] →
    s.cpx.log.filter (fun e => decide (((s.usableCkpt ok).map (·.seq)).getD 0 < e.seq)) = [e] → w < 863 →
    e.csa = w * 0x100000 + 0xE18 → e.value < 2 ^ 64 → e.seq < 2 ^ 48 →
    Accepts s w ⟨BitVec.ofNat 32 (s.rd F.cpTrioClaim), BitVec.ofNat 48 e.seq, BitVec.ofNat 2 s.writerCode⟩ →
    ∃ t : State, exec (.takeover ok) s = .next t ∧ t.cpx.replay = false ∧ t.rd (F.hdrEvtEnEn w) = e.value ∧
      t.rd (F.hdrSeqSeq w) = e.seq ∧ t.mem = s.mem)

/-- Resets clear the machine and say why. Each reset records its LAST code; a cold or warm reset clears device memory and the queues
and keeps the beat, the claim number and the command log; the power-on reset also clears the beat, and it and a cold reset read the
strap, whose faulty readings stand for band 13. -/
def Obligations.ResetsClearAndRecord : Prop :=
  (∀ (s : State) (v : BitVec 256), ∃ t : State, exec (.powerOnReset v) s = .next t ∧ t.beat = 0 ∧ t.mem = State.reset.mem ∧
    t.homes = State.reset.homes ∧ t.tiles = State.reset.tiles ∧ t.halted = false ∧ t.rst.porHeld = false ∧
    t.rd F.rstCauseLast = 1 ∧ t.rd F.rstStrapBand = (if strapCode v = 0 ∨ 17 ≤ strapCode v then 13 else strapCode v - 1)) ∧
  (∀ s : State, exec .vaonLoss s = .next { s with rst := { s.rst with porHeld := true } }) ∧
  (∀ (s : State) (v : BitVec 256), s.rst.porHeld = false →
    ∃ t : State, exec (.coldResetPin v) s = .next t ∧
      t.rd F.rstStrapBand = (if strapCode v = 0 ∨ 17 ≤ strapCode v then 13 else strapCode v - 1) ∧ t.beat = s.beat ∧ t.rd F.rstCauseLast = 2 ∧ t.mem = State.reset.mem ∧
      t.homes = State.reset.homes ∧ t.cpx.log = s.cpx.log ∧ t.rd F.cpTrioClaim = s.rd F.cpTrioClaim ∧ t.halted = false ∧
      t.pwr.resetN = false) ∧
  (∀ (s : State) (v : BitVec 256) (b : Nat), s.rst.porHeld = false → s.pwr.railHalt = some b → b + 31250 ≤ s.beat →
    ∃ t : State, exec (.coldResetRail v) s = .next t ∧ t.rd F.rstCauseLast = 3 ∧ t.mem = State.reset.mem ∧ t.halted = false ∧
      t.homes = State.reset.homes ∧ t.beat = s.beat ∧ t.cpx.log = s.cpx.log ∧ t.rd F.cpTrioClaim = s.rd F.cpTrioClaim ∧
      t.pwr.railHold = true) ∧
  (∀ (s : State) (c : Cmd), s.rst.porHeld = false → Accepts s 860 c →
    ∃ t : State, exec (.warm c) s = .next t ∧ t.beat = s.beat ∧ t.rd F.rstCauseLast = 4 ∧ t.mem = State.reset.mem ∧
      t.tiles = State.reset.tiles ∧ t.homes = State.reset.homes ∧ t.rd F.cpTrioClaim = s.rd F.cpTrioClaim ∧
      (∀ e ∈ s.cpx.log, s.cpx.log.length < 4096 → e ∈ t.cpx.log) ∧ t.rst.resetting = some 4)

/-- The end of a reset gives the pair a new claim, and older claims are refused. RESET_END raises the claim number by one and makes CP0
and CP1 the PAIR; a control-space write that still carries the claim number from before is then refused by the clapper of every
block: no register changes but those of the clamp report and the fill level of the command log. -/
def Obligations.ResetEndGrantsTheClaim : Prop :=
  ∀ (s : State) (last : Nat), Running s → s.rst.resetting = some last → NothingResumes s →
    (last = 3 → s.pwr.railsOut = [] ∧ s.pwr.railsOkSince + 312500 ≤ s.beat) →
    ∃ t : State, exec .resetEnd s = .next t ∧ t.rst.resetting = none ∧ t.rd F.cpTrioClaim = (s.rd F.cpTrioClaim + 1) % 2 ^ 32 ∧
      t.role 0 = 1 ∧ t.role 1 = 1 ∧
      ∀ (csa : BitVec 32) (value : BitVec 64) (c : Cmd), csa.toNat % 8 = 0 → csa.toNat / 0x100000 < 863 →
        c.claim.toNat = s.rd F.cpTrioClaim → s.rd (F.hdrSeqSeq (csa.toNat / 0x100000)) < c.seq.toNat →
        s.on (F.hdrStateInreset (csa.toNat / 0x100000)) = false →
        ∃ u : State, exec (.configWrite csa value c) t = .next u ∧ u.rd (F.hdrStateClamped (csa.toNat / 0x100000)) = 1 ∧
          ∀ d, d / 0x100000 ≠ 860 → d ≠ (F.hdrStateClamps (csa.toNat / 0x100000)).csa → d ≠ F.cpCkptLogfill.csa →
            u.reg d = t.reg d

/-- A restart is a warm reset with LAST code 5, one millisecond after the halt at the earliest. RESTART written in the halt restarts at
once when the first millisecond is over and otherwise waits for it; AUTO restarts AUTO times 10 ms after the halt began; the
restart clears what a warm reset clears, keeps the beat and the claim number, and ends the halt. -/
def Obligations.RestartLeavesTheHalt : Prop :=
  (∀ (s : State) (c : Cmd) (b : Nat), s.rst.porHeld = false → Accepts s 860 c → s.halted = true → s.rst.haltAt = some b →
    (b + 31250 ≤ s.beat →
      ∃ t : State, exec (.restart c) s = .next t ∧ t.halted = false ∧ t.rd F.rstCauseLast = 5 ∧ t.rst.resetting = some 5 ∧
        t.mem = State.reset.mem ∧ t.tiles = State.reset.tiles ∧ t.beat = s.beat ∧
        t.rd F.cpTrioClaim = s.rd F.cpTrioClaim) ∧
    (s.beat < b + 31250 →
      ∃ t : State, exec (.restart c) s = .next t ∧ t.halted = true ∧ t.rst.restart = true ∧ t.mem = s.mem)) ∧
  (∀ (s : State) (b : Nat), s.rst.porHeld = false → s.halted = true → s.rst.haltAt = some b →
    ((s.rst.restart = true ∧ b + 31250 ≤ s.beat) ∨
      (s.rd F.rstCtlAuto ≠ 0 ∧ b + s.rd F.rstCtlAuto * 312500 ≤ s.beat)) →
    ∃ t : State, exec .autoRestart s = .next t ∧ t.halted = false ∧ t.rd F.rstCauseLast = 5 ∧ t.rst.resetting = some 5 ∧
      t.mem = State.reset.mem ∧ t.beat = s.beat ∧ t.rd F.cpTrioClaim = s.rd F.cpTrioClaim) ∧
  (∀ (s : State) (b : Nat), s.rst.porHeld = false → s.halted = true → s.rst.haltAt = some b → s.beat < b + 31250 →
    exec .autoRestart s = .next s)

/-- Start-up advances stage by stage, and one block can be reset alone. A stage ends only when what it waits for is there; in stage 2
PWR sets the regulator's transition rate and commands the voltage; with no good image in either slot the T7 stays in stage 3 with FAIL
set; OK confirms the boot, and an unconfirmed one resets to the other slot; a block reset runs from GO through the idle condition to its
end, and is refused for a block that may not be reset. -/
def Obligations.StartUpAndBlockResets : Prop :=
  (∀ (s : State) (tiles : List (Fin 672)), Running s → s.rd F.rstCtlStage = 2 →
    (∃ t : State, exec (.stageAdvance [] tiles) s = .next t ∧ t.rd F.rstCtlStage = 3) ∧
    (∀ (i : Fin 100) (l : List (Fin 100)), ∃ t : State, exec (.stageAdvance (i :: l) tiles) s = .next t ∧ t.halted = true)) ∧
  (∀ (s : State) (islands : List (Fin 100)) (tiles : List (Fin 672)), Running s → s.rd F.rstCtlStage = 1 →
    s.rst.resetting = none → s.pwr.railsOut = [] →
    ∃ t : State, exec (.stageAdvance islands tiles) s = .next t ∧ t.rd F.rstCtlStage = 2 ∧ t.pwr.vrate = 10 ∧
      t.pwr.vcmd = s.pwr.vstep.getD (s.rd F.pwrFstepCtlCur) 750) ∧
  (∀ (s : State) (islands : List (Fin 100)) (tiles : List (Fin 672)), Running s → s.rd F.rstCtlStage = 3 →
    s.imageOk (s.slotImage 0) = false → s.imageOk (s.slotImage 1) = false →
    ∃ t : State, exec (.stageAdvance islands tiles) s = .next t ∧ t.rd F.rstCtlStage = 3 ∧ t.rd F.rstBootFail = 1) ∧
  (∀ (s : State) (islands : List (Fin 100)) (tiles : List (Fin 672)), Running s → s.rd F.rstCtlStage = 4 →
    ∃ t : State, exec (.stageAdvance islands tiles) s = .next t ∧ t.rd F.rstCtlStage = (if s.mem.up = true then 5 else 4)) ∧
  (∀ (s : State) (c : Cmd), Running s → Accepts s 860 c →
    ∃ t : State, exec (.bootOk c) s = .next t ∧ t.rd F.rstBootConfirmed = 1 ∧ t.rd F.rstBootUnconf = 0 ∧ t.rst.bootTimer = none) ∧
  (∀ (s : State) (b : Nat), Running s → s.rst.bootTimer = some b → s.on F.rstBootFail = false → b + s.rd F.rstBootTmo * 31250000 ≤ s.beat →
    ∃ t : State, exec .bootConfirmExpiry s = .next t ∧ t.rd F.rstCauseLast = 6 ∧ t.rd F.rstBootNext = 2 + (1 - s.rd F.rstBootUsed) ∧
      (1 ≤ s.rd F.rstBootUnconf → t.rd F.rstBootFail = 1)) ∧
  (∀ (s : State) (target : BitVec 10) (c : Cmd), Running s → Accepts s 860 c → s.rst.blk = none →
    ∃ t : State, exec (.blockReset target c) s = .next t ∧
      (s.blkAllowed target.toNat = true → t.rd F.rstBlkState = 1 ∧ t.on (F.hdrStateInreset target.toNat) = true ∧
        t.rst.blk = some (target.toNat, s.beat)) ∧
      (s.blkAllowed target.toNat = false → t.rd F.rstBlkState = 4 ∧ t.rst.blk = none ∧
        t.rd (F.hdrStateClamped 860) = 1)) ∧
  (∀ (s : State) (b at_ : Nat), Running s → s.rst.blk = some (b, at_) → s.rst.blkIn = none →
    (s.blkIdle b = true ∨ at_ + s.rd F.rstBlkTmo ≤ s.beat) →
    ∃ t : State, exec .blockResetEnter s = .next t ∧ t.rd F.rstBlkState = 2 ∧ t.rst.blkIn = some s.beat ∧
      t.rd F.rstBlkForced = (if s.blkIdle b = true then 0 else 1)) ∧
  (∀ (s : State) (b at_ i : Nat), Running s → s.rst.blk = some (b, at_) → s.rst.blkIn = some i → i + 16 ≤ s.beat →
    s.rst.held = [] → s.disp.descs = [] →
    ∃ t : State, exec .blockResetEnd s = .next t ∧ t.rd F.rstBlkState = 3 ∧ t.on (F.hdrStateInreset b) = false ∧
      t.rst.blk = none ∧ (⟨s.beat, 9, 860, none⟩ : Event) ∈ t.events)

/-- What hangs is ended. A job whose instance has waited, gated or run a dynamic phase beyond its limit is killed and its tiles are to
be dumped; a home transaction open beyond its limit is reported; a channel stalled beyond its limit disables its port for a
millisecond; captured jobs leave the list of dumps, and FREE empties the dump slots. -/
def Obligations.HangsAreEnded : Prop :=
  (∀ (s : State) (i : BitVec 12) (x : Inst), Running s → s.inst? i.toNat = some x → x.state = 0 →
    x.accBeat + s.rd F.rstHangWaitTmo * 31250 ≤ s.beat →
    ∃ t : State, exec (.waitHang i) s = .next t ∧ (⟨s.beat, 9, 862, none⟩ : Event) ∈ t.events ∧
      ∃ d ∈ t.disp.dumps, d.tenant = x.tenant ∧ d.job = x.job) ∧
  (∀ (s : State) (i : BitVec 12) (x : Inst) (p : Placement), Running s → s.inst? i.toNat = some x →
    x.place.bind s.place? = some p → x.state = 1 → x.ends = true →
    ((p.phase x.phase).kind ≠ 1 ∨ s.coresEnded p = true) →
    x.bodyAt = none → x.since + s.rd F.rstHangGateTmo * 31250 ≤ s.beat →
    ∃ t : State, exec (.gateHang i) s = .next t ∧ ∃ d ∈ t.disp.dumps, d.tenant = x.tenant ∧ d.job = x.job) ∧
  (∀ (s : State) (i : BitVec 12) (x : Inst) (p : Placement), Running s → s.inst? i.toNat = some x →
    x.place.bind s.place? = some p → x.state = 1 → x.ends = true → (p.phase x.phase).kind = 1 →
    (∀ e ∈ p.sites, ∀ u, s.server e.1 = some u → ∀ k ∈ e.2, (s.core (128 * u + k)).ended = false) →
    x.since + s.rd F.rstHangPhaseTmo * 31250 ≤ s.beat →
    ∃ t : State, exec (.phaseHang i) s = .next t ∧ ∃ d ∈ t.disp.dumps, d.tenant = x.tenant ∧ d.job = x.job) ∧
  (∀ (s : State) (home : Fin 64) (entry : BitVec 10) (x : Txn), Running s → s.disp.descs = [] →
    s.homes.txns.find? (fun t => t.home == home.val && t.idx == entry.toNat) = some x →
    (x.stage = .snoop ∨ x.stage = .ack) → x.opened + s.rd F.rstHangHomeTmo * 1024 ≤ s.beat →
    ∃ t : State, exec (.homeTransactionHang home entry) s = .next t ∧ (⟨s.beat, 6, 672 + home.val, none⟩ : Event) ∈ t.events ∧
      (⟨s.beat, 9, 672 + home.val, none⟩ : Event) ∈ t.events) ∧
  (∀ (s : State) (port : Fin 64) (b : Nat), Running s → s.lstate port.val = 3 → some b ∈ (s.link port.val).stalled →
    b + s.rd F.rstHangLinkTmo * 3125 ≤ s.beat →
    ∃ t : State, exec (.linkHang port) s = .next t ∧ t.rd (F.fportLctlDisable port.val) = 1 ∧ t.lstate port.val = 0 ∧
      (t.link port.val).hungAt = some s.beat) ∧
  (∀ (s : State) (port : Fin 64) (b : Nat), Running s → (s.link port.val).hungAt = some b → b + 31250 ≤ s.beat →
    ∃ t : State, exec (.hungLinkReenable port) s = .next t ∧ t.rd (F.fportLctlDisable port.val) = 0 ∧
      (t.link port.val).hungAt = none) ∧
  (∀ (s : State) (tenant : BitVec 8) (job : BitVec 16) (d : Dump), Running s →
    s.disp.dumps.find? (fun d => d.tenant == tenant.toNat && d.job == job.toNat) = some d →
    (∀ x ∈ s.jobInsts tenant.toNat job.toNat, x.state ≠ 1) →
    ∃ t : State, exec (.dumpCaptureComplete tenant job) s = .next t ∧ d ∉ t.disp.dumps) ∧
  (∀ (s : State) (c : Cmd), Running s → Accepts s 860 c →
    ∃ t : State, exec (.dumpFree c) s = .next t ∧ t.rst.dumpUsed = [] ∧ t.rd F.rstDumpUsed = 0)

/-- Regions become active and inactive as RGN_CMD says, and XLT_INV drops cached translations. ACTIVATE ends with the STATUS of
the first failing check of Table ADR-4 and activates the region with the words of its record where none fails; an active region is
never activated again; DEACTIVATE of an inactive region is refused with status 9; XLT_INV drops the matching entries and walk pointers everywhere and
is DONE once no open access used one. -/
def Obligations.RegionsAndTranslations : Prop :=
  (∀ (s : State) (region : BitVec 16) (c : Cmd) (l m : LcLine), Running s → Accepts s 672 c → s.on F.secPartCtlEn = false →
    s.on F.homeRgnCmdBusy = false → s.rd F.homeXltBaseSpt ≠ 0 → InCache s (s.rgnDpa region.toNat / 128 * 128) l →
    l.poison = false →
    InCache s ((s.rd F.homeXltBaseSpt * 0x10000 + (rgnOf 0 (s.rgnRecord region.toNat).1).space * 16) / 128 * 128) m →
    m.poison = false →
    ∃ t : State, exec (.rgnActivate region c) s = .next t ∧ t.rd F.homeRgnCmdBusy = 0 ∧
      t.rd F.homeRgnCmdStatus = s.activateCheck (rgnOf region.toNat (s.rgnRecord region.toNat).1)
        (s.spaceEnt (rgnOf 0 (s.rgnRecord region.toNat).1).space 0).1 ∧
      (t.rd F.homeRgnCmdStatus = 0 →
        t.rgn? region.toNat = some (rgnOf region.toNat (s.rgnStart (s.rgnRecord region.toNat).1))) ∧
      (t.rd F.homeRgnCmdStatus ≠ 0 → t.homes.regions = s.homes.regions ∧ t.rd (F.hdrStateClamped 672) = 1)) ∧
  (∀ (s : State) (region : BitVec 16) (c : Cmd), Running s → Accepts s 672 c → (s.rgn? region.toNat).isSome = true →
    ∃ t : State, exec (.rgnActivate region c) s = .next t ∧ t.homes.regions = s.homes.regions) ∧
  (∀ (s : State) (region : BitVec 16) (c : Cmd), Running s → Accepts s 672 c → s.on F.secPartCtlEn = false →
    s.on F.homeRgnCmdBusy = false → s.rgn? region.toNat = none →
    ∃ t : State, exec (.rgnDeactivate region c) s = .next t ∧ t.rd F.homeRgnCmdStatus = 9 ∧ t.homes = s.homes ∧ t.mem = s.mem ∧
      t.rd (F.hdrStateClamped 672) = 1) ∧
  (∀ (s : State) (region : BitVec 16) (c : Cmd) (g : Rgn), Running s → Accepts s 672 c → s.on F.secPartCtlEn = false →
    s.on F.homeRgnCmdBusy = false → s.rgn? region.toNat = some g → Quiet s → s.homes.filter = [] → s.homes.lc = [] →
    s.homes.faults = [] → s.homes.faultWait = [] → s.homes.recs = [] → s.pub.stagings = [] → s.pub.copies = [] →
    s.pub.commits = [] → s.pub.olds = [] → s.pub.pins = [] → s.flash.moves = [] → s.disp.insts = [] →
    ∃ t : State, exec (.rgnDeactivate region c) s = .next t ∧ t.rd F.homeRgnCmdStatus = 0 ∧ t.rd F.homeRgnCmdBusy = 0 ∧
      t.rgn? region.toNat = none ∧ ∀ id, id ≠ region.toNat → t.rgn? id = s.rgn? id) ∧
  (∀ (s : State) (space : BitVec 10) (all : Bool) (base : BitVec 32) (count : BitVec 16) (c : Cmd), Running s →
    Accepts s 672 c → s.on F.homeXltInvBusy = false → (∀ x ∈ s.homes.tlb, x.lock = none) →
    ∃ t : State, exec (.xltInv space all base count c) s = .next t ∧ t.rd F.homeXltInvBusy = 1 ∧ t.rd F.homeXltInvDone = 0 ∧
      t.homes.tlb = s.homes.tlb.filter (fun x => !(x.space == space.toNat &&
        (all || pageMeets x.page x.bits base.toNat count.toNat))) ∧
      t.homes.wcache = s.homes.wcache.filter (fun x => !(x.space == space.toNat &&
        (all || pageMeets x.index (levelBits x.level) base.toNat count.toNat))) ∧
      t.homes.xltAt = s.beat ∧ t.homes.txns = s.homes.txns ∧ t.mem = s.mem) ∧
  (∀ (s : State) (space : BitVec 10) (all : Bool) (base : BitVec 32) (count : BitVec 16) (c : Cmd), Running s →
    Accepts s 672 c → s.on F.homeXltInvBusy = true →
    ∃ t : State, exec (.xltInv space all base count c) s = .next t ∧ t.homes = s.homes ∧ t.rd (F.hdrStateClamped 672) = 1) ∧
  (∀ s : State, Running s → s.on F.homeXltInvBusy = true →
    (∀ x ∈ s.homes.txns, x.req.op < 0x200 → x.opened ≤ s.homes.xltAt → s.invCovers x.line = false) → s.pub.copies = [] →
    s.peers = [] → (∀ g ∈ s.rgns, g.tier = 2 → g.space ≠ s.rd F.homeXltInvSpace) →
    exec .xltInvDone s = .next ((s.wr F.homeXltInvBusy 0).wr F.homeXltInvDone 1)) ∧
  (∀ (s : State) (x : Txn), Running s → x ∈ s.homes.txns → x.req.op < 0x200 → x.opened ≤ s.homes.xltAt →
    s.invCovers x.line = true → exec .xltInvDone s = .next s)

/-- A packet passes ingress stage by stage, and leases open, renew and end. A malformed packet is counted and dropped with an
event; a frozen host's request queues, or is dropped and counted where the queue of its port is full; a request without a lease is
answered NO_LEASE; a request with a bad pointer freezes its host with cause 5, and one whose space no entry attaches with cause 1;
one that its policer drops is answered with DropNotice; one that passes joins the virtual output queue of its unit with its
attachments and LF, or waits at its input while that queue holds 64.  LEASE_OPEN grants a lease of the next epoch to an admitted
host, with the lowest free slot where it asks for one; HEARTBEAT renews only a live lease; LEASE_CLOSE ends the lease, frees the
slot and mutes the host's instances. -/
def Obligations.IngressAndLeases : Prop :=
  (∀ (s : State) (p : Pkt), Running s → s.accepted p = false →
    ∃ t : State, exec (.ingress p) s = .next t ∧ t.out = s.out ∧ t.hosts.routed = s.hosts.routed ∧
      SMap.get 0 t.hosts.malformed p.port.val = SMap.get 0 s.hosts.malformed p.port.val + 1 ∧
      t.events = s.events ++ [⟨s.beat, 9, 768 + p.port.val, none⟩]) ∧
  (∀ (s : State) (p : Pkt), Running s → s.accepted p = true → p.host ≠ 0xFFF →
    (charged p.opc.toNat = true ∨ p.opc = 0x39) → InReach s p.host.toNat → (s.frz p.host.toNat).state ≠ 0 →
    ∃ t : State, exec (.ingress p) s = .next t ∧ t.out = s.out ∧ t.hosts.routed = s.hosts.routed ∧
      (if 256 ≤ (s.hosts.frzq.filter fun q => q.port == p.port).length
       then t.hosts.frzq = s.hosts.frzq ∧ (t.frz p.host.toNat).dropped = satInc (s.frz p.host.toNat).dropped 16
       else t.hosts.frzq = s.hosts.frzq ++ [p])) ∧
  (∀ (s : State) (p : Pkt), Running s → s.accepted p = true → p.host ≠ 0xFFF →
    (charged p.opc.toNat = true ∨ p.opc = 0x39) → InReach s p.host.toNat → (s.frz p.host.toNat).state = 0 →
    s.leased p.host.toNat = false →
    ∃ (t : State) (k : Pkt), exec (.ingress p) s = .next t ∧ t.out = s.out ++ [k] ∧ k.opc = 0x26 ∧ k.status = 0x0D ∧ k.host = p.host ∧
      k.tag = p.tag ∧ k.port.val = s.rport p.host.toNat ∧ t.hosts.routed = s.hosts.routed) ∧
  (∀ (s : State) (p : Pkt), Running s → s.accepted p = true → p.host ≠ 0xFFF → 1 ≤ p.opc.toNat → p.opc.toNat ≤ 6 →
    InReach s p.host.toNat → (s.frz p.host.toNat).state = 0 → s.leased p.host.toNat = true → ptrOk p.addr.toNat = true →
    s.attach p.host.toNat (some (ptrSpace p.addr.toNat)) = [] →
    ∃ (t : State) (k : Pkt), exec (.ingress p) s = .next t ∧ t.out = s.out ++ [k] ∧ k.opc = 0x26 ∧ k.status = 1 ∧ k.host = p.host ∧
      (t.frz p.host.toNat).state = 1 ∧ (t.frz p.host.toNat).cause = 1 ∧
      t.hosts.violEvt = s.hosts.violEvt ++ [⟨s.beat, 768 + p.port.val, p.host.toNat, p.port.val, 1⟩] ∧
      t.events = s.events ++ [⟨s.beat, 9, 768 + p.port.val, none⟩] ∧ t.hosts.routed = s.hosts.routed) ∧
  (∀ (s : State) (p : Pkt), Running s → s.accepted p = true → p.host ≠ 0xFFF → 1 ≤ p.opc.toNat → p.opc.toNat ≤ 6 →
    InReach s p.host.toNat → (s.frz p.host.toNat).state = 0 → s.leased p.host.toNat = true → ptrOk p.addr.toNat = false →
    s.on F.secPartCtlEn = false →
    ∃ (t : State) (k : Pkt), exec (.ingress p) s = .next t ∧ t.out = s.out ++ [k] ∧ k.opc = 0x26 ∧ k.status = 1 ∧ k.host = p.host ∧
      (t.frz p.host.toNat).state = 1 ∧ (t.frz p.host.toNat).cause = 5 ∧ t.hosts.routed = s.hosts.routed) ∧
  (∀ (s : State) (p : Pkt) (a : Attach) (as : List Attach), Running s → s.accepted p = true → p.host ≠ 0xFFF →
    1 ≤ p.opc.toNat → p.opc.toNat ≤ 6 → InReach s p.host.toNat → (s.frz p.host.toNat).state = 0 →
    s.leased p.host.toNat = true → ptrOk p.addr.toNat = true →
    s.attach p.host.toNat (some (ptrSpace p.addr.toNat)) = a :: as → s.on F.secPartCtlEn = false →
    (s.policer p.host.toNat).en = false →
    ∃ t : State, exec (.ingress p) s = .next t ∧ t.out = s.out ∧ t.mem = s.mem ∧
      (if s.voqLen p.port.val (voqOut p) < 64 then
        t.hosts.routed = s.hosts.routed ++ [⟨p, a :: as, 0, s.beat,
          decide (s.rd F.xbarCongThresh * 4 ≤ s.voqLen p.port.val (voqOut p))⟩] ∧ t.hosts.inHold = s.hosts.inHold
       else t.hosts.routed = s.hosts.routed ∧ t.hosts.inHold = s.hosts.inHold ++ [(⟨p, a :: as, 0, s.beat, false⟩, 0, 0)])) ∧
  (∀ (s : State) (p : Pkt) (a : Attach) (as : List Attach), Running s → s.accepted p = true → p.host ≠ 0xFFF →
    1 ≤ p.opc.toNat → p.opc.toNat ≤ 6 → InReach s p.host.toNat → (s.frz p.host.toNat).state = 0 →
    s.leased p.host.toNat = true → ptrOk p.addr.toNat = true →
    s.attach p.host.toNat (some (ptrSpace p.addr.toNat)) = a :: as → s.on F.secPartCtlEn = false →
    (s.policer p.host.toNat).en = true → s.voqLen p.port.val (voqOut p) < 64 →
    ∃ t : State, exec (.ingress p) s = .next t ∧ t.mem = s.mem ∧
      (if (s.policer p.host.toNat).p < p.len.toNat * 16 + s.rd (F.fportIngOvh p.port.val) then
        t.hosts.routed = s.hosts.routed ∧ ∃ k : Pkt, t.out = s.out ++ [k] ∧ k.opc = 0x07 ∧ k.host = p.host ∧ k.tag = p.tag ∧
          k.seq = p.seq ∧ k.lf = 3
       else t.out = s.out ∧ t.hosts.routed = s.hosts.routed ++ [⟨p, a :: as,
          lfOf (police (s.policer p.host.toNat) (p.len.toNat * 16 + s.rd (F.fportIngOvh p.port.val))).2, s.beat,
          decide (s.rd F.xbarCongThresh * 4 ≤ s.voqLen p.port.val (voqOut p))⟩])) ∧
  (∀ (s : State) (p : Pkt), Running s → s.leased p.host.toNat = false → s.attach p.host.toNat none ≠ [] →
    ∃ (t : State) (k : Pkt), exec (.leaseOpen p) s = .next t ∧ t.leased p.host.toNat = true ∧
      (t.leaseOf p.host.toNat).epoch = ((s.leaseOf p.host.toNat).epoch + 1) % 256 ∧
      (t.leaseOf p.host.toNat).renew = s.beat ∧
      (tst p.body.toNat 0 = false → (t.leaseOf p.host.toNat).slot = none) ∧
      (∀ i, (t.leaseOf p.host.toNat).slot = some i → t.slotHost i = some p.host.toNat ∧ s.slotHost i = none ∧
        ∀ j, j < i → s.slotHost j ≠ none) ∧
      (tst p.body.toNat 0 = true → (∃ i, i < 256 ∧ s.slotHost i = none) → (t.leaseOf p.host.toNat).slot ≠ none) ∧
      t.out = s.out ++ [k] ∧ k.opc = 0x29 ∧ k.status = 0 ∧ (∀ h, h ≠ p.host.toNat → t.leaseOf h = s.leaseOf h)) ∧
  (∀ (s : State) (p : Pkt), Running s → s.leased p.host.toNat = true → s.attach p.host.toNat none ≠ [] →
    ∃ (t : State) (k : Pkt), exec (.leaseOpen p) s = .next t ∧ t.hosts.lease = s.hosts.lease ∧ t.hosts.slots = s.hosts.slots ∧
      t.out = s.out ++ [k] ∧ k.opc = 0x29 ∧ k.status = 0) ∧
  (∀ (s : State) (p : Pkt), Running s → s.attach p.host.toNat none = [] →
    ∃ (t : State) (k : Pkt), exec (.leaseOpen p) s = .next t ∧ t.hosts.lease = s.hosts.lease ∧ t.out = s.out ++ [k] ∧ k.opc = 0x29 ∧
      k.status = 1) ∧
  (∀ (s : State) (p : Pkt), Running s →
    ∃ (t : State) (k : Pkt), exec (.heartbeat p) s = .next t ∧ t.out = s.out ++ [k] ∧ k.opc = 0x2B ∧ k.host = p.host ∧
      (t.leaseOf p.host.toNat).state = (s.leaseOf p.host.toNat).state ∧
      (t.leaseOf p.host.toNat).renew =
        (if s.leased p.host.toNat = true ∧ s.beat < (s.leaseOf p.host.toNat).renew + 62500 then s.beat
         else (s.leaseOf p.host.toNat).renew)) ∧
  (∀ (s : State) (p : Pkt), Running s → s.leased p.host.toNat = false →
    ∃ (t : State) (k : Pkt), exec (.leaseClose p) s = .next t ∧ t.hosts.lease = s.hosts.lease ∧ t.out = s.out ++ [k] ∧ k.opc = 0x29 ∧
      k.status = 0x0D) ∧
  (∀ (s : State) (p : Pkt), Running s → s.leased p.host.toNat = true → (s.leaseOf p.host.toNat).slot = none →
    s.pub.stagings = [] → s.pub.copies = [] → s.pub.pins = [] →
    ∃ (t : State) (k : Pkt), exec (.leaseClose p) s = .next t ∧ (t.leaseOf p.host.toNat).state = 0 ∧ t.out = s.out ++ [k] ∧
      k.opc = 0x29 ∧ k.status = 0 ∧ ∀ i ∈ t.disp.insts, i.host = p.host.toNat → i.state ≤ 2 → i.mute = true) ∧
  (∀ (s : State) (p : Pkt) (x : Nat), Running s → s.leased p.host.toNat = true → (s.leaseOf p.host.toNat).slot = some x →
    s.slotHost x = some p.host.toNat → Quiet s → (∀ e ∈ s.homes.filter, keySlot e.1 = x → e.2.st = 0) →
    s.pub.stagings = [] → s.pub.copies = [] → s.pub.pins = [] →
    ∃ (t : State) (k : Pkt), exec (.leaseClose p) s = .next t ∧ (t.leaseOf p.host.toNat).state = 0 ∧
      (t.leaseOf p.host.toNat).slot = none ∧ t.slotHost x = none ∧ t.out = s.out ++ [k] ∧ k.opc = 0x29 ∧ k.status = 0 ∧
      k.tag = p.tag)

/-- Leases expire, and firmware freezes, releases and evicts hosts. A lease not renewed for 62,500 beats expires with an event of
class 4 of the host's response port, frees the host's slot, clears its filter entries and forgets what waits for it; a snoop
unanswered for SNP_TMO beats ends the holder's lease with such an event of its home, and the answer is taken as given; RELEASE lets
a frozen or evicted host's queued requests pass from the lease check on; EVICT answers them EVICTED and ends the lease; FREEZE
freezes with cause 7; FRZ_CMD acts only in the states it names. -/
def Obligations.ExpiryAndFreezes : Prop :=
  (∀ (s : State) (host : BitVec 12), Running s → s.beat < (s.leaseOf host.toNat).renew + 62500 →
    exec (.leaseExpiry host) s = .next s) ∧
  (∀ (s : State) (host : BitVec 12), Running s → (s.leaseOf host.toNat).renew + 62500 ≤ s.beat → s.leased host.toNat = true →
    (s.leaseOf host.toNat).slot = none → Quiet s → s.pub.stagings = [] → s.pub.copies = [] → s.pub.pins = [] →
    ∃ t : State, exec (.leaseExpiry host) s = .next t ∧ (t.leaseOf host.toNat).state = 2 ∧ t.out = s.out ∧ t.mem = s.mem ∧
      t.events = s.events ++ [⟨s.beat, 4, 768 + s.rport host.toNat, none⟩] ∧
      t.hosts.routed = s.hosts.routed.filter (fun e => e.pkt.host.toNat ≠ host.toNat) ∧
      ∀ h, h ≠ host.toNat → t.leaseOf h = s.leaseOf h) ∧
  (∀ (s : State) (host : BitVec 12) (x : Nat), Running s → (s.leaseOf host.toNat).renew + 62500 ≤ s.beat →
    s.leased host.toNat = true → (s.leaseOf host.toNat).slot = some x → s.slotHost x = some host.toNat → Quiet s →
    s.pub.stagings = [] → s.pub.copies = [] → s.pub.pins = [] →
    ∃ t : State, exec (.leaseExpiry host) s = .next t ∧ (t.leaseOf host.toNat).state = 2 ∧ (t.leaseOf host.toNat).slot = none ∧
      t.slotHost x = none ∧ (∀ k, keySlot k = x → (t.fGet k).st = 0) ∧
      (⟨s.beat, 4, 768 + s.rport host.toNat, none⟩ : Event) ∈ t.events ∧ t.out = s.out) ∧
  (∀ (s : State) (home : Fin 64) (entry : BitVec 10), Running s →
    (∀ x ∈ s.homes.txns, x.home = home.val → x.idx = entry.toNat →
      ∀ n ∈ x.snoops, s.beat < n.sent + s.rd F.homeCohCtlSnpTmo) →
    exec (.snoopTimeout home entry) s = .next s) ∧
  (∀ (s : State) (home : Fin 64) (entry : BitVec 10) (x : Txn) (n : Snoop), Running s → NoQueue s → s.homes.txns = [x] →
    x.home = home.val → x.idx = entry.toNat → x.stage = .snoop → x.snoops = [n] →
    n.sent + s.rd F.homeCohCtlSnpTmo ≤ s.beat → s.leased n.host = true →
    ∃ t : State, exec (.snoopTimeout home entry) s = .next t ∧ (t.leaseOf n.host).state = 2 ∧
      (⟨s.beat, 4, 672 + home.val, none⟩ : Event) ∈ t.events ∧ ∀ y ∈ t.homes.txns, y.snoops = []) ∧
  (∀ (s : State) (host : BitVec 12) (c : Cmd), Running s → Accepts s 848 c → (s.frz host.toNat).state ≠ 0 →
    (∀ q ∈ s.hosts.frzq, q.host ≠ host) →
    ∃ t : State, exec (.frzRelease host c) s = .next t ∧ (t.frz host.toNat).state = 0 ∧ (t.frz host.toNat).cause = 0 ∧
      t.hosts.frzq = s.hosts.frzq ∧ t.out = s.out) ∧
  (∀ (s : State) (host : BitVec 12) (c : Cmd) (q : Pkt), Running s → Accepts s 848 c → (s.frz host.toNat).state ≠ 0 →
    s.hosts.frzq = [q] → q.host = host → s.leased host.toNat = false →
    ∃ (t : State) (k : Pkt), exec (.frzRelease host c) s = .next t ∧ (t.frz host.toNat).state = 0 ∧ t.hosts.frzq = [] ∧
      t.out = s.out ++ [k] ∧ k.opc = 0x26 ∧ k.status = 0x0D ∧ k.host = host ∧ k.tag = q.tag) ∧
  (∀ (s : State) (host : BitVec 12) (c : Cmd) (q : Pkt) (a : Attach) (as : List Attach), Running s → Accepts s 848 c →
    (s.frz host.toNat).state ≠ 0 → s.hosts.frzq = [q] → q.host = host → s.leased host.toNat = true → 1 ≤ q.opc.toNat →
    q.opc.toNat ≤ 6 → ptrOk q.addr.toNat = true → s.attach host.toNat (some (ptrSpace q.addr.toNat)) = a :: as →
    s.on F.secPartCtlEn = false → (s.policer host.toNat).en = false → s.voqLen q.port.val (voqOut q) < 64 →
    ∃ t : State, exec (.frzRelease host c) s = .next t ∧ (t.frz host.toNat).state = 0 ∧ t.hosts.frzq = [] ∧ t.out = s.out ∧
      ∃ e : Routed, t.hosts.routed = s.hosts.routed ++ [e] ∧ e.pkt = q ∧ e.atts = a :: as) ∧
  (∀ (s : State) (host : BitVec 12) (c : Cmd), Running s → Accepts s 848 c → (s.frz host.toNat).state = 0 →
    ∃ t : State, exec (.frzRelease host c) s = .next t ∧ t.hosts = s.hosts ∧ t.rd (F.hdrStateClamped 848) = 1) ∧
  (∀ (s : State) (host : BitVec 12) (c : Cmd), Running s → Accepts s 848 c → (s.frz host.toNat).state = 1 →
    s.leased host.toNat = false → (∀ q ∈ s.hosts.frzq, q.host ≠ host) →
    ∃ t : State, exec (.frzEvict host c) s = .next t ∧ (t.frz host.toNat).state = 2 ∧ t.out = s.out) ∧
  (∀ (s : State) (host : BitVec 12) (c : Cmd) (q : Pkt), Running s → Accepts s 848 c → (s.frz host.toNat).state = 1 →
    s.leased host.toNat = false → s.hosts.frzq = [q] → q.host = host →
    ∃ (t : State) (k : Pkt), exec (.frzEvict host c) s = .next t ∧ (t.frz host.toNat).state = 2 ∧ t.hosts.frzq = [] ∧
      t.out = s.out ++ [k] ∧ k.opc = 0x26 ∧ k.status = 2 ∧ k.host = host ∧ k.tag = q.tag) ∧
  (∀ (s : State) (host : BitVec 12) (c : Cmd), Running s → Accepts s 848 c → (s.frz host.toNat).state = 1 →
    s.leased host.toNat = true → (s.leaseOf host.toNat).slot = none → Quiet s → s.pub.stagings = [] → s.pub.copies = [] →
    s.pub.pins = [] → (∀ q ∈ s.hosts.frzq, q.host ≠ host) →
    ∃ t : State, exec (.frzEvict host c) s = .next t ∧ (t.frz host.toNat).state = 2 ∧ (t.leaseOf host.toNat).state = 2 ∧
      (⟨s.beat, 4, 848, none⟩ : Event) ∈ t.events ∧ t.out = s.out) ∧
  (∀ (s : State) (host : BitVec 12) (c : Cmd), Running s → Accepts s 848 c → (s.frz host.toNat).state ≠ 1 →
    ∃ t : State, exec (.frzEvict host c) s = .next t ∧ t.hosts = s.hosts ∧ t.rd (F.hdrStateClamped 848) = 1) ∧
  (∀ (s : State) (host : BitVec 12) (c : Cmd), Running s → Accepts s 848 c →
    ∃ t : State, exec (.frzFreeze host c) s = .next t ∧
      (if (s.frz host.toNat).state = 0 then (t.frz host.toNat).state = 1 ∧ (t.frz host.toNat).cause = 7
       else t.hosts = s.hosts ∧ t.rd (F.hdrStateClamped 848) = 1))

/-- Policers, shapers, congestion steps and time gates follow their registers. REFILL_TICK refills every policer that is set and every
enabled shaper once on a beat that is a multiple of 32; a mark raises a host's slowdown step once in a refill period; an unmarked host's step
decays; POL_WRITE sets rates and sizes, clamping and recording them, POL_WRITE_FILL fills the buckets as well and POL_READ shows the
entry; SHAPE_WRITE sets a shaper, which starts full; an armed gate plan takes over at the first crossbar-bar boundary, every 64/5
beats, at or after its beat. -/
def Obligations.TrafficControl : Prop :=
  (∀ s : State, Running s → s.beat % 32 = 0 → s.hosts.lastTick ≠ s.beat + 1 → SMap.wf (fun _ => pol0) s.hosts.pol = true →
    ∃ t : State, exec .refillTick s = .next t ∧ t.hosts.lastTick = s.beat + 1 ∧
      (∀ h, t.policer h = if s.policer h = pol0 then pol0 else refill (s.policer h)) ∧
      (∀ p : Fin 64, t.tokens p.val = if s.on (F.fportShapeEn p.val) = true
        then min (s.rd (F.fportShapeBurst p.val)) (s.tokens p.val + s.rd (F.fportShapeRate p.val)) else s.tokens p.val) ∧
      exec .refillTick t = .next t) ∧
  (∀ s : State, Running s → s.beat % 32 ≠ 0 → exec .refillTick s = .next s) ∧
  (∀ (s : State) (host : BitVec 12), Running s → s.on F.xbarCongEn = true → (s.policer host.toNat).en = true →
    ∃ t : State, exec (.congestionMark host) s = .next t ∧ (t.policer host.toNat).marked = true ∧
      (t.policer host.toNat).slow = (if (s.policer host.toNat).marked = true then (s.policer host.toNat).slow
        else min ((s.policer host.toNat).slow + 1) (max (s.policer host.toNat).slow (s.rd F.xbarCongSmax))) ∧
      ∀ h, h ≠ host.toNat → t.policer h = s.policer h) ∧
  (∀ (s : State) (host : BitVec 12), Running s → (s.on F.xbarCongEn = false ∨ (s.policer host.toNat).en = false) →
    exec (.congestionMark host) s = .next s) ∧
  (∀ (s : State) (host : BitVec 12), Running s →
    ∃ t : State, exec (.slowdownDecay host) s = .next t ∧ (t.policer host.toNat).slow =
      (if 0 < (s.policer host.toNat).slow ∧ s.rd F.xbarCongDecay ≤ (s.policer host.toNat).quiet
       then (s.policer host.toNat).slow - 1 else (s.policer host.toNat).slow) ∧
      ∀ h, h ≠ host.toNat → t.policer h = s.policer h) ∧
  (∀ (s : State) (host : BitVec 12) (c : Cmd), Running s → Accepts s 848 c →
    ∃ t : State, exec (.polWrite host c) s = .next t ∧
      t.policer host.toNat = (s.polEntry (s.policer host.toNat) false).1 ∧
      (∀ h, h ≠ host.toNat → t.policer h = s.policer h) ∧
      ((s.polEntry (s.policer host.toNat) false).2 = true → t.rd (F.hdrStateClamped 848) = 1)) ∧
  (∀ (s : State) (host : BitVec 12) (c : Cmd), Running s → Accepts s 848 c →
    ∃ t : State, exec (.polWriteFill host c) s = .next t ∧
      (t.policer host.toNat).c = (t.policer host.toNat).cbs ∧ (t.policer host.toNat).p = (t.policer host.toNat).pbs ∧
      t.policer host.toNat = (s.polEntry (s.policer host.toNat) true).1) ∧
  (∀ (s : State) (host : BitVec 12) (c : Cmd), Running s → Accepts s 848 c →
    ∃ t : State, exec (.polRead host c) s = .next t ∧ t.hosts.pol = s.hosts.pol ∧
      t.rd (F.xbarPolDataWord 0) = ((if (s.policer host.toNat).en = true then 1 else 0) + (s.policer host.toNat).cir * 2 ^ 8 +
        (s.policer host.toNat).pir * 2 ^ 28) % 2 ^ 64 ∧
      t.rd (F.xbarPolDataWord 1) = ((s.policer host.toNat).cbs + (s.policer host.toNat).pbs * 2 ^ 24) % 2 ^ 64 ∧
      t.rd (F.xbarPolDataWord 2) = ((s.policer host.toNat).c + (s.policer host.toNat).p * 2 ^ 24 +
        (s.policer host.toNat).slow * 2 ^ 48) % 2 ^ 64) ∧
  (∀ (s : State) (port : Fin 64) (en : Bool) (rate : BitVec 20) (burst : BitVec 24) (c : Cmd), Running s →
    Accepts s (768 + port.val) c → 256 ≤ burst.toNat → rate.toNat ≤ burst.toNat →
    ∃ t : State, exec (.shapeWrite port en rate burst c) s = .next t ∧ t.on (F.fportShapeEn port.val) = en ∧
      t.rd (F.fportShapeRate port.val) = rate.toNat ∧ t.rd (F.fportShapeBurst port.val) = burst.toNat ∧
      t.tokens port.val = if en = true ∧ s.on (F.fportShapeEn port.val) = false then burst.toNat
        else min (s.tokens port.val) burst.toNat) ∧
  (∀ (s : State) (port : Fin 64) (c : Cmd), Running s → Accepts s (768 + port.val) c → s.beat < 2 ^ 63 →
    s.hosts.gates = [] → s.on (F.fportGateCtlArmed port.val) = false →
    ∃ t : State, exec (.gateArm port c) s = .next t ∧ t.rd (F.fportGateCtlArmed port.val) = 1 ∧
      t.rd (F.fportGateAtBeat port.val) = max (s.rd (F.fportGateAtBeat port.val)) (s.beat + 18) ∧
      t.hosts.gates = [(port.val, max (s.rd (F.fportGateAtBeat port.val)) (s.beat + 18))]) ∧
  (∀ (s : State) (port : Fin 64) (c : Cmd), Running s → Accepts s (768 + port.val) c →
    s.on (F.fportGateCtlArmed port.val) = true →
    ∃ t : State, exec (.gateArm port c) s = .next t ∧ t.rd (F.fportGateCtlRefused port.val) = 1 ∧ t.hosts.gates = s.hosts.gates ∧
      t.rd (F.hdrStateClamped (768 + port.val)) = 1) ∧
  (∀ (s : State) (port : Fin 64) (at_ : Nat), Running s →
    s.hosts.gates.find? (fun e => e.1 == port.val) = some (port.val, at_) → 64 * ceilDiv (5 * at_) 64 < 5 * (s.beat + 1) →
    ∃ t : State, exec (.gateTakeover port) s = .next t ∧ t.hosts.gates = s.hosts.gates.filter (fun e => e.1 ≠ port.val) ∧ t.rd (F.fportGateCtlArmed port.val) = 0 ∧
      ∀ i, i < 128 → t.reg ((768 + port.val) * 0x100000 + 0x1400 + 8 * i) =
        s.reg ((768 + port.val) * 0x100000 + 0x1000 + 8 * i)) ∧
  (∀ (s : State) (port : Fin 64) (at_ : Nat), Running s →
    s.hosts.gates.find? (fun e => e.1 == port.val) = some (port.val, at_) → 5 * (s.beat + 1) ≤ 64 * ceilDiv (5 * at_) 64 →
    exec (.gateTakeover port) s = .next s)

/-- Admission entries, response ports, fault records, prefetches, peers and Knells. ADM_WRITE stores the entry of ADM_DATA, its
reserved bits zero, unless it would be the fifth over one host and space; ADM_READ shows it; HOST_CTL pins and unpins a response
port; a forwarded fault joins the open record of its page or opens the lowest free one (the lowest is the model's choice, log entry
14), and one that waited does so when it is tried again; a record times out past FLT_TMO and fails its waiters with TIMEOUT, closes
as filled by FLT_DONE only where its cause is NOT_PRESENT, and its queue entry moves HEAD and raises bit 16; a stream's prefetch locks
the cached translation of its page; a peer's Data answers the tile that asked and a response that answers nothing is dropped; a Knell
is remembered with an event while Knells are on, and otherwise changes nothing but counts. -/
def Obligations.AdmissionFaultsAndPeers : Prop :=
  (∀ (s : State) (index : BitVec 13) (c : Cmd), Running s → Accepts s 848 c → s.on F.secPartCtlEn = false →
    ∃ t : State, exec (.admWrite index c) s = .next t ∧ t.out = s.out ∧ t.mem = s.mem ∧
      (if s.fifthEntry index.toNat (s.rd (F.xbarAdmDataWord 0) % 2 ^ 60 + s.rd (F.xbarAdmDataWord 1) % 2 ^ 32 * 2 ^ 64) = true
       then t.hosts.adm = s.hosts.adm ∧ t.rd (F.hdrStateClamped 848) = 1
       else (SMap.get 0#256 t.hosts.adm index.toNat).toNat =
          s.rd (F.xbarAdmDataWord 0) % 2 ^ 60 + s.rd (F.xbarAdmDataWord 1) % 2 ^ 32 * 2 ^ 64) ∧
      (2 ^ 60 ≤ s.rd (F.xbarAdmDataWord 0) ∨ 2 ^ 32 ≤ s.rd (F.xbarAdmDataWord 1) ∨ s.rd (F.xbarAdmDataWord 2) ≠ 0 ∨
        s.rd (F.xbarAdmDataWord 3) ≠ 0 → t.rd (F.hdrStateClamped 848) = 1)) ∧
  (∀ (s : State) (index : BitVec 13) (c : Cmd), Running s → Accepts s 848 c →
    ∃ t : State, exec (.admRead index c) s = .next t ∧ t.hosts.adm = s.hosts.adm ∧ ∀ n, n < 4 →
      t.rd (F.xbarAdmDataWord n) = bits (SMap.get 0#256 s.hosts.adm index.toNat).toNat (64 * n + 63) (64 * n)) ∧
  (∀ (s : State) (host : BitVec 12) (port : Fin 64) (c : Cmd), Running s → Accepts s 848 c →
    ∃ t : State, exec (.hostPin host port c) s = .next t ∧ t.rport host.toNat = port.val ∧ t.pinned host.toNat = true) ∧
  (∀ (s : State) (host : BitVec 12) (c : Cmd), Running s → Accepts s 848 c →
    ∃ t : State, exec (.hostUnpin host c) s = .next t ∧ t.rport host.toNat = s.rport host.toNat ∧ t.pinned host.toNat = false) ∧
  (∀ (s : State) (home : Fin 64) (f : PageFault) (i : Nat), Running s → s.homes.faults = [f] → f.home = home.val →
    s.moveOf f.space f.page = none → s.waitersAt f.home < 4096 → i < 256 →
    (∀ x ∈ s.homes.recs, x.home = f.home → x.state = 1 →
      ¬(x.space = f.space ∧ x.page = f.page ∧ x.size = f.size ∧ x.cause = f.cause) ∧ x.idx ≠ i) →
    (∀ j, j < i → ∃ x ∈ s.homes.recs, x.home = f.home ∧ x.state = 1 ∧ x.idx = j) →
    ∃ t : State, exec (.faultRecordOpen home) s = .next t ∧ t.homes.faults = [] ∧
      (⟨f.home, i, f.space, f.page, f.size, f.cause, s.beat, f.region, 1, [f.waiter], false⟩ : FaultRec) ∈ t.homes.recs ∧
      ∀ x ∈ s.homes.recs, x.state = 1 → x ∈ t.homes.recs) ∧
  (∀ (s : State) (home : Fin 64) (f : PageFault) (x : FaultRec), Running s → s.homes.faults = [f] → f.home = home.val →
    s.moveOf f.space f.page = none →
    s.homes.recs = [x] → x.home = f.home → x.state = 1 → x.space = f.space → x.page = f.page → x.size = f.size →
    x.cause = f.cause → x.waiters.length < 4096 →
    ∃ t : State, exec (.faultRecordOpen home) s = .next t ∧ t.homes.faults = [] ∧
      t.homes.recs = [{ x with waiters := x.waiters ++ [f.waiter] }]) ∧
  (∀ (s : State) (home : Fin 64) (f : PageFault), Running s → s.homes.faultWait = [f] → f.home = home.val →
    s.homes.recs = [] → s.moveOf f.space f.page = none →
    ∃ t : State, exec (.faultPendingRetry home) s = .next t ∧ t.homes.faultWait = [] ∧ t.homes.recs =
      [⟨f.home, 0, f.space, f.page, f.size, f.cause, s.beat, f.region, 1, [f.waiter], false⟩]) ∧
  (∀ (s : State) (home : Fin 64) (index : BitVec 8) (x : FaultRec), Running s → s.homes.recs = [x] → x.home = home.val →
    x.idx = index.toNat → x.state = 1 → s.disp.descs = [] → s.mir.got = [] → x.waiters = [] →
    ∃ t : State, exec (.faultTimeout home index) s = .next t ∧ t.homes.recs =
      [if s.beat ≤ x.first + s.rd F.homeFltTmoTmo * 3125 then x else { x with state := 3 }]) ∧
  (∀ (s : State) (home : Fin 64) (index : BitVec 8) (x : FaultRec) (r : HomeReq), Running s → s.homes.recs = [x] →
    x.home = home.val → x.idx = index.toNat → x.state = 1 → s.disp.descs = [] → s.mir.got = [] → x.waiters = [.req r] → r.tile = none →
    x.first + s.rd F.homeFltTmoTmo * 3125 < s.beat → s.silent r = false → s.idemOn = false →
    ∃ (t : State) (k : Pkt), exec (.faultTimeout home index) s = .next t ∧ t.homes.recs = [{ x with state := 3, waiters := [] }] ∧
      t.out = s.out ++ [k] ∧ k.opc = 0x26 ∧ k.status = 7 ∧ k.tag.toNat = r.tag % 2 ^ 15) ∧
  (∀ (s : State) (home : BitVec 6) (index : BitVec 8) (c : Cmd) (x : FaultRec), Running s → Accepts s 672 c →
    s.homes.recs = [x] → x.home = home.toNat → x.idx = index.toNat → x.state = 1 → x.waiters = [] → s.disp.descs = [] → s.mir.got = [] →
    ∃ t : State, exec (.fltDone home index c) s = .next t ∧
      (if x.cause = 0 then t.homes.recs = [{ x with state := 2 }]
       else t.homes.recs = [x] ∧ t.rd (F.hdrStateClamped 672) = 1)) ∧
  (∀ (s : State) (x : FaultRec), Running s → s.homes.recs = [x] → x.state = 1 → x.cause = 0 → x.queued = false →
    s.rd F.homeFltQBase ≠ 0 → s.rd F.homeFltQptrHead < s.rd F.homeFltQLen * 1024 →
    (s.rd F.homeFltQptrHead + 1) % (s.rd F.homeFltQLen * 1024) ≠ s.rd F.homeFltQptrTail % (s.rd F.homeFltQLen * 1024) →
    ∃ t : State, exec .faultQueueEntry s = .next t ∧
      t.rd F.homeFltQptrHead = (s.rd F.homeFltQptrHead + 1) % (s.rd F.homeFltQLen * 1024) ∧
      t.homes.recs = [{ x with queued := true }] ∧ (⟨s.beat, 9, 672 + x.home, some 16⟩ : Event) ∈ t.events) ∧
  (∀ (s : State) (i : BitVec 12) (tile : Fin 672) (stream : Fin 12) (page : BitVec 32) (v : Inst) (e : Tlb), Running s →
    s.inst? i.toNat = some v → v.state = 1 → (strm v.streams stream.val).gath = false → (strm v.streams stream.val).depth = 0 →
    (strm v.streams stream.val).dir = false → ptrOff (strm v.streams stream.val).base ≤ page.toNat * 0x10000 →
    page.toNat * 0x10000 < ptrOff (strm v.streams stream.val).base + (strm v.streams stream.val).len →
    s.homes.tlb = [e] → e.place = 64 + tile.val → e.space = ptrSpace (strm v.streams stream.val).base → e.bits = 16 →
    e.page = page.toNat → e.lock = none → s.pub.pins = [] →
    ∃ t : State, exec (.streamPrefetch i tile stream page) s = .next t ∧ t.homes.faults = s.homes.faults ∧
      t.homes.tlb = [{ e with lock := some (i.toNat, stream.val) }]) ∧
  (∀ (s : State) (p : Pkt), Running s → s.disp.descs = [] → p.opc ≠ 0x29 → p.opc ≠ 0x2B → s.peers = [] →
    exec (.peerResponse p) s = .next s) ∧
  (∀ (s : State) (p : Pkt) (q : PeerReq) (m : MPkt), Running s → s.disp.descs = [] → p.opc = 0x24 → s.peers = [q] →
    q.tag = p.tag.toNat → q.host = p.host.toNat → q.req.op = 0x120 → q.req.tile = some m → m.op ≠ opDisp →
    ∃ (t : State) (k : MPkt), exec (.peerResponse p) s = .next t ∧ t.peers = [] ∧ t.meshResp = s.meshResp ++ [k] ∧ k.job = m.job ∧
      k.dx = m.sx ∧ k.dy = m.sy ∧ k.status = 0 ∧ k.flits.length = 2) ∧
  (∀ (s : State) (p : Pkt), Running s → s.on F.xbarKnellEn = false → s.hosts.routed = [] →
    ∃ t : State, exec (.knell p) s = .next t ∧ t.disp = s.disp ∧ t.out = s.out ∧ t.hosts = s.hosts) ∧
  (∀ (s : State) (p : Pkt), Running s → s.on F.xbarKnellEn = true → s.hosts.routed = [] → p.host = 0xFFF →
    tst (s.rd F.xbarKnellPortsPorts) p.port.val = true → s.hosts.knells = [] → bits p.body.toNat 30 28 = 0 →
    s.disp.insts = [] →
    ∃ t : State, exec (.knell p) s = .next t ∧ t.hosts.knells = [(bits p.body.toNat 127 64, bits p.body.toNat 63 32)] ∧
      (⟨s.beat, 9, 862, none⟩ : Event) ∈ t.events ∧ t.out = s.out)

/-- Requests to a line nobody holds are granted and answered with the home's data. RdShared grants GntF, or GntE where EONREAD is
set; RdOwn and Upgrade grant GntM; each grant puts the line into the requester's filter way, sends the data and waits for GrantAck;
RdCur sends the data and WrCur merges the written bytes into the line and completes; GrantAck closes the transaction. -/
def Obligations.RequestsForUnheldLines : Prop :=
  (∀ (s : State) (p : Pkt) (g : Rgn) (e : Tlb) (l : LcLine) (sl : Nat), Ready s p 1 g e l → g.mode = 0 →
    s.homes.filter = [] → (s.leaseOf p.host.toNat).slot = some sl →
    ∃ (t : State) (x : Txn) (k d : Pkt), exec (.rdShared p) s = .next t ∧ t.homes.txns = [x] ∧ x.stage = .ack ∧ t.out = s.out ++ [k, d] ∧
      k.opc.toNat = (if s.on F.homeCohCtlEonread = true then 0x22 else 0x21) ∧ k.host = p.host ∧ k.tag = p.tag ∧
      d.opc = 0x24 ∧ d.body = l.data.zeroExtend 2048 ∧ d.poison = l.poison ∧
      (t.fGet (grantKey sl p)).st = (if s.on F.homeCohCtlEonread = true then 3 else 2) ∧ t.homes.lc = s.homes.lc) ∧
  (∀ (s : State) (p : Pkt) (g : Rgn) (e : Tlb) (l : LcLine) (sl : Nat), Ready s p 2 g e l → g.mode = 0 →
    s.homes.filter = [] → (s.leaseOf p.host.toNat).slot = some sl →
    ∃ (t : State) (x : Txn) (k d : Pkt), exec (.rdOwn p) s = .next t ∧ t.homes.txns = [x] ∧ x.stage = .ack ∧ t.out = s.out ++ [k, d] ∧
      k.opc = 0x22 ∧ k.host = p.host ∧ d.opc = 0x24 ∧ d.body = l.data.zeroExtend 2048 ∧
      (t.fGet (grantKey sl p)).st = 3 ∧ t.homes.lc = s.homes.lc) ∧
  (∀ (s : State) (p : Pkt) (g : Rgn) (e : Tlb) (l : LcLine) (sl : Nat), Ready s p 3 g e l → g.mode = 0 →
    s.homes.filter = [] → (s.leaseOf p.host.toNat).slot = some sl →
    ∃ (t : State) (x : Txn) (k d : Pkt), exec (.upgrade p) s = .next t ∧ t.homes.txns = [x] ∧ x.stage = .ack ∧ t.out = s.out ++ [k, d] ∧
      k.opc = 0x22 ∧ k.host = p.host ∧ d.opc = 0x24 ∧ d.body = l.data.zeroExtend 2048 ∧
      (t.fGet (grantKey sl p)).st = 3 ∧ t.homes.lc = s.homes.lc) ∧
  (∀ (s : State) (p : Pkt) (g : Rgn) (e : Tlb) (l : LcLine), Ready s p 4 g e l → s.homes.filter = [] →
    ∃ (t : State) (d : Pkt), exec (.rdCur p) s = .next t ∧ t.homes.txns = [] ∧ t.out = s.out ++ [d] ∧ d.opc = 0x24 ∧ d.host = p.host ∧
      d.tag = p.tag ∧ d.body = l.data.zeroExtend 2048 ∧ d.poison = l.poison ∧ t.homes.lc = s.homes.lc ∧
      t.homes.filter = []) ∧
  (∀ (s : State) (p : Pkt) (g : Rgn) (e : Tlb) (l : LcLine), Ready s p 5 g e l → g.mode ≤ 1 → s.homes.filter = [] →
    s.writeHeld (leafDpa e.entry e.bits (ptrOff p.addr.toNat) / 128 * 128) = none →
    ∃ (t : State) (k : Pkt) (m : LcLine), exec (.wrCur p) s = .next t ∧ t.homes.txns = [] ∧ t.out = s.out ++ [k] ∧ k.opc = 0x26 ∧ k.status = 0 ∧
      k.host = p.host ∧ k.tag = p.tag ∧ t.lcGet (leafDpa e.entry e.bits (ptrOff p.addr.toNat) / 128 * 128) = some m ∧
      m.data = mergeLine l.data (p.body.extractLsb' 128 1024) (p.body.extractLsb' 0 128) ∧ m.dirty = false) ∧
  (∀ (s : State) (p : Pkt) (x : Txn), Running s → NoQueue s → Plain s → s.homes.txns = [x] → x.stage = .ack →
    x.home = homeOfPtr p.addr.toNat → x.line = p.addr.toNat / 128 * 128 → x.req.host = p.host.toNat →
    x.req.tag = p.tag.toNat →
    ∃ t : State, exec (.grantAck p) s = .next t ∧ t.homes.txns = [] ∧ t.out = s.out ∧ t.mem = s.mem ∧
      t.homes.filter = s.homes.filter) ∧
  (∀ (s : State) (p : Pkt), Running s → NoQueue s → s.homes.txns = [] → exec (.grantAck p) s = .next s)

/-- Holders are snooped, and their answers and evictions move the line. A request for a line that another host owns sends SnpShare or
SnpInv to it and waits; RspI and RspIWb clear the holder's entry and RspS and RspSWb leave it shared, dirty data going to the home line
cache; RspFwd lets the reader's grant stand; RspAbsentEvict waits for the crossing eviction; an answer nobody waits for changes nothing
but a count; evictions clear the entry and are completed; FwdData goes on to the reader. -/
def Obligations.SnoopsAndEvictions : Prop :=
  (∀ (s : State) (p : Pkt) (g : Rgn) (e : Tlb) (l : LcLine) (sl k h : Nat) (f : FEnt), Ready s p 1 g e l → g.mode = 0 →
    (s.leaseOf p.host.toNat).slot = some sl → s.homes.filter = [(k, f)] → f.st = 3 → f.ptr = p.addr.toNat / 128 * 128 →
    keyHome k = homeOfPtr p.addr.toNat → keySlot k ≠ sl → s.slotHost (keySlot k) = some h →
    ∃ (t : State) (x : Txn) (q : Pkt), exec (.rdShared p) s = .next t ∧ t.homes.txns = [x] ∧ x.stage = .snoop ∧
      x.snoops = [⟨h, keySlot k, 0x11, s.beat⟩] ∧ t.out = s.out ++ [q] ∧ q.opc = 0x11 ∧ q.host = BitVec.ofNat 12 h ∧
      q.snpid.toNat = x.home * 1024 + x.idx ∧ t.homes.filter = s.homes.filter) ∧
  (∀ (s : State) (p : Pkt) (g : Rgn) (e : Tlb) (l : LcLine) (sl k h : Nat) (f : FEnt), Ready s p 2 g e l → g.mode = 0 →
    (s.leaseOf p.host.toNat).slot = some sl → s.homes.filter = [(k, f)] → f.st ≠ 0 → f.ptr = p.addr.toNat / 128 * 128 →
    keyHome k = homeOfPtr p.addr.toNat → keySlot k ≠ sl → s.slotHost (keySlot k) = some h →
    ∃ (t : State) (x : Txn) (q : Pkt), exec (.rdOwn p) s = .next t ∧ t.homes.txns = [x] ∧ x.stage = .snoop ∧
      x.snoops = [⟨h, keySlot k, 0x10, s.beat⟩] ∧ t.out = s.out ++ [q] ∧ q.opc = 0x10 ∧ q.host = BitVec.ofNat 12 h ∧
      t.homes.filter = s.homes.filter) ∧
  (∀ (s : State) (p : Pkt) (x : Txn) (n : Snoop) (k : Nat) (f : FEnt), Running s → NoQueue s → s.homes.txns = [x] →
    (∀ g, s.rgnAt (ptrSpace x.line) (ptrOff x.line) = some g → g.tier ≠ 2) → s.inSram (x.dpa / 0x10000) = false →
    x.home = p.snpid.toNat / 1024 → x.idx = p.snpid.toNat % 1024 → x.snoops = [n] → x.absent = [] → x.plan.1 = 0 →
    x.req.op = 0x200 → x.req.drop = false → x.req.job = 1 → x.ownerSnooped = false → n.host = p.host.toNat →
    s.homes.filter = [(k, f)] → f.st ≠ 0 → f.ptr = x.line → keyHome k = x.home → keySlot k = n.slot → f.localAt = none →
    (∃ t : State, exec (.rspI p) s = .next t ∧ t.homes.txns = [] ∧ t.homes.filter = [] ∧ t.homes.lc = s.homes.lc ∧ t.out = s.out) ∧
    (∃ t : State, exec (.rspIWb p) s = .next t ∧ t.homes.txns = [] ∧ t.homes.filter = [] ∧
      t.lcGet x.dpa = some ⟨x.line, p.body.extractLsb' 0 1024, true, p.poison⟩) ∧
    (∃ t : State, exec (.rspS p) s = .next t ∧ t.homes.txns = [] ∧ (t.fGet k).st = 1 ∧ t.homes.lc = s.homes.lc) ∧
    (∃ t : State, exec (.rspSWb p) s = .next t ∧ t.homes.txns = [] ∧ (t.fGet k).st = 1 ∧
      t.lcGet x.dpa = some ⟨x.line, p.body.extractLsb' 0 1024, true, p.poison⟩) ∧
    (∃ t : State, exec (.rspAbsentEvict p) s = .next t ∧ t.homes.filter = s.homes.filter ∧ t.out = s.out ∧
      t.homes.txns = [{ x with snoops := [], absent := [n.slot] }])) ∧
  (∀ (s : State) (p : Pkt) (x : Txn) (n : Snoop) (k sl : Nat) (f : FEnt), Running s → NoQueue s → s.homes.txns = [x] →
    x.home = p.snpid.toNat / 1024 → x.idx = p.snpid.toNat % 1024 → x.snoops = [n] → x.absent = [] → x.req.op = 1 →
    s.silent x.req = false → x.ownerSnooped = false → n.host = p.host.toNat → s.homes.filter = [(k, f)] → f.st = 2 → f.ptr = x.line →
    keyHome k = x.home → keySlot k = n.slot → f.localAt = none → (s.leaseOf x.req.host).slot = some sl →
    fKey x.home sl (setOf (ptrSpace x.line) (ptrOff x.line) % 64) x.req.way ≠ k →
    ∃ (t : State) (y : Txn), exec (.rspFwd p) s = .next t ∧ t.homes.txns = [y] ∧ y.stage = .ack ∧ y.grant = some (0x21, true, false) ∧
      (t.fGet k).st = 1 ∧ (t.fGet (fKey x.home sl (setOf (ptrSpace x.line) (ptrOff x.line) % 64) x.req.way)).st = 2 ∧
      t.out = s.out) ∧
  (∀ (s : State) (p : Pkt), Running s → s.homes.txns = [] → s.disp.descs = [] →
    ∃ t : State, exec (.rspI p) s = .next t ∧ t.homes = s.homes ∧ t.mem = s.mem ∧ t.out = s.out ∧ t.hosts = s.hosts) ∧
  (∀ (s : State) (p : Pkt) (g : Rgn) (sl : Nat) (f : FEnt), Running s → Quiet s → Plain s → s.hosts.routed = [] →
    s.leased p.host.toNat = true → (s.leaseOf p.host.toNat).slot = some sl →
    s.rgnAt (ptrSpace p.addr.toNat) (ptrOff p.addr.toNat) = some g → g.mode = 0 → g.tier ≠ 2 →
    s.inSram (f.dpa / 0x10000) = false → s.homes.filter = [(grantKey sl p, f)] → f.st ≠ 0 → f.ptr = p.addr.toNat / 128 * 128 →
    s.rgnAt (ptrSpace (p.addr.toNat / 128 * 128)) (ptrOff (p.addr.toNat / 128 * 128)) = some g →
    (∃ (t : State) (k : Pkt), exec (.wbM p) s = .next t ∧ t.homes.filter = [] ∧ t.out = s.out ++ [k] ∧ k.opc = 0x26 ∧ k.status = 0 ∧
      k.host = p.host ∧ t.lcGet f.dpa = some ⟨p.addr.toNat / 128 * 128, p.body.extractLsb' 0 1024, true, p.poison⟩) ∧
    (∃ (t : State) (k : Pkt), exec (.evictClean p) s = .next t ∧ t.homes.filter = [] ∧ t.out = s.out ++ [k] ∧ k.opc = 0x26 ∧ k.status = 0 ∧
      k.host = p.host ∧ t.homes.lc = s.homes.lc)) ∧
  (∀ (s : State) (p : Pkt), Running s →
    ∃ (t : State) (k : Pkt), exec (.fwdData p) s = .next t ∧ t.out = s.out ++ [k] ∧ k.opc = 0x1E ∧ k.body = p.body ∧ k.host = p.host ∧
      k.port.val = s.rport p.host.toNat ∧ t.homes = s.homes ∧ t.mem = s.mem)

/-- Waiting requests age and are offered, and lines are taken back. At age 64 a waiting request gains priority and at age 512 it marks
its line with an event; the pending queue offers its oldest entry to the chain of a busy line; COH_BINV runs until no line of its
range is held and its dirty data are written, then DONE; SLOT_REVOKE frees an assigned slot and tells its adapter; an error in a
filter entry sends SnpInvWay to the adapter of its slot, and clears the entry of a slot that no adapter holds. -/
def Obligations.HomeQueuesAndInvalidation : Prop :=
  (∀ (s : State) (home : Fin 64), Running s →
    ∃ t : State, exec (.requestAgePriority home) s = .next t ∧
      t.homes.chain = s.homes.chain.map (fun e =>
        if e.1 = home.val ∧ 64 ≤ s.beat - e.2.arrive then (e.1, { e.2 with prio := true }) else e) ∧
      t.homes.pendq = s.homes.pendq.map (fun e =>
        if e.1 = home.val ∧ 64 ≤ s.beat - e.2.arrive then (e.1, { e.2 with prio := true }) else e) ∧
      t.homes.faultWait = s.homes.faultWait.map (fun f => match f.waiter with
        | .req r => if f.src = home.val ∧ 64 ≤ s.beat - r.arrive then { f with waiter := .req { r with prio := true } } else f
        | _ => f) ∧
      t.homes.txns = s.homes.txns ∧ t.mem = s.mem ∧ t.out = s.out) ∧
  (∀ (s : State) (home : Fin 64) (r : HomeReq), Running s → s.homes.chain = [] → s.homes.pendq = [(home.val, r)] →
    s.homes.chanWait = [] → s.homes.recs = [] → s.homes.faults = [] → s.homes.faultWait = [] →
    s.homes.starve = [] → r.op < 0x200 →
    exec (.starveMark home) s = .next (if s.beat - r.arrive < 512 then s else
      { s with homes := { s.homes with starve := [(home.val, r.line, r.host, r.tag)] },
               events := s.events ++ [⟨s.beat, 9, 672 + home.val, none⟩] })) ∧
  (∀ (s : State) (home : Fin 64) (r : HomeReq) (x : Txn), Running s → Plain s → s.homes.chain = [] →
    s.homes.pendq = [(home.val, r)] → s.homes.starve = [] → s.homes.jobs = [] → s.mir.readHeld = [] → s.disp.descs = [] →
    s.homes.txns = [x] → x.home = home.val → x.line = r.line → s.returning home.val = false →
    ∃ t : State, exec (.pendingQueueOffer home) s = .next t ∧ t.homes.pendq = [] ∧ t.homes.chain = [(home.val, r)] ∧
      t.homes.txns = [x] ∧ t.out = s.out) ∧
  (∀ (s : State) (home : Fin 64), Running s → s.homes.pendq = [] → s.disp.descs = [] →
    exec (.pendingQueueOffer home) s = .next s) ∧
  (∀ (s : State) (space : BitVec 10) (base : BitVec 32) (count : BitVec 16) (c : Cmd), Running s → Accepts s 672 c →
    s.on F.homeCohBinvBusy = false →
    (∀ e ∈ s.homes.filter, inRange space.toNat base.toNat count.toNat e = false) → s.homes.jobs = [] →
    ∃ t : State, exec (.cohBinv space base count c) s = .next t ∧ t.rd F.homeCohBinvBusy = 1 ∧ t.rd F.homeCohBinvDone = 0 ∧
      t.homes.jobs = [jobBinv] ∧ t.homes.txns = s.homes.txns ∧ t.homes.filter = s.homes.filter ∧ t.out = s.out) ∧
  (∀ (s : State) (space : BitVec 10) (base : BitVec 32) (count : BitVec 16) (c : Cmd), Running s → Accepts s 672 c →
    s.on F.homeCohBinvBusy = true →
    ∃ t : State, exec (.cohBinv space base count c) s = .next t ∧ t.homes = s.homes ∧ t.rd (F.hdrStateClamped 672) = 1) ∧
  (∀ (s : State) (k : Nat) (l : LcLine), Running s → s.disp.descs = [] → s.on F.homeCohBinvBusy = true →
    s.homes.chain = [] → s.homes.pendq = [] → s.homes.txns = [] → s.homes.lc = [(k, l)] → s.partFull (k * 128) = none →
    (∀ e ∈ s.homes.filter, e.2.st ≠ 0 →
      inRange (s.rd F.homeCohBinvSpace) (s.rd F.homeCohBinvBase) (s.rd F.homeCohBinvCount) e = false) →
    ptrSpace l.ptr = s.rd F.homeCohBinvSpace → s.rd F.homeCohBinvBase * 0x10000 ≤ ptrOff l.ptr →
    ptrOff l.ptr < (s.rd F.homeCohBinvBase + s.rd F.homeCohBinvCount) * 0x10000 →
    ∃ t : State, exec .cohBinvDone s = .next t ∧ t.rd F.homeCohBinvBusy = 0 ∧ t.rd F.homeCohBinvDone = 1 ∧
      t.homes.lc = [(k, { l with dirty := false })] ∧ t.homes.jobs = s.homes.jobs.filter (· ≠ jobBinv)) ∧
  (∀ (s : State) (x : Txn), Running s → x ∈ s.homes.txns → 0x200 ≤ x.req.op → x.req.job = jobBinv →
    exec .cohBinvDone s = .next s) ∧
  (∀ (s : State) (slot : BitVec 8) (c : Cmd), Running s → Accepts s 672 c → s.slotHost slot.toNat = none →
    ∃ t : State, exec (.slotRevoke slot c) s = .next t ∧ t.homes = s.homes ∧ t.hosts = s.hosts ∧
      t.rd (F.hdrStateClamped 672) = 1) ∧
  (∀ (s : State) (slot : BitVec 8) (c : Cmd) (h : Nat), Running s → Accepts s 672 c → Quiet s → s.homes.filter = [] →
    s.hosts.slots = [(slot.toNat, h)] → h < 4096 →
    ∃ (t : State) (k : Pkt), exec (.slotRevoke slot c) s = .next t ∧ t.slotHost slot.toNat = none ∧ (t.leaseOf h).slot = none ∧
      (t.leaseOf h).state = (s.leaseOf h).state ∧ t.out = s.out ++ [k] ∧ k.opc = 0x29 ∧ k.host.toNat = h ∧ t.homes.jobs = []) ∧
  (∀ (s : State) (home : Fin 64) (slot : BitVec 8) (set : BitVec 6) (way : BitVec 3) (h : Nat), Running s →
    Quiet s → s.on F.secPartCtlEn = false → s.returning home.val = false →
    s.slotHost slot.toNat = some h →
    ∃ (t : State) (x : Txn) (k : Pkt), exec (.filterEccError home slot set way) s = .next t ∧ t.homes.txns = [x] ∧ x.stage = .snoop ∧
      t.out = s.out ++ [k] ∧ k.opc = 0x13 ∧ k.way = way ∧ k.set = BitVec.ofNat 12 (home.val * 64 + set.toNat) ∧ k.binv = true ∧ k.host = BitVec.ofNat 12 h) ∧
  (∀ (s : State) (home : Fin 64) (slot : BitVec 8) (set : BitVec 6) (way : BitVec 3), Running s →
    s.slotHost slot.toNat = none →
    exec (.filterEccError home slot set way) s = .next (s.fClr (fKey home.val slot.toNat set.toNat way.toNat)))

/-- An atomic performed at home writes its new value and returns the old one. For each of the twelve operations a well-formed request of
a host without a coherent slot, to a line nobody holds, merges the new value of Table OPS-14 into the line and answers RspAtomic with
the old value; a size or alignment that the operation does not allow completes BAD_ATOMIC and changes no line; a tile's atomic is
performed in the same way and answered on the mesh. -/
def Obligations.AtomicsAtHome : Prop :=
  ∀ (n : Nat) (op : AtomSrc → Instr), (n, op) ∈ ([(1, .faddI), (2, .faddF32), (3, .faddBf16), (4, .cas), (5, .minS), (6, .maxS),
      (7, .minU), (8, .maxU), (9, .minF32), (10, .maxF32), (11, .vfaddF32), (12, .vfaddI32)] : List (Nat × (AtomSrc → Instr))) →
    (∀ (s : State) (p : Pkt) (g : Rgn) (e : Tlb) (l : LcLine), Ready s p 6 g e l → g.mode ≤ 1 → s.homes.filter = [] →
      s.partFull (leafDpa e.entry e.bits (ptrOff p.addr.toNat) / 128 * 128) = none →
      (s.leaseOf p.host.toNat).slot = none → l.poison = false → atomOk n p.size.toNat p.addr.toNat = true →
      ∃ (t : State) (k : Pkt) (m : LcLine), exec (op (.host p)) s = .next t ∧ t.homes.txns = [] ∧ t.out = s.out ++ [k] ∧ k.opc = 0x25 ∧ k.host = p.host ∧
        k.tag = p.tag ∧ k.body = BitVec.ofNat 2048 (atomOld l.data p.addr.toNat p.size.toNat) ∧ k.poison = false ∧
        t.lcGet (leafDpa e.entry e.bits (ptrOff p.addr.toNat) / 128 * 128) = some m ∧
        m.data = mergeLine l.data (atomPut l.data p.addr.toNat p.size.toNat
          (atomNew n p.size.toNat (atomOld l.data p.addr.toNat p.size.toNat) (p.body.extractLsb' 0 512).toNat))
          (atomMask p.addr.toNat p.size.toNat)) ∧
    (∀ (s : State) (p : Pkt) (g : Rgn) (e : Tlb) (l : LcLine), Ready s p 6 g e l →
      atomOk n p.size.toNat p.addr.toNat = false →
      ∃ (t : State) (k : Pkt), exec (op (.host p)) s = .next t ∧ t.out = s.out ++ [k] ∧ k.opc = 0x26 ∧ k.status = 0x0B ∧ t.mem = s.mem ∧
        t.homes.lc = s.homes.lc) ∧
    (∀ (s : State) (m : MPkt) (g : Rgn) (e : Tlb) (l : LcLine), TileReady s m g e l → g.mode ≤ 1 → s.homes.filter = [] →
      s.partFull (leafDpa e.entry e.bits (ptrOff m.addr.toNat) / 128 * 128) = none →
      l.poison = false → atomOk n m.size.toNat m.addr.toNat = true →
      ∃ (t : State) (k : MPkt) (x : LcLine), exec (op (.tile m)) s = .next t ∧ t.homes.txns = [] ∧ t.meshResp = s.meshResp ++ [k] ∧ k.status = 0 ∧
        k.dx = m.sx ∧ k.dy = m.sy ∧ k.flits = [(BitVec.ofNat 512 (atomOld l.data m.addr.toNat m.size.toNat), 0)] ∧
        t.lcGet (leafDpa e.entry e.bits (ptrOff m.addr.toNat) / 128 * 128) = some x ∧
        x.data = mergeLine l.data (atomPut l.data m.addr.toNat m.size.toNat
          (atomNew n m.size.toNat (atomOld l.data m.addr.toNat m.size.toNat) (m.flits.getD 0 (0, 0)).1.toNat))
          (atomMask m.addr.toNat m.size.toNat)) ∧
    (∀ (s : State) (m : MPkt), Running s → Quiet s → Come s m →
      atomOk n m.size.toNat m.addr.toNat = false →
      ∃ (t : State) (k : MPkt), exec (op (.tile m)) s = .next t ∧ t.meshResp = s.meshResp ++ [k] ∧ k.status = 0x0B ∧ k.dx = m.sx ∧ k.dy = m.sy ∧
        t.mem = s.mem ∧ t.homes = s.homes)

/-- Stagings are published, versions pinned and subscribers told. PUBLISH of the last accepted version with staged pages is accepted
as the next version and commits 8 beats and a sixteenth of the pages later; a stale version answers STALE, with the next commit where
one is pending, an empty staging EMPTY, and a fifth version RETAINED_FULL; the commit makes the version current, answers the
publisher and leaves one Notify for the region's subscribers; STAGE_DISCARD, SNAP_PIN, SNAP_UNPIN, SUBSCRIBE
and UNSUBSCRIBE do what they name or answer that there is nothing to do; pins end after PIN_TMO; a completed copy joins its page to
the staging. -/
def Obligations.PublishedRegions : Prop :=
  (∀ (s : State) (p : Pkt) (g : Rgn) (x : Staging), PubReady s p 0x30 g → s.stagingOf g.id p.host.toNat = some x →
    x.pages ≠ [] → bits p.body.toNat 127 64 = s.lastAccepted g → s.versionsTaken g < 4 →
    ∃ (t : State) (c : Commit), exec (.publish p) s = .next t ∧ t.pub.commits = s.pub.commits ++ [c] ∧ c.region = g.id ∧
      c.host = p.host.toNat ∧ c.version = s.lastAccepted g + 1 ∧ c.pages = x.pages ∧
      c.at_ = s.beat + 8 + ceilDiv x.pages.length 16 ∧ t.out = s.out ∧
      t.pub.stagings = s.pub.stagings.filter (fun y => !(y.region == g.id && y.host == p.host.toNat))) ∧
  (∀ (s : State) (p : Pkt) (g : Rgn), PubReady s p 0x30 g →
    (bits p.body.toNat 127 64 ≠ s.lastAccepted g → ∀ c ∈ s.pub.commits, c.region ≠ g.id) →
    (bits p.body.toNat 127 64 ≠ s.lastAccepted g ∨ ((s.stagingOf g.id p.host.toNat).map (·.pages)).getD [] = [] ∨
      4 ≤ s.versionsTaken g) →
    ∃ (t : State) (k : Pkt), exec (.publish p) s = .next t ∧ t.pub = s.pub ∧ t.out = s.out ++ [k] ∧ k.opc = 0x37 ∧
      k.host = p.host ∧ k.tag = p.tag ∧
      (if bits p.body.toNat 127 64 ≠ s.lastAccepted g then k.status = 2
       else if ((s.stagingOf g.id p.host.toNat).map (·.pages)).getD [] = [] then k.status = 1 else k.status = 3)) ∧
  (∀ (s : State) (p : Pkt) (g : Rgn) (c : Commit), PubReady s p 0x30 g → s.pub.commits = [c] → c.region = g.id →
    bits p.body.toNat 127 64 ≠ g.version + 1 →
    ∃ (t : State) (r : HomeReq), exec (.publish p) s = .next t ∧ t.out = s.out ∧
      t.pub.commits = [{ c with stale := c.stale ++ [r] }] ∧ r.host = p.host.toNat ∧ r.tag = p.tag.toNat) ∧
  (∀ (s : State) (region : BitVec 16), Running s → (∀ c ∈ s.pub.commits, c.region = region.toNat → s.beat < c.at_) →
    exec (.publishCommit region) s = .next s) ∧
  (∀ (s : State) (region : BitVec 16) (g : Rgn) (c : Commit), Running s → NoQueue s → Plain s → s.pub.commits = [c] →
    c.region = region.toNat → c.at_ ≤ s.beat → c.stale = [] → c.version < 2 ^ 64 →
    s.rgn? region.toNat = some g → g.tier ≠ 2 → (∀ x ∈ c.pages, s.leafHeld g.space (x.1 * 0x10000) = false) →
    c.rsp.tile = none → s.silent c.rsp = false →
    ∃ (t : State) (k : Pkt), exec (.publishCommit region) s = .next t ∧ t.pub.commits = [] ∧
      (t.rgn? region.toNat).map (·.version) = some c.version ∧ t.out = s.out ++ [k] ∧ k.opc = 0x37 ∧ k.status = 0 ∧
      k.host = BitVec.ofNat 12 c.rsp.host ∧
      ((∃ e ∈ s.pub.subs, e.1 = region.toNat) → s.hosts.carillon = [] → ∃ x : Carillon, t.hosts.carillon = [x] ∧
        x.hosts = (s.pub.subs.filter fun e => e.1 == region.toNat).map (·.2) ∧ x.pkt.opc = 0x36 ∧
        bits x.pkt.body.toNat 127 64 = c.version ∧ ∀ h ∈ x.hosts, tst x.mask (t.rport h) = true)) ∧
  (∀ (s : State) (p : Pkt) (g : Rgn), PubReady s p 0x31 g →
    ∃ (t : State) (k : Pkt), exec (.stageDiscard p) s = .next t ∧ t.stagingOf g.id p.host.toNat = none ∧
      (s.pub.copies = [] → t.out = s.out ++ [k] ∧ k.opc = 0x37 ∧
        k.status = (if (s.stagingOf g.id p.host.toNat).isSome then 0 else 5))) ∧
  (∀ (s : State) (p : Pkt) (g : Rgn), PubReady s p 0x32 g →
    ∃ (t : State) (k : Pkt), exec (.snapPin p) s = .next t ∧ t.out = s.out ++ [k] ∧ k.opc = 0x37 ∧
      (if 16 ≤ (s.pub.pins.filter fun x => x.holder == p.host.toNat).length then t.pub.pins = s.pub.pins ∧ k.status = 4
       else t.pub.pins = s.pub.pins ++ [⟨g.id, g.version, p.host.toNat, s.beat⟩] ∧ k.status = 0)) ∧
  (∀ (s : State) (p : Pkt) (g : Rgn) (x : Pin), PubReady s p 0x33 g → s.pub.pins = [x] → s.pub.olds = [] →
    ∃ (t : State) (k : Pkt), exec (.snapUnpin p) s = .next t ∧ t.out = s.out ++ [k] ∧ k.opc = 0x37 ∧
      (if x.region = g.id ∧ x.version = bits p.body.toNat 127 64 ∧ x.holder = p.host.toNat
       then t.pub.pins = [] ∧ k.status = 0 else t.pub.pins = [x] ∧ k.status = 5)) ∧
  (∀ (s : State) (region : BitVec 16) (host : BitVec 12), Running s →
    ∃ t : State, exec (.pinTimeout region host) s = .next t ∧ t.out = s.out ∧ t.pub.pins = s.pub.pins.filter (fun x =>
      !(x.region == region.toNat && (x.holder == host.toNat && x.holder < 0x10000 &&
        x.since + s.rd F.homePubCtlPinTmo * 31250 ≤ s.beat)))) ∧
  (∀ (s : State) (p : Pkt) (g : Rgn), PubReady s p 0x34 g →
    (s.pub.subs.filter fun e => pubHome e.1 == pubHome g.id).length < 4096 →
    ∃ (t : State) (k : Pkt), exec (.subscribe p) s = .next t ∧ t.out = s.out ++ [k] ∧ k.opc = 0x37 ∧ k.status = 0 ∧
      t.pub.subs = (if (g.id, p.host.toNat) ∈ s.pub.subs then s.pub.subs else s.pub.subs ++ [(g.id, p.host.toNat)])) ∧
  (∀ (s : State) (p : Pkt) (g : Rgn), PubReady s p 0x35 g →
    ∃ (t : State) (k : Pkt), exec (.unsubscribe p) s = .next t ∧ t.out = s.out ++ [k] ∧ k.opc = 0x37 ∧ (g.id, p.host.toNat) ∉ t.pub.subs ∧
      k.status = (if (g.id, p.host.toNat) ∈ s.pub.subs then 0 else 5)) ∧
  (∀ (s : State) (region : BitVec 16) (host : BitVec 12) (page : BitVec 32) (c : StagingCopy) (g : Rgn) (e : Tlb), Running s →
    s.pub.copies = [c] → c.region = region.toNat → c.host = host.toNat → c.page = page.toNat → c.waiting = [] →
    s.pub.stagings = [] → s.rgn? region.toNat = some g →
    s.tlbHit (pubHome region.toNat) g.space (page.toNat * 0x10000) = some e →
    s.frameHeld (bits e.entry 47 16) = false → s.frameHeld c.frame = false →
    ∃ t : State, exec (.stagingCopyComplete region host page) s = .next t ∧ t.pub.copies = [] ∧
      t.pub.stagings = [⟨region.toNat, host.toNat, [(page.toNat, c.frame)]⟩] ∧ t.out = s.out) ∧
  (∀ (s : State) (region : BitVec 16) (host : BitVec 12) (page : BitVec 32), Running s → s.pub.copies = [] →
    exec (.stagingCopyComplete region host page) s = .next s)

/-- The pair orders mirrored requests by stamps, serves alone and comes back. A stamp is acknowledged on receipt and kept until its
request has arrived; an acknowledgement releases the response that waited for it; a stamp without its request for the idempotence
window puts the chip out of step; a silent partner leaves the orderer alone with an event of class 5; MIR_SYNC.GO starts a
resynchronisation only while alone, which completes when nothing is left to copy; HANDOFF hands the ordering role over. -/
def Obligations.MirroredPair : Prop :=
  (∀ (s : State) (p : Pkt), Running s → s.mir.outOfStep = false → bits p.body.toNat 3 0 = 1 →
    bits p.body.toNat 193 182 ≠ 0xFFF → s.mir.held = [] → s.mir.handGot = [] → s.disp.descs = [] → s.hosts.routed = [] →
    ∃ (t : State) (k : Pkt), exec (.stamp p) s = .next t ∧ t.out = s.out ++ [k] ∧ k.opc = 0x2F ∧ k.port = p.port ∧
      bits k.body.toNat 181 128 = bits p.body.toNat 181 128 ∧
      t.mir.got = s.mir.got ++ [⟨bits p.body.toNat 133 128, bits p.body.toNat 181 134, bits p.body.toNat 193 182,
        bits p.body.toNat 208 194, bits p.body.toNat 240 209, s.beat⟩] ∧ t.homes = s.homes ∧ t.mem = s.mem) ∧
  (∀ (s : State) (p : Pkt) (m : Stamp) (w : MirWait) (k : Pkt), Running s → Plain s → s.disp.descs = [] →
    s.hosts.routed = [] → s.homes.txns = [] → s.mir.handoff = false → s.mir.sent = [m] → s.mir.waits = [w] → bits p.body.toNat 3 0 = 1 →
    m.home = bits p.body.toNat 133 128 → m.mseq = bits p.body.toNat 181 134 → m.host ≠ 0xFFF → w.req.host = m.host →
    w.req.tag = m.tag → w.req.seq = m.seq → w.req.tile = none → w.reply = [k] → s.silent w.req = false →
    ∃ (t : State) (q : Pkt), exec (.stampAck p) s = .next t ∧ t.mir.sent = [] ∧ t.mir.waits = [] ∧ t.out = s.out ++ [q] ∧ q.opc = k.opc ∧
      q.status = k.status ∧ q.body = k.body ∧ q.host = BitVec.ofNat 12 m.host) ∧
  (∀ (s : State) (p : Pkt), Running s → s.disp.descs = [] → s.hosts.routed = [] → s.mir.handoff = false → s.mir.sent = [] →
    exec (.stampAck p) s = .next s) ∧
  (∀ (s : State) (m : Stamp), Running s → s.orderer = false → s.mir.outOfStep = false → s.mir.got = [m] → s.mir.held = [] →
    exec .mirrorOutOfStep s = .next (if s.beat < m.beat + 312500 then s else
      { s with mir := { s.mir with outOfStep := true, held := [], got := [] },
               events := s.events ++ [⟨s.beat, 6, 672, none⟩] })) ∧
  (∀ (s : State) (m : Stamp), Running s → s.disp.descs = [] → s.on F.homeMirCtlEn = true → s.alone = false →
    s.mir.outOfStep = false → s.orderer = true → s.mir.sent = [m] → m.beat + s.rd F.homeMirCtlAckTmo ≤ s.beat →
    s.homes.regions = [] → s.homes.txns = [] → s.mir.waits = [] →
    ∃ t : State, exec .mirrorAlone s = .next t ∧ t.alone = true ∧ t.mir.sent = [] ∧ t.out = s.out ∧
      t.events = s.events ++ [⟨s.beat, 5, 672, none⟩]) ∧
  (∀ s : State, Running s → s.disp.descs = [] → (s.on F.homeMirCtlEn = false ∨ s.alone = true ∨ s.mir.outOfStep = true) →
    exec .mirrorAlone s = .next s) ∧
  (∀ (s : State) (c : Cmd), Running s → Accepts s 672 c → s.disp.descs = [] →
    (s.alone = false ∨ s.rd (F.fportLstatState s.partnerPort) ≠ 3 ∨ s.on F.homeMirSyncBusy = true) →
    ∃ t : State, exec (.mirSyncGo c) s = .next t ∧ t.mir = s.mir ∧ t.out = s.out ∧ t.rd (F.hdrStateClamped 672) = 1) ∧
  (∀ (s : State) (c : Cmd), Running s → Accepts s 672 c → s.disp.descs = [] → s.alone = true →
    s.rd (F.fportLstatState s.partnerPort) = 3 → s.on F.homeMirSyncBusy = false → s.homes.regions = [] →
    ∃ t : State, exec (.mirSyncGo c) s = .next t ∧ t.rd F.homeMirSyncBusy = 1 ∧ t.rd F.homeMirSyncDone = 0 ∧
      t.rd F.homeMirSyncProg = 0 ∧ t.mir.copyAt = none) ∧
  (∀ s : State, Running s → s.disp.descs = [] → s.on F.homeMirSyncBusy = true → s.mir.copyAt = none → s.mir.sent = [] →
    s.homes.txns = [] → s.homes.regions = [] →
    ∃ t : State, exec .mirSyncComplete s = .next t ∧ t.rd F.homeMirSyncBusy = 0 ∧ t.rd F.homeMirSyncDone = 1 ∧ t.alone = false) ∧
  (∀ s : State, Running s → s.disp.descs = [] → s.on F.homeMirSyncBusy = false → s.mir.returning = false →
    exec .mirSyncComplete s = .next s) ∧
  (∀ (s : State) (c : Cmd), Running s → Accepts s 672 c → s.disp.descs = [] → s.orderer = true →
    s.on F.homeMirSyncDone = true → s.mir.sent = [] →
    ∃ t : State, exec (.mirSyncHandoff c) s = .next t ∧ t.orderer = false ∧ t.out.length = s.out.length + 64 ∧
      t.mir.perf = s.mir.mseq) ∧
  (∀ (s : State) (c : Cmd), Running s → Accepts s 672 c → s.disp.descs = [] →
    (s.orderer = false ∨ s.on F.homeMirSyncDone = false) →
    ∃ t : State, exec (.mirSyncHandoff c) s = .next t ∧ t.mir = s.mir ∧ t.out = s.out ∧ t.rd (F.hdrStateClamped 672) = 1)

/-- Pages move between DRAM and flash step by step. A fill of an open COLD record takes the first free frame of the region's strength
and begins the move, or waits where none is free; the read of a promotion ends with the slot's content or, with an event, as lost, and
the read and the end of a promotion and of a demotion act only on a move in that stage; a demotion starts on the clock hand's victim
while the free list is low, and not while it is above its mark; one that is wanted again is undone; its end writes the slot of the
drive, where the page has no copy there, and gives the frame to the free list; a page is touched once in an epoch; an epoch clears the
touch filters; FREE_PUSH puts a frame of the installed DRAM outside the SRAM window at the end of its list. -/
def Obligations.FlashPageMoves : Prop :=
  (∀ (s : State) (home : Fin 64) (index : BitVec 8), Running s → s.homes.recs = [] →
    ∃ t : State, exec (.fillRequest home index) s = .next t ∧ t.mem = s.mem ∧ t.flash.moves = s.flash.moves ∧
      t.flash.fills = s.flash.fills.filter (· ≠ (home.val, index.toNat))) ∧
  (∀ (s : State) (home : Fin 64) (index : BitVec 8) (x : FaultRec) (g : Rgn), Running s → s.homes.recs = [x] →
    x.home = home.val → x.idx = index.toNat → x.state = 1 → x.cause = 1 → s.rgn? x.region = some g → s.flash.moves = [] →
    s.on (F.hdrStateInreset (852 + percOf x.page)) = false → leafLoc (s.leafOf x.space x.page) = 2 →
    0 < s.rd (F.percCtlMaxInflight (percOf x.page)) → s.freeList (percOf x.page) g.pcode = [] →
    s.flash.fills = [] →
    ∃ t : State, exec (.fillRequest home index) s = .next t ∧ t.flash.fills = [(home.val, index.toNat)] ∧ t.flash.moves = [] ∧
      t.mem = s.mem) ∧
  (∀ (s : State) (home : Fin 64) (index : BitVec 8) (x : FaultRec) (g : Rgn) (f : Nat) (fs : List Nat), Running s →
    s.homes.recs = [x] → x.home = home.val → x.idx = index.toNat → x.state = 1 → x.cause = 1 →
    s.rgn? x.region = some g → s.flash.moves = [] → s.on (F.hdrStateInreset (852 + percOf x.page)) = false →
    leafLoc (s.leafOf x.space x.page) = 2 → 0 < s.rd (F.percCtlMaxInflight (percOf x.page)) →
    s.leafHeld x.space (x.page * 0x10000) = false → s.freeList (percOf x.page) g.pcode = f :: fs →
    ∃ (t : State) (m : FMove), exec (.fillRequest home index) s = .next t ∧ t.flash.moves = [m] ∧ m.space = x.space ∧ m.page = x.page ∧
      m.frame = f ∧ m.demote = false ∧ m.stage = 0 ∧ m.handle = leafFrame (s.leafOf x.space x.page) ∧
      t.flash.free = s.flash.free.erase (percOf x.page, f)) ∧
  (∀ (s : State) (space : BitVec 10) (page : BitVec 32) (bad : Bool) (m : FMove), Running s → s.flash.moves = [m] →
    m.space = space.toNat → m.page = page.toNat → m.demote = false → m.stage = 0 →
    ∃ (t : State) (lost : Bool), exec (.promoteReadDone space page bad) s = .next t ∧
      t.flash.moves = [{ m with stage := 1, lost := lost }] ∧ t.out = s.out ∧
      (bad = false → (s.readSlot (m.handle / 2 ^ 28 % 16) m.handle space.toNat page.toNat).isSome = true → lost = false) ∧
      (lost = true → (⟨s.beat, 6, 852 + m.perc, none⟩ : Event) ∈ t.events)) ∧
  (∀ (s : State) (space : BitVec 10) (page : BitVec 32) (bad : Bool), Running s →
    (∀ m ∈ s.flash.moves, m.space = space.toNat → m.page = page.toNat → m.demote = true ∨ m.stage ≠ 0) →
    exec (.promoteReadDone space page bad) s = .next s) ∧
  (∀ (s : State) (space : BitVec 10) (page : BitVec 32) (m : FMove) (g : Rgn), Running s → s.flash.moves = [m] →
    m.space = space.toNat → m.page = page.toNat → m.demote = false → m.stage = 1 → s.rgn? m.region = some g →
    s.leafHeld space.toNat (page.toNat * 0x10000) = false → s.recHeld g page.toNat = none →
    s.homes.recs = [] → s.flash.fills = [] → s.disp.descs = [] →
    ∃ t : State, exec (.promotionEnd space page) s = .next t ∧ t.flash.moves = [] ∧ t.out = s.out) ∧
  (∀ (s : State) (space : BitVec 10) (page : BitVec 32), Running s → s.disp.descs = [] →
    (∀ m ∈ s.flash.moves, m.space = space.toNat → m.page = page.toNat → m.demote = true ∨ m.stage ≠ 1) →
    exec (.promotionEnd space page) s = .next s) ∧
  (∀ (s : State) (d : Fin 2) (zone : Fin 4), Running s → s.on (F.hdrStateInreset (852 + d.val)) = false →
    s.rd (F.percWmHighWm d.val) ≤ (s.freeList d.val zone.val).length →
    s.rd (F.percWmLowWm d.val) ≤ (s.freeList d.val zone.val).length → s.flash.fills = [] → s.flash.copies = [] →
    ∃ t : State, exec (.demotionStart d zone) s = .next t ∧ t.flash.moves = s.flash.moves ∧ t.mem = s.mem ∧
      (d.val, zone.val) ∉ t.flash.refilling) ∧
  (∀ (s : State) (d : Fin 2) (zone : Fin 4) (g : Rgn) (page idx : Nat), Running s → Quiet s → s.homes.filter = [] →
    s.on (F.hdrStateInreset (852 + d.val)) = false → (s.freeList d.val zone.val).length < s.rd (F.percWmLowWm d.val) →
    s.on (F.percCtlEn d.val) = true → s.on (F.percCtlPause d.val) = false → s.flash.fills = [] → s.flash.copies = [] →
    (s.flash.moves.filter fun m => m.perc == d.val).length < s.rd (F.percCtlMaxInflight d.val) →
    s.recentStarts d.val < s.rd (F.percWmDemRate d.val) → s.victim d.val zone.val = some (g, page, idx) →
    g.id < 2 ^ 16 → page < 2 ^ 32 →
    ∃ (t : State) (m : FMove), exec (.demotionStart d zone) s = .next t ∧ t.flash.moves = s.flash.moves ++ [m] ∧ m.demote = true ∧
      m.stage = 0 ∧ m.space = g.space ∧ m.page = page ∧ m.frame = leafFrame (s.leafOf g.space page) ∧ t.out = s.out) ∧
  (∀ (s : State) (space : BitVec 10) (page : BitVec 32), Running s → s.disp.descs = [] →
    (∀ m ∈ s.flash.moves, m.space = space.toNat → m.page = page.toNat → m.demote = false ∨ m.stage ≠ 0) →
    exec (.demoteReadDone space page) s = .next s) ∧
  (∀ (s : State) (space : BitVec 10) (page : BitVec 32) (m : FMove), Running s → NoQueue s → s.homes.txns = [] →
    s.flash.moves = [m] → m.space = space.toNat → m.page = page.toNat → m.demote = true → m.stage = 0 →
    s.wanted space.toNat page.toNat = true → s.flash.fills = [] → s.frameHeld m.frame = false → s.mir.got = [] →
    (∀ x ∈ s.homes.recs, x.waiters = []) →
    ∃ t : State, exec (.demoteReadDone space page) s = .next t ∧ t.flash.moves = [] ∧ t.wanted space.toNat page.toNat = false ∧
      t.out = s.out) ∧
  (∀ (s : State) (space : BitVec 10) (page : BitVec 32), Running s → s.disp.descs = [] →
    (∀ m ∈ s.flash.moves, m.space = space.toNat → m.page = page.toNat → m.demote = false ∨ m.stage ≠ 1) →
    exec (.demotionEnd space page) s = .next s) ∧
  (∀ (s : State) (space : BitVec 10) (page : BitVec 32) (m : FMove) (g : Rgn), Running s → s.disp.descs = [] →
    s.flash.moves = [m] → m.space = space.toNat → m.page = page.toNat → m.demote = true → m.stage = 1 →
    s.rgn? m.region = some g → s.wanted space.toNat page.toNat = false →
    s.leafHeld space.toNat (page.toNat * 0x10000) = false → s.recHeld g page.toNat = none → s.flash.fills = [] →
    (tst (s.pageRec g page.toNat) 41 = true ∨ (g.pcode = 0 ∧ s.drv (m.handle / 2 ^ 28 % 16) = 2)) →
    ∃ t : State, exec (.demotionEnd space page) s = .next t ∧ t.flash.moves = [] ∧
      t.flash.free = s.flash.free ++ [(m.perc, m.frame)] ∧
      (tst (s.pageRec g page.toNat) 41 = true → t.flash.slots = s.flash.slots) ∧
      (tst (s.pageRec g page.toNat) 41 = false →
        (SMap.get slot0 t.flash.slots (slotKey (m.handle / 2 ^ 28 % 16) m.handle m.page)).data = m.data)) ∧
  (∀ (s : State) (home : Fin 64) (space : BitVec 10) (page : BitVec 32) (g : Rgn), Running s →
    s.rgnAt space.toNat (page.toNat * 0x10000) = some g → g.tier = 2 → 0 < s.rd F.percAreaRecLen →
    s.recHeld g page.toNat = none → s.flash.touched = [] → s.flash.touches = [] →
    ∃ t : State, exec (.touch home space page) s = .next t ∧ t.flash.touched = [(home.val, space.toNat, page.toNat)] ∧
      exec (.touch home space page) t = .next t) ∧
  (∀ (s : State) (home : Fin 64) (space : BitVec 10) (page : BitVec 32),  Running s →
    s.rgnAt space.toNat (page.toNat * 0x10000) = none → exec (.touch home space page) s = .next s) ∧
  (∀ (s : State) (d : Fin 2), Running s → s.flash.epochAt.length = 2 →
    s.flash.epochAt.getD d.val 0 + s.rd (F.percCtlEpoch d.val) * 31250 ≤ s.beat →
    (∀ g ∈ s.tieredRgns, ∀ p ∈ g.pages, percOf p = d.val → s.recHeld g p = none) →
    ∃ t : State, exec (.heatEpoch d) s = .next t ∧ t.flash.epochAt.getD d.val 0 = s.beat ∧
      t.flash.touched = s.flash.touched.filter (fun x => percOf x.2.2 ≠ d.val)) ∧
  (∀ (s : State) (d : Fin 2), Running s →
    s.beat < s.flash.epochAt.getD d.val 0 + s.rd (F.percCtlEpoch d.val) * 31250 → exec (.heatEpoch d) s = .next s) ∧
  (∀ (s : State) (d : Fin 2) (frame : BitVec 32) (c : Cmd), Running s → Accepts s (852 + d.val) c → s.flash.fills = [] →
    ∃ t : State, exec (.freePush d frame c) s = .next t ∧
      (if frame.toNat * 0x10000 + 0x10000 ≤ s.dramTop ∧ s.inSram frame.toNat = false then t.flash.free = s.flash.free ++ [(d.val, frame.toNat)]
       else t.flash.free = s.flash.free ∧ t.rd (F.hdrStateClamped (852 + d.val)) = 1))

/-- Drives are admitted, fail, retire and leave. A drive that meets Table FLS-4 comes into service empty and another one is FAILED, and what
it showed of itself is kept; an overdue command, a fatal status, a critical warning or a lost link fails a serving drive with its cause and an event; RETIRE starts a
move off the drive, which ends RETIRED once it holds nothing; an inbound request outside the port's own buffers is refused and
counted. -/
def Obligations.Drives : Prop :=
  (∀ (s : State) (n : Fin 16) (l : DriveLink) (i : DriveInfo), Running s → s.drv n.val = 0 → s.on (F.nvpDrvEn n.val) = true →
    s.on (F.nvpDrvSlotOff n.val) = false →
    ∃ t : State, exec (.driveLinkUp n l i) s = .next t ∧ t.drv n.val = (if driveOk l i = true then 2 else 5) ∧
      t.rd (F.nvpDrvCause n.val) = (if driveOk l i = true then 0 else 1) ∧ (n.val, l, i) ∈ t.flash.info ∧
      (driveOk l i = true → t.rd (F.nvpDrvExtents n.val) = min i.extents.toNat (2 ^ 28 - 1) ∧
        ∀ e ∈ t.flash.slots, e.1 / 2 ^ 32 ≠ n.val)) ∧
  (∀ (s : State) (n : Fin 16) (l : DriveLink) (i : DriveInfo), Running s →
    (s.drv n.val ≠ 0 ∨ s.on (F.nvpDrvEn n.val) = false ∨ s.on (F.nvpDrvSlotOff n.val) = true) →
    exec (.driveLinkUp n l i) s = .next s) ∧
  (∀ (s : State) (n : Fin 16) (m : FMove), Running s → s.disp.descs = [] → s.flash.moves = [m] →
    m.handle / 2 ^ 28 % 16 = n.val → m.demote = false → m.stage = 0 →
    m.since + 625000 ≤ s.beat → s.drv n.val = 2 →
    ∃ t : State, exec (.driveCommandTimeout n) s = .next t ∧ t.drv n.val = 5 ∧ t.rd (F.nvpDrvCause n.val) = 2 ∧
      t.events = s.events ++ [⟨s.beat, 6, 832 + n.val, none⟩]) ∧
  (∀ (s : State) (n : Fin 16), Running s → s.disp.descs = [] →
    (∀ m ∈ s.flash.moves, s.beat < m.since + (if m.demote = true then 6250000 else 625000)) →
    exec (.driveCommandTimeout n) s = .next s) ∧
  (∀ (s : State) (n : Fin 16) (warning : Bool), Running s → s.disp.descs = [] → s.flash.moves = [] →
    s.drvReads n.val = true →
    ∃ t : State, exec (.driveFatal n warning) s = .next t ∧ t.drv n.val = 5 ∧
      t.rd (F.nvpDrvCause n.val) = (if warning = true then 4 else 3) ∧
      t.events = s.events ++ [⟨s.beat, 6, 832 + n.val, none⟩]) ∧
  (∀ (s : State) (n : Fin 16), Running s → s.disp.descs = [] → s.flash.moves = [] → s.drvReads n.val = true →
    ∃ t : State, exec (.rootPortLinkDown n) s = .next t ∧ t.drv n.val = 5 ∧ t.rd (F.nvpDrvCause n.val) = 5 ∧
      t.events = s.events ++ [⟨s.beat, 5, 832 + n.val, none⟩]) ∧
  (∀ (s : State) (n : Fin 16), Running s → s.disp.descs = [] → s.drv n.val = 4 →
    ∃ t : State, exec (.rootPortLinkDown n) s = .next t ∧ t.drv n.val = 0 ∧ t.events = s.events) ∧
  (∀ (s : State) (n : Fin 16) (c : Cmd), Running s → Accepts s (832 + n.val) c → s.drv n.val = 2 →
    s.on (F.nvpDrvRetire n.val) = false → s.on (F.nvpDrvSlotOff n.val) = false →
    ∃ t : State, exec (.driveRetire n c) s = .next t ∧ t.drv n.val = 3 ∧
      (s.extentsOn n.val = [] → t.flash = s.flash)) ∧
  (∀ (s : State) (n : Fin 16), Running s → s.disp.descs = [] → s.drv n.val = 3 → s.extentsOn n.val = [] →
    (∀ m ∈ s.flash.moves, s.moveOn m n.val = false) →
    ∃ t : State, exec (.driveRetired n) s = .next t ∧ t.drv n.val = 4 ∧ t.rd (F.nvpDrvCause n.val) = 6 ∧
      n.val ∈ t.flash.shut ∧ ∀ u ∈ t.flash.used, u.1 ≠ n.val) ∧
  (∀ (s : State) (n : Fin 16), Running s → s.disp.descs = [] → s.drv n.val ≠ 3 → exec (.driveRetired n) s = .next s) ∧
  (∀ (s : State) (n : Fin 16) (own : Bool), Running s →
    ∃ t : State, exec (.driveInboundRequest n own) s = .next t ∧ t.mem = s.mem ∧ t.flash.inbound = s.flash.inbound ++ [(n.val, own)] ∧
      SMap.get 0 t.flash.refused n.val = SMap.get 0 s.flash.refused n.val + (if own = true then 0 else 1))

/-- The S slot computes on scalar registers, and results arrive one cycle after issue. Each operation of a core that can issue puts
exactly its own result on the way and advances the bundle index; s0 reads zero and discards what arrives; an effect reaches its register,
accumulator or bank when the clock reaches its cycle; branches of a dynamic phase take effect two cycles later and do nothing in a
pattern phase; END ends the core's part; and a stalled core holds its operations in order. -/
def Obligations.ScalarOperations : Prop :=
  (∀ (f : Word → Word → Word) (op : CoreAt → BitVec 5 → BitVec 5 → BitVec 5 → Instr),
    (f, op) ∈ ([((fun x y => x + y), .add), ((fun x y => x - y), .sub), ((fun x y => x &&& y), .and), ((fun x y => x ||| y), .or),
      ((fun x y => x ^^^ y), .xor), ((fun x y => x <<< (y.toNat % 64)), .shl), ((fun x y => x >>> (y.toNat % 64)), .shr),
      ((fun x y => x.sshiftRight (y.toNat % 64)), .sra), ((fun x y => x * y), .mul), ((fun x y => if x.slt y then 1 else 0), .slt),
      ((fun x y => if x.ult y then 1 else 0), .sltu), ((fun x y => if y.slt x then y else x), .min),
      ((fun x y => if x.slt y then y else x), .max)] :
      List ((Word → Word → Word) × (CoreAt → BitVec 5 → BitVec 5 → BitVec 5 → Instr))) →
    ∀ (s : State) (a : CoreAt) (rd ra rb : BitVec 5), CoreReady s a →
      ∃ t : State, exec (op a rd ra rb) s = .next t ∧ OneEffect s t a 1 0 (.sreg rd.toNat (f (sregOf s a ra).val (sregOf s a rb).val)
          ((sregOf s a ra).poison || (sregOf s a rb).poison))) ∧
  (∀ (f : Word → Word → Word) (op : CoreAt → BitVec 5 → BitVec 5 → BitVec 8 → Instr),
    (f, op) ∈ ([((fun x y => x + y), .addi), ((fun x y => x &&& y), .andi), ((fun x y => x ||| y), .ori),
      ((fun x y => x ^^^ y), .xori), ((fun x y => x <<< (y.toNat % 64)), .shli), ((fun x y => x >>> (y.toNat % 64)), .shri),
      ((fun x y => x.sshiftRight (y.toNat % 64)), .srai)] :
      List ((Word → Word → Word) × (CoreAt → BitVec 5 → BitVec 5 → BitVec 8 → Instr))) →
    ∀ (s : State) (a : CoreAt) (rd ra : BitVec 5) (imm : BitVec 8), CoreReady s a →
      ∃ t : State, exec (op a rd ra imm) s = .next t ∧ OneEffect s t a 1 0 (.sreg rd.toNat (f (sregOf s a ra).val (imm.signExtend 64))
          (sregOf s a ra).poison)) ∧
  (∀ (s : State) (a : CoreAt) (rd : BitVec 5) (imm : BitVec 13), CoreReady s a →
    (∃ t : State, exec (.li a rd imm) s = .next t ∧ OneEffect s t a 1 0 (.sreg rd.toNat (imm.signExtend 64) false)) ∧
    (∃ t : State, exec (.lih a rd imm) s = .next t ∧ OneEffect s t a 1 0
      (.sreg rd.toNat (((sregOf s a rd).val <<< 13) ||| imm.zeroExtend 64) (sregOf s a rd).poison))) ∧
  (∀ (s : State) (a : CoreAt) (rd sel : BitVec 5) (i : Inst) (p : Placement), CoreReady s a →
    s.instAt a.tile.val a.core.val = some i → i.place = some p.num → s.place? p.num = some p →
    ∃ t : State, exec (.rdsp a rd sel) s = .next t ∧ Issues s t a 0 ∧
      (6 < sel.toNat → t.tiles.pend = []) ∧
      ∀ v, (sel.toNat, v) ∈ [(0, a.core.val), (1, s.rd (F.tileStateSite a.tile.val)), (2, i.round),
          (3, (s.core (coreKey a)).flags), (4, i.descAt), (5, p.sites.length), (6, siteNum (s.rd (F.tileStateSite a.tile.val)))] →
        OneEffect s t a 1 0 (.sreg rd.toNat (BitVec.ofNat 64 v) false)) ∧
  (∀ (c : Word → Word → Bool) (op : CoreAt → BitVec 5 → BitVec 5 → BitVec 8 → Instr),
    (c, op) ∈ ([((fun x y => x == y), .beq), ((fun x y => x != y), .bne), ((fun x y => x.slt y), .blt),
      ((fun x y => !(x.slt y)), .bge)] : List ((Word → Word → Bool) × (CoreAt → BitVec 5 → BitVec 5 → BitVec 8 → Instr))) →
    ∀ (s : State) (a : CoreAt) (ra rb : BitVec 5) (target : BitVec 8), CoreReady s a →
      (s.inPattern a.tile.val a.core.val = true → exec (op a ra rb target) s = .next s) ∧
      (InDynamic s a → (s.core (coreKey a)).branch = none → (sregOf s a ra).poison = false → (sregOf s a rb).poison = false →
        ∃ t : State, exec (op a ra rb target) s = .next t ∧ Issues s t a 0 ∧ t.tiles.pend = [] ∧ t.disp = s.disp ∧
          (t.core (coreKey a)).branch = (if c (sregOf s a ra).val (sregOf s a rb).val = true
            then some (issueCycle s a 0 + 2, target.toNat) else none)) ∧
      (∀ i, InDynamic s a → RunsAlone s a i → ((sregOf s a ra).poison || (sregOf s a rb).poison) = true →
        ∃ t : State, exec (op a ra rb target) s = .next t ∧ EndsPoisoned s t a 0 i)) ∧
  (∀ (s : State) (a : CoreAt) (target : BitVec 8), CoreReady s a → InDynamic s a →
    ∃ t : State, exec (.jmp a target) s = .next t ∧ Issues s t a 0 ∧ t.tiles.pend = [] ∧
      (t.core (coreKey a)).branch = some (issueCycle s a 0 + 2, target.toNat)) ∧
  (∀ (s : State) (a : CoreAt), CoreReady s a → InDynamic s a →
    ∃ t : State, exec (.coreEnd a) s = .next t ∧ Issues s t a 0 ∧ t.tiles.pend = [] ∧ (t.core (coreKey a)).ended = true) ∧
  (∀ (s : State) (a : CoreAt) (target : BitVec 8), Running s → s.inPattern a.tile.val a.core.val = true →
    exec (.jmp a target) s = .next s ∧ exec (.coreEnd a) s = .next s) ∧
  (∀ (s : State) (a : CoreAt), CoreReady s a →
    ∃ t : State, exec (.nop a) s = .next t ∧ Issues s t a 4 ∧ t.tiles.pend = [] ∧
      ((s.core (coreKey a)).branch = none →
        (t.core (coreKey a)).pc = ((s.core (coreKey a)).pc + (issueCycle s a 4 - (s.core (coreKey a)).cyc)) % 256) ∧
      ∀ b g, (s.core (coreKey a)).branch = some (b, g) → b ≤ issueCycle s a 4 →
        (t.core (coreKey a)).pc = (g + (issueCycle s a 4 - b)) % 256 ∧ (t.core (coreKey a)).branch = none) ∧
  (∀ (s : State) (a : CoreAt) (n slot : Nat) (e : Effect), CoreOn s a →
    s.tiles.pend = [⟨a.tile.val, a.core.val, n, slot, e⟩] → n ≤ issueCycle s a 4 →
    ∃ t : State, exec (.nop a) s = .next t ∧
      (∀ (r : BitVec 5) v p, e = .sreg r.toNat v p → t.tiles.pend = [] ∧
        sregOf t a r = (if r = 0 then ⟨0, false⟩ else ⟨v, p⟩) ∧ ∀ q, q ≠ r → sregOf t a q = sregOf s a q) ∧
      (∀ (r : BitVec 6) v m p pm, e = .vreg r.toNat v m p pm → t.tiles.pend = [] ∧
        vregOf t a r = ⟨((vregOf s a r).val &&& ~~~m) ||| (v &&& m), ((vregOf s a r).poison &&& ~~~pm) ||| (p &&& pm)⟩ ∧
        ∀ q, q ≠ r → vregOf t a q = vregOf s a q) ∧
      (∀ (x : BitVec 2) q p, e = .accz x.toNat q p → t.tiles.pend = [] ∧
        ∀ l, l < 8 → (t.core (coreKey a)).acc x.toNat l = { acc0 with q := q, poison := p })) ∧
  (∀ (s : State) (a : CoreAt) (v : BitVec 32) (cc : Nat), Running s → s.tileState a.tile.val ≤ 1 → s.pwr.halt = none →
    s.on (F.hdrStateInreset a.tile.val) = false → InDynamic s a → MeshStill s → s.tiles.pend = [] → (s.core (coreKey a)).held = [] →
    (s.core (coreKey a)).waiting = some (cc, v) → (SMap.get 0#32 s.tiles.counts (16 * a.tile.val + cc) - v).toInt < 0 →
    ∃ t : State, exec (.nop a) s = .next t ∧ (t.core (coreKey a)).held = [.nop a] ∧
      (t.core (coreKey a)).waiting = some (cc, v) ∧ (t.core (coreKey a)).cyc = (s.core (coreKey a)).cyc)

/-- The M slot reaches scratchpad, the mesh and the counters. An access reaches its bank one cycle after issue, in the lane order of its
bytes; there a load is delivered two cycles later, a store writes, SEND and SENDE put a half-block at the router a cycle later, and DREQ
reads its packet and sends it; DLD asks the home of a line within the congestion window; WAITC, RDC and CLRC wait for, read and set a
counter, and CLRC lets a core that waits go on; the dynamic operations do nothing in a pattern phase; a poisoned address, counter target
or slot entry ends the instance of the core. -/
def Obligations.MemoryOperations : Prop :=
  (∀ (s : State) (a : CoreAt) (vr : BitVec 6) (ra : BitVec 5) (off : BitVec 12), CoreReady s a → (sregOf s a ra).poison = false →
    (∃ t : State, exec (.vld a vr ra off) s = .next t ∧ OneEffect s t a 1 1
      (.bank (addrA (sregOf s a ra).val off 32) 32 (s.inPattern a.tile.val a.core.val) (.load vr.toNat))) ∧
    (∃ t : State, exec (.vst a vr ra off) s = .next t ∧ OneEffect s t a 1 1
      (.bank (addrA (sregOf s a ra).val off 32) 32 (s.inPattern a.tile.val a.core.val) (.store
        ((List.range 32).map fun i => ((vregOf s a vr).val.extractLsb' (8 * i) 8, (vregOf s a vr).bad (i / 4)))))) ∧
    (∃ t : State, exec (.send a ra off) s = .next t ∧ OneEffect s t a 1 1
      (.bank (addrA (sregOf s a ra).val off 64) 64 (s.inPattern a.tile.val a.core.val) .half)) ∧
    (∃ t : State, exec (.sende a ra off) s = .next t ∧ OneEffect s t a 1 1
      (.bank (addrA (sregOf s a ra).val off 64) 64 (s.inPattern a.tile.val a.core.val) .entry)) ∧
    (InDynamic s a → ∃ t : State, exec (.dreq a ra off) s = .next t ∧ OneEffect s t a 1 1
      (.bank (addrA (sregOf s a ra).val off 32) 32 false (.packet []))) ∧
    ∀ rd : BitVec 5,
      (∃ t : State, exec (.sld a rd ra off) s = .next t ∧ OneEffect s t a 1 1
        (.bank (addrA (sregOf s a ra).val off 8) 8 (s.inPattern a.tile.val a.core.val) (.sload rd.toNat))) ∧
      (∃ t : State, exec (.sst a rd ra off) s = .next t ∧ OneEffect s t a 1 1
        (.bank (addrA (sregOf s a ra).val off 8) 8 (s.inPattern a.tile.val a.core.val) (.store
          ((List.range 8).map fun i => ((sregOf s a rd).val.extractLsb' (8 * i) 8, (sregOf s a rd).poison)))))) ∧
  (∀ (s : State) (a : CoreAt) (addr w slot : Nat) (act : Bank), CoreOn s a → BanksFree s a (issueCycle s a 4) →
    s.tiles.pend = [⟨a.tile.val, a.core.val, issueCycle s a 4, slot, .bank addr w false act⟩] →
    ∃ t : State, exec (.nop a) s = .next t ∧
      (∀ r, act = .load r → ∃ (v : BitVec 256) (p : BitVec 8),
        t.tiles.pend = [⟨a.tile.val, a.core.val, issueCycle s a 4 + 2, slot, .vreg r v (BitVec.allOnes 256) p 0xFF⟩] ∧
        ∀ j, j < 8 → p.getLsbD j = s.spadPois a.tile.val (addr + 4 * j) ∧ (p.getLsbD j = false →
          elemOf v 32 j = leNat (s.spadRead a.tile.val (addr + 4 * j) 4))) ∧
      (∀ r, act = .sload r → ∃ v : Word,
        t.tiles.pend = [⟨a.tile.val, a.core.val, issueCycle s a 4 + 2, slot, .sreg r v (s.spadPois a.tile.val addr)⟩] ∧
        (s.spadPois a.tile.val addr = false → v.toNat = leNat (s.spadRead a.tile.val addr 8))) ∧
      (∀ bs, act = .store bs → t.tiles.pend = [] ∧ ∀ x, t.spadByte a.tile.val x =
        (s.spadWrite a.tile.val addr bs).spadByte a.tile.val x) ∧
      (act = .half → t.tiles.pend = [⟨a.tile.val, a.core.val, issueCycle s a 4 + 1, slot,
        .send (s.spadFlit a.tile.val addr).1 (s.spadFlit a.tile.val addr).2⟩]) ∧
      (act = .entry → (s.spadFlit a.tile.val addr).2 = 0 → t.tiles.pend = [⟨a.tile.val, a.core.val, issueCycle s a 4 + 1, slot,
        .send (s.spadFlit a.tile.val addr).1 0⟩]) ∧
      (∀ i, act = .entry → (s.spadFlit a.tile.val addr).2 ≠ 0 → RunsAlone s a i →
        t.tiles.pend = [] ∧ t.disp.insts = [{ i with stopping := some 0x13 }]) ∧
      (∀ i, act = .packet [] → s.spadBad a.tile.val addr 32 = true → RunsAlone s a i →
        t.tiles.pend = [] ∧ t.disp.insts = [{ i with stopping := some 0x13 }]) ∧
      (act = .packet [] → s.spadBad a.tile.val addr 32 = false → t.tiles.pend = [⟨a.tile.val, a.core.val, issueCycle s a 4 + 1, slot,
        .bank ((addr + 32) % 2 ^ 20) w false (.packet [(BitVec.ofNat 256 (leNat (s.spadRead a.tile.val addr 32)), false)])⟩]) ∧
      (∀ h : BitVec 256, act = .packet [(h, false)] → bits h.toNat 42 38 = 0 →
        (s.tiles.sent.filter fun e => e.1 == a.tile.val).length ≥ s.rd (F.tileCongW a.tile.val) →
        t.tiles.inject = s.tiles.inject ++ [{ mpktOf h.toNat (BitVec.ofNat 256 (leNat (s.spadRead a.tile.val addr 32)))
          (s.spadBad a.tile.val addr 32) [] with
            sx := BitVec.ofNat 6 (tileX a.tile.val), sy := BitVec.ofNat 5 (tileY a.tile.val), cls := false, ce := false, cee := false,
            seq := BitVec.ofNat 16 (SMap.get 0 s.tiles.seqs a.tile.val) }])) ∧
  (∀ (s : State) (a : CoreAt) (rd ra : BitVec 5) (vr : BitVec 6) (cc : BitVec 4) (off : BitVec 12) (i : Inst), CoreReady s a →
    (∀ e ∈ s.tiles.cores, e.2.held = []) →
    (s.inPattern a.tile.val a.core.val = true → ∀ op ∈ [Instr.dreq a ra off, .dld a vr ra cc, .waitc a cc ra, .clrc a cc ra],
      exec op s = .next s) ∧
    ((sregOf s a ra).poison = true → RunsAlone s a i → InDynamic s a →
      ∀ op ∈ [Instr.vld a vr ra off, .vst a vr ra off, .sld a rd ra off, .sst a rd ra off, .send a ra off, .sende a ra off,
          .dreq a ra off, .dld a vr ra cc, .waitc a cc ra, .clrc a cc ra],
        ∃ t : State, exec op s = .next t ∧ EndsPoisoned s t a 1 i)) ∧
  (∀ (s : State) (a : CoreAt) (vr : BitVec 6) (ra : BitVec 5) (cc : BitVec 4), CoreReady s a → InDynamic s a →
    (sregOf s a ra).poison = false →
    ∃ (t : State) (m : MPkt), exec (.dld a vr ra cc) s = .next t ∧ m.op = 0x21 ∧ m.addr = (sregOf s a ra).val ∧ m.cc = cc ∧
      m.sx = BitVec.ofNat 6 (tileX a.tile.val) ∧ m.sy = BitVec.ofNat 5 (tileY a.tile.val) ∧
      m.dx = (if homeOfPtr (sregOf s a ra).val.toNat < 32 then 62 else 63) ∧
      m.dy = BitVec.ofNat 5 (homeOfPtr (sregOf s a ra).val.toNat % 24) ∧
      t.tiles.dlds = [⟨a.tile.val, SMap.get 0 s.tiles.seqs a.tile.val, a.core.val, vr.toNat⟩] ∧
      ((s.tiles.sent.filter fun e => e.1 == a.tile.val).length < s.rd (F.tileCongW a.tile.val) →
        t.tiles.mesh = s.tiles.mesh ++ [m] ∧ t.tiles.sent = s.tiles.sent ++ [(a.tile.val, SMap.get 0 s.tiles.seqs a.tile.val)]) ∧
      (s.rd (F.tileCongW a.tile.val) ≤ (s.tiles.sent.filter fun e => e.1 == a.tile.val).length →
        t.tiles.mesh = s.tiles.mesh ∧ t.tiles.inject = s.tiles.inject ++ [m])) ∧
  (∀ (s : State) (a : CoreAt) (cc : BitVec 4) (ra : BitVec 5), CoreReady s a → (sregOf s a ra).poison = false →
    (InDynamic s a → ∃ t : State, exec (.waitc a cc ra) s = .next t ∧ Issues s t a 1 ∧ (t.core (coreKey a)).waiting =
      some (cc.toNat, (sregOf s a ra).val.extractLsb' 0 32)) ∧
    (InDynamic s a → (∀ e ∈ s.tiles.cores, e.2.held = []) →
      ∃ t : State, exec (.clrc a cc ra) s = .next t ∧ (t.core (coreKey a)).cyc = issueCycle s a 1 ∧
        SMap.get 0#32 t.tiles.counts (16 * a.tile.val + cc.toNat) = (sregOf s a ra).val.extractLsb' 0 32 ∧
        ∀ k, k ≠ 16 * a.tile.val + cc.toNat → SMap.get 0#32 t.tiles.counts k = SMap.get 0#32 s.tiles.counts k)) ∧
  (∀ (s : State) (a : CoreAt) (cc : BitVec 4) (ra : BitVec 5), CoreReady s a →
    ∃ t : State, exec (.rdc a cc ra) s = .next t ∧ OneEffect s t a 1 1 (.sreg ra.toNat
      ((SMap.get 0#32 s.tiles.counts (16 * a.tile.val + cc.toNat)).zeroExtend 64) false)) ∧
  (∀ (s : State) (a b : CoreAt) (cc : BitVec 4) (ra : BitVec 5) (v : BitVec 32), CoreReady s a → InDynamic s a → InDynamic s b →
    (sregOf s a ra).poison = false → b.tile = a.tile → b.core ≠ a.core → (s.core (coreKey b)).held = [.nop b] →
    (s.core (coreKey b)).waiting = some (cc.toNat, v) →
    (∀ e ∈ s.tiles.cores, e.2.held ≠ [] → e = (coreKey b, s.core (coreKey b))) →
    ∃ t : State, exec (.clrc a cc ra) s = .next t ∧ (t.core (coreKey b)).held =
      (if ((sregOf s a ra).val.extractLsb' 0 32 - v).toInt < 0 then [.nop b] else []))

/-- The V slot and the special functions compute lane by lane. Each lane of unpoisoned operands has the value of the format's operation
four cycles after issue (eight for the special functions), a poisoned operand lane poisons its result lane, and the flags of the
unpoisoned lanes are added to the core's sticky flags; VRED sums in its fixed order; dot products go to vd or, as terms, to the exact
accumulator; reserved forms issue nothing. -/
def Obligations.VectorOperations : Prop :=
  (∀ (useD : Bool) (f : BitVec 3 → Nat → Nat → Nat → Nat × Nat) (op : CoreAt → BitVec 6 → BitVec 6 → BitVec 6 → BitVec 3 → Instr),
    (useD, f, op) ∈ ([(true, (fun rm x y z => fmaF32 (roundV rm.toNat).1 x y z), .vfma),
      (false, (fun rm x y _ => addF32 (roundV rm.toNat).1 x y), .vadd),
      (false, (fun rm x y _ => addF32 (roundV rm.toNat).1 x (negF32 y)), .vsub),
      (false, (fun rm x y _ => mulF32 (roundV rm.toNat).1 x y), .vmul)] :
      List (Bool × (BitVec 3 → Nat → Nat → Nat → Nat × Nat) × (CoreAt → BitVec 6 → BitVec 6 → BitVec 6 → BitVec 3 → Instr))) →
    ∀ (s : State) (a : CoreAt) (vd va vb : BitVec 6) (rm : BitVec 3) (bad : Nat → Bool), CoreReady s a →
      (∀ j, bad j = ((vregOf s a va).bad j || (vregOf s a vb).bad j || (useD && (vregOf s a vd).bad j))) →
      ∃ t : State, exec (op a vd va vb rm) s = .next t ∧
        WritesLanes s t a 4 2 vd bad (fun j => (f rm ((vregOf s a va).lane j) ((vregOf s a vb).lane j) ((vregOf s a vd).lane j)).1) ∧
        AddsFlags s t a bad (fun j =>
          (f rm ((vregOf s a va).lane j) ((vregOf s a vb).lane j) ((vregOf s a vd).lane j)).2 ||| (roundV rm.toNat).2)) ∧
  (∀ (f : Nat → Nat → Nat × Nat) (op : CoreAt → BitVec 6 → BitVec 6 → BitVec 6 → Instr),
    (f, op) ∈ ([((fun x y => maxMinF32 true x y), .vmax), ((fun x y => maxMinF32 false x y), .vmin)] :
      List ((Nat → Nat → Nat × Nat) × (CoreAt → BitVec 6 → BitVec 6 → BitVec 6 → Instr))) →
    ∀ (s : State) (a : CoreAt) (vd va vb : BitVec 6) (bad : Nat → Bool), CoreReady s a →
      (∀ j, bad j = ((vregOf s a va).bad j || (vregOf s a vb).bad j)) →
      ∃ t : State, exec (op a vd va vb) s = .next t ∧
        WritesLanes s t a 4 2 vd bad (fun j => (f ((vregOf s a va).lane j) ((vregOf s a vb).lane j)).1) ∧
        AddsFlags s t a bad (fun j => (f ((vregOf s a va).lane j) ((vregOf s a vb).lane j)).2)) ∧
  (∀ (s : State) (a : CoreAt) (vd va vb : BitVec 6) (cond : BitVec 4) (bad : Nat → Bool), CoreReady s a → cond.toNat ≤ 3 →
    (∀ j, bad j = ((vregOf s a va).bad j || (vregOf s a vb).bad j)) →
    ∃ t : State, exec (.vcmp a vd va vb cond) s = .next t ∧ WritesLanes s t a 4 2 vd bad (fun j =>
      if (cmpF32 cond.toNat ((vregOf s a va).lane j) ((vregOf s a vb).lane j)).1 = true then 2 ^ 32 - 1 else 0) ∧
      AddsFlags s t a bad (fun j => (cmpF32 cond.toNat ((vregOf s a va).lane j) ((vregOf s a vb).lane j)).2)) ∧
  (∀ (s : State) (a : CoreAt) (vd va vb : BitVec 6) (cond : BitVec 4), Running s → 3 < cond.toNat →
    exec (.vcmp a vd va vb cond) s = .next s) ∧
  (∀ (s : State) (a : CoreAt) (vd va : BitVec 6), CoreReady s a →
    ∃ (t : State) (r : Nat × Nat), exec (.vred a vd va) s = .next t ∧
      WritesLanes s t a 4 2 vd (fun j => j == 0 && (vregOf s a va).anyBad) (fun j => if j = 0 then r.1 else 0) ∧
      AddsFlags s t a (fun j => j == 0 && (vregOf s a va).anyBad) (fun j => if j = 0 then r.2 else 0) ∧
      r = (let x := fun i => ((vregOf s a va).lane i, 0);
           let p := fun u w : Nat × Nat => ((addF32 .rne u.1 w.1).1, u.2 ||| w.2 ||| (addF32 .rne u.1 w.1).2);
           p (p (p (x 0) (x 1)) (p (x 2) (x 3))) (p (p (x 4) (x 5)) (p (x 6) (x 7))))) ∧
  (∀ (s : State) (a : CoreAt) (vd va : BitVec 6), CoreReady s a →
    ∃ t : State, exec (.vmov a vd va) s = .next t ∧ OneEffect s t a 4 2
      (.vreg vd.toNat (vregOf s a va).val (BitVec.allOnes 256) (vregOf s a va).poison 0xFF)) ∧
  (∀ (s : State) (a : CoreAt) (vd : BitVec 6) (ra : BitVec 5), CoreReady s a →
    ∃ t : State, exec (.vbc a vd ra) s = .next t ∧ WritesLanes s t a 4 2 vd (fun _ => (sregOf s a ra).poison)
      (fun _ => (sregOf s a ra).val.toNat)) ∧
  (∀ (n : Nat) (op : CoreAt → BitVec 6 → BitVec 6 → Instr),
    (n, op) ∈ ([(1, .exp), (2, .exp2), (3, .log), (4, .log2), (5, .rcp), (6, .rsqrt)] :
      List (Nat × (CoreAt → BitVec 6 → BitVec 6 → Instr))) →
    ∀ (s : State) (a : CoreAt) (vd va : BitVec 6), CoreReady s a →
      ∃ t : State, exec (op a vd va) s = .next t ∧
        WritesLanes s t a 8 3 vd (fun j => (vregOf s a va).bad j) (fun j => (specialF n ((vregOf s a va).lane j)).1) ∧
        AddsFlags s t a (fun j => (vregOf s a va).bad j) (fun j => (specialF n ((vregOf s a va).lane j)).2)) ∧
  (∀ (s : State) (a : CoreAt) (vd va : BitVec 6) (bad : Nat → Bool), CoreReady s a →
    (∀ j, bad j = ((vregOf s a va).bad j || (vregOf s a vd).bad j)) →
    ∃ t : State, exec (.lsem a vd va) s = .next t ∧
      WritesLanes s t a 8 3 vd bad (fun j => (lsemF ((vregOf s a va).lane j) ((vregOf s a vd).lane j)).1) ∧
      AddsFlags s t a bad (fun j => (lsemF ((vregOf s a va).lane j) ((vregOf s a vd).lane j)).2)) ∧
  (∀ (s : State) (a : CoreAt) (vd va vb : BitVec 6) (fa fb : BitVec 4) (h : Bool) (rm : BitVec 3) (bad : Nat → Bool)
      (r : Nat → Nat × Nat), CoreReady s a →
    (∀ j, bad j = ((vregOf s a va).bad j || (vregOf s a vb).bad j || (vregOf s a vd).bad j)) →
    (∀ j, r j = fmaFV (roundV rm.toNat).1
        (decodeF fa.toNat (if h = true then bits ((vregOf s a va).lane j) 31 16 else bits ((vregOf s a va).lane j) 15 0))
        (decodeF fb.toNat (if h = true then bits ((vregOf s a vb).lane j) 31 16 else bits ((vregOf s a vb).lane j) 15 0))
        (decodeF 0 ((vregOf s a vd).lane j))) →
    ((fa = 1 ∨ fa = 2) ∧ (fb = 1 ∨ fb = 2) → ∃ t : State, exec (.vfmaH a vd va vb fa fb h rm) s = .next t ∧
      WritesLanes s t a 4 2 vd bad (fun j => (r j).1) ∧ AddsFlags s t a bad (fun j => (r j).2 ||| (roundV rm.toNat).2)) ∧
    (¬((fa = 1 ∨ fa = 2) ∧ (fb = 1 ∨ fb = 2)) → exec (.vfmaH a vd va vb fa fb h rm) s = .next s)) ∧
  (∀ (four : Bool) (n : Nat) (op : CoreAt → BitVec 6 → BitVec 6 → BitVec 6 → BitVec 4 → BitVec 4 → Bool → BitVec 3 → BitVec 2 → Bool →
      BitVec 4 → Instr), (four, n, op) ∈ ([(false, 2, .vdot8), (true, 4, .vdot4)] :
      List (Bool × Nat × (CoreAt → BitVec 6 → BitVec 6 → BitVec 6 → BitVec 4 → BitVec 4 → Bool → BitVec 3 → BitVec 2 → Bool →
        BitVec 4 → Instr))) →
    ∀ (s : State) (a : CoreAt) (vd va vb : BitVec 6) (fa fb : BitVec 4) (h : Bool) (rm : BitVec 3) (acc : BitVec 2) (toa : Bool)
        (rsp : BitVec 4) (bad : Nat → Bool) (ps : Nat → List (FV × Nat)), CoreReady s a →
      (∀ j, bad j = (dotScaleBad s a rsp || (vregOf s a va).bad j || (vregOf s a vb).bad j)) →
      (∀ j, ps j = laneProducts (vregOf s a va) (vregOf s a vb) fa.toNat fb.toNat n h (dotScale s a rsp 0) (dotScale s a rsp 1) j) →
      ∃ t : State, exec (op a vd va vb fa fb h rm acc toa rsp) s = .next t ∧
        (dotOk four fa.toNat fb.toNat rsp.toNat toa = false → t = s) ∧
        (dotOk four fa.toNat fb.toNat rsp.toNat toa = true → toa = true → Issues s t a 2 ∧ t.tiles.pend = (List.range 8).map fun j =>
          ⟨a.tile.val, a.core.val, issueCycle s a 2 + 6, 2, .terms acc.toNat j (ps j) (bad j)⟩) ∧
        (dotOk four fa.toNat fb.toNat rsp.toNat toa = true → toa = false → ∃ r : Nat → Nat × Nat,
          WritesLanes s t a 4 2 vd (fun j => bad j || (vregOf s a vd).bad j) (fun j => (r j).1) ∧
          AddsFlags s t a (fun j => bad j || (vregOf s a vd).bad j) (fun j => (r j).2) ∧
          ∀ j, r j = (let v := sumFV (roundV rm.toNat).1 (decodeF 0 ((vregOf s a vd).lane j) :: (ps j).map (·.1));
            let e := encodeF 0 (roundV rm.toNat).1 false v.1;
            (e.1, (ps j).foldl (fun w p => w ||| p.2) (v.2 ||| e.2 ||| (roundV rm.toNat).2)))))

/-- Accumulators are cleared, merged and read, and formats converted. ACCZ, ACCI, ACCX, ACC2F and ACC2I act on the lanes of an exact
accumulator; CVT, CVTW, UNPK6, PACK6 and MXENC deliver converted elements three cycles after issue and XST stores them packed; a
poisoned accumulator lane or operand stays poisoned; the stochastic index base advances by the elements converted where ADV asks;
reserved forms issue nothing. -/
def Obligations.AccumulatorsAndFormats : Prop :=
  (∀ (s : State) (a : CoreAt) (acc : BitVec 2) (ra : BitVec 5), CoreReady s a →
    ∃ t : State, exec (.accz a acc ra) s = .next t ∧ OneEffect s t a 6 2
      (.accz acc.toNat (sext 10 (sregOf s a ra).val.toNat) (sregOf s a ra).poison)) ∧
  (∀ (s : State) (a : CoreAt) (acc : BitVec 2) (va : BitVec 6) (lane : BitVec 3), CoreReady s a →
    ∃ t : State, exec (.acci a acc va lane) s = .next t ∧ OneEffect s t a 6 2
      (.merge acc.toNat lane.toNat (vregOf s a va).val (vregOf s a va).anyBad)) ∧
  (∀ (s : State) (a : CoreAt) (vd : BitVec 6) (acc : BitVec 2) (lane : BitVec 3), CoreReady s a →
    ∃ t : State, exec (.accx a vd acc lane) s = .next t ∧
      WritesLanes s t a 3 3 vd (fun _ => ((s.core (coreKey a)).acc acc.toNat lane.toNat).poison)
        (fun j => bits ((s.core (coreKey a)).acc acc.toNat lane.toNat).image (32 * j + 31) (32 * j))) ∧
  (∀ (s : State) (a : CoreAt) (vd : BitVec 6) (acc : BitVec 2) (rm : BitVec 3) (satf : Bool) (bad : Nat → Bool), CoreReady s a →
    (∀ j, bad j = ((s.core (coreKey a)).acc acc.toNat j).poison) →
    (∃ t : State, exec (.acc2f a vd acc rm satf) s = .next t ∧
      WritesLanes s t a 3 3 vd bad (fun j => (((s.core (coreKey a)).acc acc.toNat j).toF32 (roundV rm.toNat).1 satf).1) ∧
      AddsFlags s t a bad (fun j =>
        (((s.core (coreKey a)).acc acc.toNat j).toF32 (roundV rm.toNat).1 satf).2 ||| (roundV rm.toNat).2)) ∧
    (∃ t : State, exec (.acc2i a vd acc rm satf) s = .next t ∧
      WritesLanes s t a 3 3 vd bad (fun j => (((s.core (coreKey a)).acc acc.toNat j).toI32 (roundV rm.toNat).1 satf).1) ∧
      AddsFlags s t a bad (fun j =>
        (((s.core (coreKey a)).acc acc.toNat j).toI32 (roundV rm.toNat).1 satf).2 ||| (roundV rm.toNat).2))) ∧
  (∀ (s : State) (a : CoreAt) (vd va : BitVec 6) (fmt : BitVec 4) (part : BitVec 3) (bad : Nat → Bool), CoreReady s a →
    fmt.toNat ≤ 0xB → 8 * boxBits fmt.toNat * (part.toNat + 1) ≤ 256 →
    (∀ j, bad j = (vregOf s a va).badElem (boxBits fmt.toNat) (8 * part.toNat + j)) →
    ∃ t : State, exec (.cvtw a vd va fmt part) s = .next t ∧
      WritesLanes s t a 3 3 vd bad (fun j => (encodeF 0 .rne false (elemVal (vregOf s a va) fmt.toNat (8 * part.toNat + j) none)).1) ∧
      AddsFlags s t a bad (fun j => (encodeF 0 .rne false (elemVal (vregOf s a va) fmt.toNat (8 * part.toNat + j) none)).2)) ∧
  (∀ (s : State) (a : CoreAt) (vd va : BitVec 6) (fmt : BitVec 4) (part : BitVec 3), Running s →
    (0xB < fmt.toNat ∨ 256 < 8 * boxBits fmt.toNat * (part.toNat + 1)) →
    exec (.cvtw a vd va fmt part) s = .next s ∧
    ∀ rm satf adv srp, exec (.cvt a vd va fmt rm satf adv part srp) s = .next s) ∧
  (∀ (s : State) (a : CoreAt) (vd va : BitVec 6) (ra : BitVec 5) (fmt : BitVec 4) (rm : BitVec 3) (satf adv : Bool)
      (srp : BitVec 2), Running s →
    (0xB < fmt.toNat → exec (.xst a ra va fmt rm satf adv srp) s = .next s) ∧
    (fmt ≠ 5 → fmt ≠ 6 → exec (.unpk6 a vd va fmt) s = .next s ∧ exec (.pack6 a vd va fmt) s = .next s) ∧
    (va.toNat % 4 ≠ 0 ∨ isMx fmt.toNat = false → exec (.mxenc a vd va fmt rm adv srp) s = .next s)) ∧
  (∀ (s : State) (a : CoreAt) (vd va : BitVec 6) (fmt : BitVec 4) (rm : BitVec 3) (satf adv : Bool) (part : BitVec 3)
      (srp : BitVec 2) (base : Nat) (e : Nat → Nat × Nat × Bool), CoreReady s a →
    fmt.toNat ≤ 0xB → 8 * boxBits fmt.toNat * (part.toNat + 1) ≤ 256 → base = 8 * boxBits fmt.toNat * part.toNat →
    (∀ k, e k = convert8 (s.core (coreKey a)) (vregOf s a va) fmt.toNat rm satf srp s.free k) →
    ∃ (t : State) (p pm : BitVec 8), exec (.cvt a vd va fmt rm satf adv part srp) s = .next t ∧ Issues s t a 3 ∧
      AddsFlags s t a (fun k => (e k).2.2) (fun k => (e k).2.1) ∧
      (∀ j, j < 8 → pm.getLsbD j = (base < 32 * j + 32 && 32 * j < base + 8 * boxBits fmt.toNat) ∧
        p.getLsbD j = (pm.getLsbD j && (List.range 8).any fun k => (e k).2.2 &&
          32 * j < base + boxBits fmt.toNat * k + boxBits fmt.toNat && base + boxBits fmt.toNat * k < 32 * j + 32)) ∧
      t.tiles.pend = ⟨a.tile.val, a.core.val, issueCycle s a 3 + 3, 3, .vreg vd.toNat
        (BitVec.ofNat 256 ((List.range 8).foldl (fun m k => m + (e k).1 * 2 ^ (base + boxBits fmt.toNat * k)) 0))
        (BitVec.ofNat 256 ((2 ^ (8 * boxBits fmt.toNat) - 1) * 2 ^ base)) p pm⟩ ::
      (if adv = true ∧ rm = 4 then [⟨a.tile.val, a.core.val, issueCycle s a 3 + 3, 3,
        .sreg (25 + 2 * srp.toNat) (((s.core (coreKey a)).sreg (25 + 2 * srp.toNat)).val + 8)
          ((s.core (coreKey a)).sreg (25 + 2 * srp.toNat)).poison⟩] else [])) ∧
  (∀ (s : State) (a : CoreAt) (ra : BitVec 5) (va : BitVec 6) (fmt : BitVec 4) (rm : BitVec 3) (satf adv : Bool) (srp : BitVec 2)
      (e : Nat → Nat × Nat × Bool), CoreReady s a → fmt.toNat ≤ 0xB →
    (∀ k, e k = convert8 (s.core (coreKey a)) (vregOf s a va) fmt.toNat rm satf srp s.free k) →
    ((sregOf s a ra).poison = false → ∃ t : State, exec (.xst a ra va fmt rm satf adv srp) s = .next t ∧ Issues s t a 3 ∧
      AddsFlags s t a (fun k => (e k).2.2) (fun k => (e k).2.1) ∧
      t.tiles.pend = ⟨a.tile.val, a.core.val, issueCycle s a 3 + 3, 3, .bank ((sregOf s a ra).val.toNat % 2 ^ 20) (fmtBits fmt.toNat)
        (s.inPattern a.tile.val a.core.val) (.store ((List.range (fmtBits fmt.toNat)).map fun i =>
          (BitVec.ofNat 8 ((List.range 8).foldl (fun m k => m + (e k).1 * 2 ^ (fmtBits fmt.toNat * k)) 0 / 2 ^ (8 * i)),
           (List.range 8).any fun k => (e k).2.2 && 8 * i < fmtBits fmt.toNat * k + fmtBits fmt.toNat &&
             fmtBits fmt.toNat * k < 8 * i + 8)))⟩ ::
      (if adv = true ∧ rm = 4 then [⟨a.tile.val, a.core.val, issueCycle s a 3 + 3, 3,
        .sreg (25 + 2 * srp.toNat) (((s.core (coreKey a)).sreg (25 + 2 * srp.toNat)).val + 8)
          ((s.core (coreKey a)).sreg (25 + 2 * srp.toNat)).poison⟩] else [])) ∧
    (∀ i, (sregOf s a ra).poison = true → RunsAlone s a i →
      ∃ t : State, exec (.xst a ra va fmt rm satf adv srp) s = .next t ∧ EndsPoisoned s t a 3 i)) ∧
  (∀ (s : State) (a : CoreAt) (vd va : BitVec 6) (fmt : BitVec 4), CoreReady s a → (fmt = 5 ∨ fmt = 6) →
    (∃ t : State, exec (.unpk6 a vd va fmt) s = .next t ∧
      WritesLanes s t a 3 3 vd (fun j => (vregOf s a va).bad (24 * j / 32) || (vregOf s a va).bad ((24 * j + 23) / 32)) (fun j =>
        (List.range 4).foldl (fun m i => m + elemOf (vregOf s a va).val 6 (4 * j + i) * 2 ^ (8 * i)) 0)) ∧
    (∃ t : State, exec (.pack6 a vd va fmt) s = .next t ∧
      WritesLanes s t a 3 3 vd (fun j => (List.range 32).any fun i => 32 * j < 6 * i + 6 && 6 * i < 32 * j + 32 &&
          (vregOf s a va).badElem 8 i) (fun j =>
        bits ((List.range 32).foldl (fun m i => m + elemOf (vregOf s a va).val 8 i % 64 * 2 ^ (6 * i)) 0) (32 * j + 31) (32 * j)))) ∧
  (∀ (s : State) (a : CoreAt) (vd va : BitVec 6) (fmt : BitVec 4) (rm : BitVec 3) (adv : Bool) (srp : BitVec 2) (bad : Bool)
      (e : Nat × List Nat × Nat), CoreReady s a → va.toNat % 4 = 0 → isMx fmt.toNat = true →
    bad = (((List.range 4).any fun i => ((s.core (coreKey a)).vreg (va.toNat + i)).anyBad) ||
      (rm = 4 && ((s.core (coreKey a)).srPair srp).2.2)) →
    e = mxEncode fmt.toNat (fun k => (roundOf rm.toNat (fmtBits fmt.toNat) ((s.core (coreKey a)).srPair srp).1
        ((s.core (coreKey a)).srPair srp).2.1 k).1)
        ((List.range 32).map fun i => ((s.core (coreKey a)).vreg (va.toNat + i / 8)).lane (i % 8)) →
    ∃ (t : State) (v w : BitVec 256), exec (.mxenc a vd va fmt rm adv srp) s = .next t ∧ Issues s t a 3 ∧
      (bad = false → w = BitVec.ofNat 256 e.1 ∧
        v = BitVec.ofNat 256 ((List.range 32).foldl (fun m k => m + e.2.1.getD k 0 * 2 ^ (boxBits fmt.toNat * k)) 0)) ∧
      t.tiles.pend = ⟨a.tile.val, a.core.val, issueCycle s a 3 + 3, 3,
          .vreg vd.toNat v (BitVec.ofNat 256 (2 ^ (32 * boxBits fmt.toNat) - 1))
            (if bad = true then BitVec.ofNat 8 (2 ^ boxBits fmt.toNat - 1) else 0) (BitVec.ofNat 8 (2 ^ boxBits fmt.toNat - 1))⟩ ::
        ⟨a.tile.val, a.core.val, issueCycle s a 3 + 3, 3,
          .vreg ((vd.toNat + 1) % 64) w (BitVec.allOnes 256) (if bad = true then 1 else 0) 0xFF⟩ ::
        (if adv = true ∧ rm = 4 then [⟨a.tile.val, a.core.val, issueCycle s a 3 + 3, 3,
          .sreg (25 + 2 * srp.toNat) (((s.core (coreKey a)).sreg (25 + 2 * srp.toNat)).val + 32)
            ((s.core (coreKey a)).sreg (25 + 2 * srp.toNat)).poison⟩] else []))

/-- Tiles' requests, messages and responses cross the mesh. RD answers with the line in two flits, RDV with the 32 bytes it names, WR
merges its masked bytes into the line, WALK answers the leaf entry; MSG, DESC and LOAD write the bytes they carry into the tile they
name and are answered, with TILE_RETIRED where that tile is off; RESULT sends its line as OpData; DONE counts the site and ends the
round with the last one; a response counts at its tile, lands at RADDR and frees its place in the window. -/
def Obligations.MeshRequestsAndMessages : Prop :=
  (∀ (s : State) (m : MPkt) (g : Rgn) (e : Tlb) (l : LcLine), TileReady s m g e l →
    (∃ (t : State) (k : MPkt), exec (.rd m) s = .next t ∧ t.homes.txns = [] ∧ t.homes.lc = s.homes.lc ∧ t.mem = s.mem ∧
      t.meshResp = s.meshResp ++ [k] ∧ Replies k m 0 ∧ k.flits =
        [(lineFlit l.data 0, if l.poison = true then 3 else 0), (lineFlit l.data 1, if l.poison = true then 3 else 0)]) ∧
    (∃ (t : State) (k : MPkt), exec (.rdv m) s = .next t ∧ t.homes.txns = [] ∧ t.homes.lc = s.homes.lc ∧ t.mem = s.mem ∧
      t.meshResp = s.meshResp ++ [k] ∧ Replies k m 0 ∧ k.flits = [] ∧ k.inlPoison = l.poison ∧
      k.inl = l.data.extractLsb' (256 * (m.addr.toNat % 128 / 32)) 256) ∧
    (∃ (t : State) (k : MPkt), exec (.walk m) s = .next t ∧ t.homes.txns = [] ∧ t.homes.lc = s.homes.lc ∧ t.mem = s.mem ∧
      t.meshResp = s.meshResp ++ [k] ∧ Replies k m 0 ∧ k.flits = [] ∧
      k.inl = BitVec.ofNat 256 (e.entry % 2 ^ 128 + e.bits * 2 ^ 128)) ∧
    (g.mode ≤ 1 → s.homes.filter = [] → s.lineHeld (leafDpa e.entry e.bits (ptrOff m.addr.toNat) / 128 * 128) = none →
      ∃ (t : State) (k : MPkt) (x : LcLine), exec (.wr m) s = .next t ∧ t.homes.txns = [] ∧ t.meshResp = s.meshResp ++ [k] ∧
        Replies k m 0 ∧ k.flits = [] ∧ t.lcGet (leafDpa e.entry e.bits (ptrOff m.addr.toNat) / 128 * 128) = some x ∧
        x.data = mergeLine l.data (flitLine (m.flits.getD 0 (0, 0)).1 (m.flits.getD 1 (0, 0)).1) (m.inl.extractLsb' 0 128)) ∧
    (g.mode = 2 → ∃ (t : State) (k : MPkt), exec (.wr m) s = .next t ∧ t.meshResp = s.meshResp ++ [k] ∧ Replies k m 0x05 ∧
      t.homes.lc = s.homes.lc ∧ t.mem = s.mem)) ∧
  (∀ (n : Bool) (op : MPkt → Instr), (n, op) ∈ ([(true, .msg), (false, .desc), (false, .load)] : List (Bool × (MPkt → Instr))) →
    ∀ (s : State) (m : MPkt) (tile : Nat), Running s → Come s m → m.wf = true → mTargets m = [tile] →
      (s.tileOff tile = false → (op m = .load m → m.addr.getLsbD 63 = false) →
        ∃ (t : State) (k : MPkt), exec (op m) s = .next t ∧ t.meshResp = s.meshResp ++ [k] ∧ k.status = 0 ∧ k.dx = m.sx ∧ k.dy = m.sy ∧ k.seq = m.seq ∧
          k.sx.toNat = tile % 28 ∧ k.sy.toNat = tile / 28 ∧ t.homes = s.homes ∧ t.mem = s.mem ∧
          (∀ i, i < (mBytes m n).length → t.spadByte tile (m.addr.toNat + i) = ((mBytes m n).getD i (0, false)).1) ∧
          (∀ x a, x ≠ tile ∨ (∀ i, i < (mBytes m n).length → (m.addr.toNat + i) % 2 ^ 20 ≠ a % 2 ^ 20) →
            x < 672 → t.spadByte x a = s.spadByte x a)) ∧
      (s.tileOff tile = true →
        ∃ (t : State) (k : MPkt), exec (op m) s = .next t ∧ t.meshResp = s.meshResp ++ [k] ∧ k.status = 0x20 ∧ k.dx = m.sx ∧ k.dy = m.sy ∧
          t.tiles.spad = s.tiles.spad ∧ t.tiles.imem = s.tiles.imem ∧ t.homes = s.homes)) ∧
  (∀ (op : MPkt → Instr), op ∈ ([.msg, .desc, .load] : List (MPkt → Instr)) →
    ∀ (s : State) (m : MPkt), Running s → Come s m →
      ∃ (t : State) (ks : List MPkt), exec (op m) s = .next t ∧ t.meshResp = s.meshResp ++ ks ∧
        ks.map (fun k => (k.sx, k.sy, k.status, k.dx, k.dy, k.seq)) = (mTargets m).map fun x =>
          (BitVec.ofNat 6 (tileX x), BitVec.ofNat 5 (tileY x), if s.tileOff x = true then 0x20 else 0, m.sx, m.sy, m.seq)) ∧
  (∀ (s : State) (m : MPkt) (tile : Nat), Running s → Come s m → m.wf = true → mTargets m = [tile] → s.tileOff tile = false →
    m.addr.getLsbD 63 = true →
    ∃ t : State, exec (.load m) s = .next t ∧ t.tiles.spad = s.tiles.spad ∧ ∀ i, i < (mBytes m false).length →
      SMap.get 0#8 t.tiles.imem (tile * 2 ^ 19 + (m.addr.toNat + i) % 2 ^ 19) = ((mBytes m false).getD i (0, false)).1) ∧
  (∀ (s : State) (m : MPkt) (tile : Nat) (i : Inst), Running s → Come s m → mTargets m = [tile] → s.tileOff tile = false →
    s.mInst tile m.job.toNat = some i →
    ∃ t : State, exec (.desc m) s = .next t ∧ ∀ x ∈ t.disp.insts, x.idx = i.idx → x.descAt = m.addr.toNat % 2 ^ 20) ∧
  (∀ (s : State) (m : MPkt) (i : Inst) (k : Nat) (f g : Flit × BitVec 2), Running s → Come s m → s.mInst (mSource m) m.job.toNat = some i →
    s.inst? i.idx = some i → i.rpkt = true → i.mute = false → m.flits = [f, g] →
    i.streams.findIdx? (fun x => x.wr && x.base ≤ m.addr.toNat && m.addr.toNat < x.base + x.len) = some k →
    ∃ (t : State) (q : Pkt) (a : MPkt) (j : Inst), exec (.result m) s = .next t ∧ t.out = s.out ++ [q] ∧ q.opc = 0x3B ∧ q.tag.toNat = i.tag % 2 ^ 15 ∧
      bits q.body.toNat 43 4 = (m.addr.toNat - (strm i.streams k).base) % 2 ^ 40 ∧ bits q.body.toNat 3 0 = k % 16 ∧
      q.body.extractLsb' 128 1024 = flitLine f.1 g.1 ∧ t.meshResp = s.meshResp ++ [a] ∧ Replies a m 0 ∧
      t.inst? i.idx = some j ∧ j.ndata = i.ndata + 1) ∧
  (∀ (s : State) (m : MPkt) (i : Inst) (p : Placement) (site : Nat), Running s → Come s m → s.mInst (mSource m) m.job.toNat = some i →
    s.siteOf (mSource m) = some site → i.place.bind s.place? = some p → i.dones.contains site = false →
    ∃ (t : State) (a : MPkt), exec (.done m) s = .next t ∧ t.meshResp = s.meshResp ++ [a] ∧ Replies a m 0 ∧
      ∀ x ∈ t.disp.insts, x.idx = i.idx →
        (if (p.sites.all fun e => (i.dones ++ [site]).contains e.1) = true then x.dones = [] ∧ x.bodyAt = none ∧
          (x.done = true ∨ (x.round = i.round + 1 ∧ x.phase = 0)) else
          x.dones = i.dones ++ [site])) ∧
  (∀ (s : State) (m : MPkt) (tile : Nat), Running s → Come s m → s.meshResp.contains m = true → m.wf = true → m.dx.toNat < 28 →
    m.dy.toNat < 24 → tile = 28 * m.dy.toNat + m.dx.toNat → s.tileOff tile = false → s.tiles.inject = [] →
    (∀ e ∈ s.tiles.cores, e.2.held = []) →
    ∃ t : State, exec (.dynamicResponse m) s = .next t ∧ t.meshResp = s.meshResp.erase m ∧
      t.tiles.sent = s.tiles.sent.erase (tile, m.seq.toNat) ∧
      SMap.get 0#32 t.tiles.counts (16 * tile + m.cc.toNat) = SMap.get 0#32 s.tiles.counts (16 * tile + m.cc.toNat) + 1#32 ∧
      (∀ i, i < (mBytes m false).length → t.spadByte tile (m.raddr.toNat + i) = ((mBytes m false).getD i (0, false)).1) ∧
      (m.cee = true → s.tiles.halved.contains tile = false →
        t.rd (F.tileCongW tile) = max 1 (s.rd (F.tileCongW tile) / 2) ∧ t.tiles.halved = s.tiles.halved ++ [tile]) ∧
      ((m.cee = false ∨ s.tiles.halved.contains tile = true) → t.rd (F.tileCongW tile) = s.rd (F.tileCongW tile)) ∧
      (m.op = 0x21 → ∀ d : DldWait, s.tiles.dlds.find? (fun x => x.tile == tile && x.seq == m.seq.toNat) = some d →
        ∃ v : BitVec 256, t.tiles.dlds = s.tiles.dlds.erase d ∧ (m.status = 0 → v = m.inl) ∧
          (t.core (128 * tile + d.core)).vreg d.reg = ⟨v, if m.status = 0 ∧ m.inlPoison = false then 0 else 0xFF⟩) ∧
      ∀ i : Inst, s.mInst tile m.job.toNat = some i → s.disp.insts = [i] → i.stopping = none →
        t.disp.insts = [{ i with stopping :=
          if (5 ≤ m.status.toNat ∧ m.status.toNat ≤ 9) ∨ m.status.toNat = 0x0C then some (opStatus m.status.toNat) else none }]) ∧
  (∀ (s : State) (m : MPkt), Running s → Come s m → s.meshResp.contains m = true →
    (28 ≤ m.dx.toNat ∨ 24 ≤ m.dy.toNat ∨ s.tileOff (28 * m.dy.toNat + m.dx.toNat) = true) →
    exec (.dynamicResponse m) s = .next { s with meshResp := s.meshResp.erase m }) ∧
  (∀ (s : State) (m : MPkt), Running s → Come s m → s.meshResp.contains m = false → exec (.dynamicResponse m) s = .next s) ∧
  (∀ (s : State) (m : MPkt), Running s → s.pwr.halt.isSome = true →
    ∀ op ∈ [Instr.rd m, .rdv m, .wr m, .walk m, .msg m, .desc m, .load m, .result m, .done m, .dynamicResponse m],
      exec op s = .next s)

/-- Plans take over, bars pass, and gates open. An armed mesh plan whose beat has come becomes the active one; a bar boundary advances the
bar counter, raises the windows without an echo and stops the instances told to stop; a gate bar lets an instance into its next phase
when its sites are ready, repeats a phase that missed data, holds it otherwise, and ends it on a malformed gather list; a phase ends
after its bars. -/
def Obligations.PlansBarsAndGates : Prop :=
  (∀ (s : State) (t0 : Nat), Running s → t0 < 672 → s.tiles.armed = [t0] → s.tiles.harmed = [] → s.tiles.clock ≤ 1024 * s.mbar →
    s.rd (F.tileMplanAtBeat t0) ≤ s.beat →
    ∃ t : State, exec .meshPlanTakeover s = .next t ∧ t.tiles.armed = [] ∧ t.on (F.tileMplanArmed t0) = false ∧
      (∀ port cyc, port < 5 → cyc < 1024 → t.meshEntry true t0 port cyc = s.meshEntry false t0 port cyc) ∧
      (∀ x port cyc, x < 672 → x ≠ t0 → port < 5 → cyc < 1024 → t.meshEntry true x port cyc = s.meshEntry true x port cyc) ∧
      t.homes = s.homes ∧ t.mem = s.mem ∧ t.disp.insts = s.disp.insts ∧
      t.disp.places = s.disp.places.map fun p => if s.slotsServe p = false ∧ t.slotsServe p = true
        then { p with ready := max p.ready (s.beat + s.barBeats) } else p) ∧
  (∀ (s : State) (k : Nat), Running s → k < 64 → s.tiles.armed = [] → s.tiles.harmed = [k] → s.tiles.harmedAt ≤ s.beat →
    ∃ t : State, exec .meshPlanTakeover s = .next t ∧ t.tiles.harmed = [] ∧
      ∀ cyc, cyc < 1024 → t.homeEntry true k cyc = s.homeEntry false k cyc) ∧
  (∀ s : State, Running s → s.tiles.harmed = [] →
    (1024 * s.mbar < s.tiles.clock ∨ ∀ t ∈ s.tiles.armed, s.beat < s.rd (F.tileMplanAtBeat t)) →
    exec .meshPlanTakeover s = .next s) ∧
  (∀ s : State, Running s → s.pwr.halt.isSome = true → exec .meshBarBoundary s = .next s) ∧
  (∀ s : State, Running s → s.pwr.halt = none → s.tiles.pend = [] → MeshStill s → s.tiles.inject = [] →
    (∀ e ∈ s.tiles.cores, e.2.held = []) →
    ∃ t : State, exec .meshBarBoundary s = .next t ∧ t.mbar = (s.mbar + 1) % 2 ^ 64 ∧ t.tiles.halved = [] ∧ t.tiles.marked = [] ∧
      t.disp.insts.length = s.disp.insts.length ∧ (∀ i ∈ t.disp.insts, i.state = 1 → i.stopping = none) ∧
      (∀ i ∈ s.disp.insts, ∀ c, i.state = 1 → i.stopping = some c →
        { i with state := 2, status := c, endBeat := s.beat, bodyAt := none } ∈ t.disp.insts) ∧
      ∀ k, k < 672 → s.tiles.marked.contains k = false →
        t.rd (F.tileCongW k) = min (s.rd (F.tileCongW k) + 1) (s.rd (F.tileCongWmax k))) ∧
  (∀ (s : State) (n : BitVec 12) (i : Inst), Running s → s.inst? n.toNat = some i →
    (i.state ≠ 1 ∨ (i.bodyAt.isSome = true ∧ opBuiltin i.opid = false ∧ s.streamsAgain n.toNat = s)) → exec (.gateBar n) s = .next s) ∧
  (∀ (s : State) (n : BitVec 12) (i : Inst) (p : Placement), Running s → s.inst? n.toNat = some i → i.state = 1 → i.done = false →
    s.streamsAgain n.toNat = s → i.stopping = none → i.bodyAt = none → opBuiltin i.opid = false → i.place.bind s.place? = some p →
    (p.phase i.phase).kind = 1 → (p.phase (i.phase + 1)).kind = 0 →
    ((p.phase (i.phase + 1)).glist = 0 ∨
      ∀ t ∈ s.placeTiles p, (s.gatherRec t (p.phase (i.phase + 1)).glist).1 = true) →
    s.cleanExtents i (p.phase (i.phase + 1)) = s →
    (s.coresEnded p = false →
      ∃ (t : State) (j : Inst), exec (.gateBar n) s = .next t ∧ t.inst? n.toNat = some j ∧ j.phase = i.phase ∧ j.bodyAt = none ∧
        j.slips = i.slips + 1) ∧
    (s.coresEnded p = true → i.again = false → i.readErr = false → s.unlocked i p (p.phase (i.phase + 1)) = [] →
      s.neededLines i p (p.phase (i.phase + 1)) = [] → s.slotRoom i (p.phase (i.phase + 1)) = true →
      ∃ (t : State) (j : Inst), exec (.gateBar n) s = .next t ∧ t.inst? n.toNat = some j ∧ j.phase = i.phase + 1 ∧
        j.bodyAt = some ((s.mbar : Int) + 1) ∧ j.slips = i.slips ∧ j.ran = none)) ∧
  (∀ (s : State) (n : BitVec 12) (i : Inst) (p : Placement) (r : Nat), Running s → s.inst? n.toNat = some i → i.state = 1 →
    s.streamsAgain n.toNat = s → i.done = false → i.stopping = none → i.bodyAt = none → opBuiltin i.opid = false → i.place.bind s.place? = some p →
    (p.phase i.phase).kind = 2 → i.ran = some r → i.again = true → (p.phase r).kind = 0 → s.neededLines i p (p.phase r) = [] →
    s.slotRoom i (p.phase r) = true →
    ∃ (t : State) (j : Inst), exec (.gateBar n) s = .next t ∧ t.inst? n.toNat = some j ∧ j.phase = r ∧ j.bodyAt = some ((s.mbar : Int) + 1) ∧
      j.again = false ∧ j.repeats = i.repeats + 1) ∧
  (∀ (s : State) (n : BitVec 12) (i : Inst) (p : Placement) (x : Nat), Running s → s.inst? n.toNat = some i → i.state = 1 →
    s.streamsAgain n.toNat = s → i.done = false → i.stopping = none → i.bodyAt = none → opBuiltin i.opid = false → i.place.bind s.place? = some p →
    (p.phase i.phase).kind = 0 → (p.phase i.phase).glist ≠ 0 → x ∈ s.placeTiles p →
    (s.gatherRec x (p.phase i.phase).glist).1 = false →
    ∃ (t : State) (j : Inst), exec (.gateBar n) s = .next t ∧ t.inst? n.toNat = some j ∧ j.stopping = some 0x15 ∧ j.phase = i.phase) ∧
  (∀ (s : State) (n : BitVec 12) (i : Inst) (p : Placement) (b : Int), Running s → s.inst? n.toNat = some i →
    i.place.bind s.place? = some p → i.bodyAt = some b →
    (i.state = 1 → b + (p.phase i.phase).bars ≤ (s.mbar : Int) →
      ∃ (t : State) (j : Inst), exec (.phaseEnd n) s = .next t ∧ t.inst? n.toNat = some j ∧ j.bodyAt = none ∧ j.ran = some i.phase ∧
        j.phase = i.phase + 1 ∧ j.recon = []) ∧
    ((s.mbar : Int) < b + (p.phase i.phase).bars → exec (.phaseEnd n) s = .next s))

/-- Faulted tiles leave service and spares take their place. A tile fault raises an event of class 6, empties and retires the tile (cause 4
bypasses it) and gives its site to the nearest spare of the group, or makes it LOST; firmware's RETIRE does the same; the spare loads,
takes over at the bar, and serves; RETURN tests a retired tile, which becomes a spare and may adopt a lost site. -/
def Obligations.TileFaultsAndSpares : Prop :=
  (∀ (s : State) (tile : Fin 672), Running s → exec (.tileFault tile 0) s = .next s) ∧
  (∀ (s : State) (tile : Fin 672) (cause : Fin 6), Running s → s.tileState tile.val = 4 →
    exec (.tileFault tile cause) s = .next s) ∧
  (∀ (s : State) (tile : Fin 672) (cause : Fin 6) (site sp : Nat), Running s → cause ≠ 0 →
    (s.tileState tile.val = 0 ∨ s.tileState tile.val = 2) → s.disp.insts = [] → s.rd (F.tileStateSite tile.val) = site → site < 672 →
    minBy? (fun t => hops t site * 1024 + t)
      (findAll 672 fun t => spareGroup t == spareGroup site && s.tileState t == 1) = some sp →
    ∃ t : State, exec (.tileFault tile cause) s = .next t ∧ t.tileState tile.val = (if cause = 4 then 4 else 3) ∧
      t.rd (F.tileStateCause tile.val) = cause.val ∧ t.tileState sp = 2 ∧ t.rd (F.tileStateSite sp) = site ∧
      t.events = s.events ++ [⟨s.beat, 6, tile.val, none⟩] ∧ t.tiles.lost = s.tiles.lost.filter (fun x => decide (x ≠ site)) ∧
      (∀ a, t.spadByte tile.val a = 0#8) ∧ (∀ c, c < 128 → t.core (128 * tile.val + c) = CoreSt.reset) ∧
      (∀ x, x < 672 → x ≠ tile.val → x ≠ sp → t.tileState x = s.tileState x) ∧ t.homes = s.homes ∧ t.mem = s.mem) ∧
  (∀ (s : State) (tile : Fin 672) (cause : Fin 6), Running s → cause ≠ 0 → s.disp.insts = [] →
    (s.tileState tile.val = 1 ∨ (s.tileState tile.val = 3 ∧ cause = 4)) →
    ∃ t : State, exec (.tileFault tile cause) s = .next t ∧ t.tileState tile.val = (if cause = 4 then 4 else 3) ∧
      t.rd (F.tileStateCause tile.val) = cause.val ∧ t.events = s.events ++ [⟨s.beat, 6, tile.val, none⟩] ∧
      t.tiles.lost = s.tiles.lost ∧ (∀ x, x < 672 → x ≠ tile.val → t.tileState x = s.tileState x) ∧ t.homes = s.homes ∧ t.mem = s.mem) ∧
  (∀ (s : State) (tile : Fin 672) (cause : Fin 6), Running s → s.tileState tile.val = 3 → cause ≠ 4 →
    exec (.tileFault tile cause) s = .next s) ∧
  (∀ (s : State) (tile : Fin 672) (cause : Fin 6) (site : Nat), Running s → cause ≠ 0 →
    (s.tileState tile.val = 0 ∨ s.tileState tile.val = 2) → s.disp.insts = [] → s.rd (F.tileStateSite tile.val) = site → site < 672 →
    s.tiles.lost = [] →
    (∀ t, t < 672 → spareGroup t = spareGroup site → s.tileState t ≠ 1) →
    ∃ t : State, exec (.tileFault tile cause) s = .next t ∧ t.tileState tile.val = (if cause = 4 then 4 else 3) ∧
      t.tiles.lost = [site] ∧ t.on (F.tileStateLost site) = true ∧
      (∀ x, x < 672 → x ≠ tile.val → t.tileState x = s.tileState x) ∧ t.homes = s.homes ∧ t.mem = s.mem) ∧
  (∀ (s : State) (tile : Fin 672) (cause : Fin 6) (i : Inst) (p : Placement), Running s → cause ≠ 0 → s.tileState tile.val = 0 →
    s.disp.insts = [i] → i.state = 1 → i.stopping = none → i.done = false → i.place.bind s.place? = some p →
    (p.sites.any fun e => e.1 == s.rd (F.tileStateSite tile.val)) = true →
    ∃ (t : State) (j : Inst), exec (.tileFault tile cause) s = .next t ∧ t.disp.insts = [j] ∧ j.stopping = some 0x0B) ∧
  (∀ (s : State) (tile : Fin 672) (c : Cmd), Running s → Accepts s tile.val c → s.tileState tile.val ≤ 2 →
    s.disp.insts = [] →
    ∃ t : State, exec (.tileRetire tile c) s = .next t ∧ t.tileState tile.val = 3 ∧ t.rd (F.tileStateCause tile.val) = 1 ∧
      t.events = s.events ++ [⟨s.beat, 6, tile.val, none⟩] ∧ t.homes = s.homes ∧ t.mem = s.mem) ∧
  (∀ (s : State) (tile : Fin 672), Running s → s.tileState tile.val = 2 → s.tiles.loaded.contains tile.val = false →
    s.disp.places = [] →
    ∃ t : State, exec (.spareLoadComplete tile) s = .next t ∧ t.tiles.loaded = s.tiles.loaded ++ [tile.val] ∧ t.regs = s.regs) ∧
  (∀ (s : State) (tile : Fin 672) (p : Placement) (x : Nat), Running s → s.tileState tile.val = 2 →
    s.tiles.loaded.contains tile.val = false → s.disp.places = [p] → s.disp.insts = [] →
    (p.sites.any fun e => e.1 == s.rd (F.tileStateSite tile.val)) = true → (∃ e ∈ p.mesh, e.tile = x) → x < 672 →
    ∃ (t : State) (q : Placement), exec (.spareLoadComplete tile) s = .next t ∧ t.tiles.loaded = s.tiles.loaded ++ [tile.val] ∧ t.disp.places = [q] ∧
      q.sites = p.sites ∧ x ∈ t.tiles.armed ∧ t.on (F.tileMplanArmed x) = true) ∧
  (∀ (s : State) (tile : Fin 672), Running s → s.tileState tile.val = 2 → s.tiles.loaded.contains tile.val = true →
    s.tiles.armed.contains tile.val = false →
    ∃ t : State, exec (.spareTakeover tile) s = .next t ∧ t.tileState tile.val = 0 ∧
      t.rd (F.tileStateSite tile.val) = s.rd (F.tileStateSite tile.val) ∧
      t.tiles.loaded = s.tiles.loaded.filter (fun x => decide (x ≠ tile.val)) ∧
      (∀ p ∈ t.disp.places, (p.sites.any fun e => e.1 == s.rd (F.tileStateSite tile.val)) = true →
        s.beat + s.barBeats ≤ p.ready) ∧ t.homes = s.homes ∧ t.mem = s.mem) ∧
  (∀ (s : State) (tile : Fin 672), Running s → (s.tileState tile.val ≠ 2 ∨ s.tiles.loaded.contains tile.val = false) →
    exec (.spareTakeover tile) s = .next s) ∧
  (∀ (s : State) (tile : Fin 672) (c : Cmd), Running s → Accepts s tile.val c → s.tileState tile.val = 3 →
    s.tiles.testing.contains tile.val = false →
    ∃ t : State, exec (.tileReturn tile c) s = .next t ∧ t.tiles.testing = s.tiles.testing ++ [tile.val] ∧ t.tileState tile.val = 3 ∧
      t.events = s.events ∧ t.homes = s.homes ∧ t.mem = s.mem) ∧
  (∀ (s : State) (tile : Fin 672) (c : Cmd), Running s → Accepts s tile.val c → s.tileState tile.val ≠ 3 →
    ∃ t : State, exec (.tileReturn tile c) s = .next t ∧ t.tiles = s.tiles ∧ t.rd (F.hdrStateClamped tile.val) = 1) ∧
  (∀ (s : State) (tile : Fin 672), Running s → s.tileState tile.val = 1 → s.tiles.testing.contains tile.val = false →
    exec (.spareSelfTest tile) s = .next { s with tiles := { s.tiles with testing := s.tiles.testing ++ [tile.val] } }) ∧
  (∀ (s : State) (tile : Fin 672), Running s → s.tileState tile.val ≠ 1 → exec (.spareSelfTest tile) s = .next s) ∧
  (∀ (s : State) (tile : Fin 672) (pass : Bool), Running s → s.tiles.testing.contains tile.val = false →
    exec (.tileSelfTestDone tile pass) s = .next s) ∧
  (∀ (s : State) (tile : Fin 672), Running s → s.tiles.testing.contains tile.val = true →
    (s.tileState tile.val = 1 →
      (∃ t : State, exec (.tileSelfTestDone tile true) s = .next t ∧ t.tileState tile.val = 1 ∧ t.tiles.testing.contains tile.val = false) ∧
      ∃ t : State, exec (.tileSelfTestDone tile false) s = .next t ∧ t.tileState tile.val = 3 ∧ t.rd (F.tileStateCause tile.val) = 5) ∧
    (s.tileState tile.val = 3 →
      (∃ t : State, exec (.tileSelfTestDone tile false) s = .next t ∧ t.tileState tile.val = 3 ∧ t.rd (F.tileStateCause tile.val) = 5) ∧
      ((∀ x ∈ s.tiles.lost, spareGroup x ≠ spareGroup tile.val) →
        ∃ t : State, exec (.tileSelfTestDone tile true) s = .next t ∧ t.tileState tile.val = 1 ∧
          t.tiles.testing.contains tile.val = false) ∧
      (∀ site, s.tiles.lost = [site] → site < 672 → spareGroup site = spareGroup tile.val →
        (∀ x, x < 672 → x ≠ tile.val → spareGroup x = spareGroup tile.val → s.tileState x ≠ 1) →
        ∃ t : State, exec (.tileSelfTestDone tile true) s = .next t ∧ t.tileState tile.val = 2 ∧
          t.rd (F.tileStateSite tile.val) = site ∧ t.tiles.lost = [])))

/-- Pattern images are loaded after their checks and unloaded when idle. A LOAD whose image cannot be read, or fails its digest, its format
or a later check, places nothing and reports the failing check and section; one that passes every check becomes a new placement under
the lowest free number; a LOAD whose image a fence holds waits with BUSY; a LOAD or UNLOAD while BUSY is clamped; UNLOAD marks its placement, and once no instance of it is left the
placement and its resources go. -/
def Obligations.PatternImages : Prop :=
  (∀ (s : State) (strip : BitVec 3) (c : Cmd), Running s → Accepts s 862 c → s.on F.dispPatCmdBusy = true →
    ∃ t : State, exec (.patternLoad strip c) s = .next t ∧ t.disp = s.disp ∧ t.mem = s.mem ∧ t.homes = s.homes ∧
      t.rd (F.hdrStateClamped 862) = 1) ∧
  (∀ (s : State) (place : BitVec 8) (c : Cmd), Running s → Accepts s 862 c → s.on F.dispPatCmdBusy = true →
    ∃ t : State, exec (.patternUnload place c) s = .next t ∧ t.disp = s.disp ∧ t.mem = s.mem ∧ t.homes = s.homes ∧
      t.rd (F.hdrStateClamped 862) = 1) ∧
  (∀ (s : State) (strip : BitVec 3) (c : Cmd), Running s → Accepts s 862 c → s.on F.secPartCtlEn = false →
    s.on F.dispPatCmdBusy = false → (s.atLoad strip c).imageHeld = true →
    ∃ t : State, exec (.patternLoad strip c) s = .next t ∧ t.on F.dispPatCmdBusy = true ∧ t.disp.loading = some strip.toNat ∧
      t.disp.places = s.disp.places ∧ t.mem = s.mem) ∧
  (∀ (s u : State) (strip : BitVec 3) (c : Cmd), Running s → Accepts s 862 c → s.on F.secPartCtlEn = false →
    s.on F.dispPatCmdBusy = false → s.disp.loading = none → (s.atLoad strip c).imageHeld = false →
    ((s.atLoad strip c).poolBytes (s.rd F.dispPatImgPtr) 256) = (none, u) →
    ∃ t : State, exec (.patternLoad strip c) s = .next t ∧ t.disp = u.disp ∧ t.rd F.dispPatCmdStatus = 1 ∧ t.rd F.dispPatCmdFailSect = 0 ∧
      t.rd (F.hdrStateClamped 862) = 1 ∧ (⟨u.beat, 6, 862, none⟩ : Event) ∈ t.events) ∧
  (∀ (s u v : State) (strip : BitVec 3) (c : Cmd) (hd img : List Byte), Running s → Accepts s 862 c →
    s.on F.secPartCtlEn = false → s.on F.dispPatCmdBusy = false → s.disp.loading = none → (s.atLoad strip c).imageHeld = false →
    (s.atLoad strip c).poolBytes (s.rd F.dispPatImgPtr) 256 = (some hd, u) →
    u.poolBytes (s.rd F.dispPatImgPtr) (dN hd 8 4) = (some img, v) →
    (digestOk img = false →
      ∃ t : State, exec (.patternLoad strip c) s = .next t ∧ t.disp = v.disp ∧ t.rd F.dispPatCmdStatus = 1 ∧
        t.rd F.dispPatCmdFailSect = 0 ∧ t.rd (F.hdrStateClamped 862) = 1) ∧
    (∀ i, digestOk img = true → formatBad img strip.toNat = some i →
      ∃ t : State, exec (.patternLoad strip c) s = .next t ∧ t.disp = v.disp ∧ t.rd F.dispPatCmdStatus = 2 ∧
        t.rd F.dispPatCmdFailSect = i % 16 ∧ t.rd (F.hdrStateClamped 862) = 1) ∧
    (∀ n, digestOk img = true → formatBad img strip.toNat = none → findLow 256 (fun x => (v.place? x).isNone) = some n →
      ∃ t : State, exec (.patternLoad strip c) s = .next t ∧
        match v.loadChecks img (v.placementOf img strip.toNat n) (v.dramAll (Config.dramDemandOf (sectOf img 6))) with
        | some (code, i) => t.disp = v.disp ∧ t.rd F.dispPatCmdStatus = code ∧ t.rd F.dispPatCmdFailSect = i % 16 ∧
            t.rd (F.hdrStateClamped 862) = 1
        | none => if v.dispRefused ((v.dramAll (Config.dramDemandOf (sectOf img 6))).getD [])
              ((((v.placementOf img strip.toNat n).groups.find? fun x => x.1 == 1).map (·.2)).getD 0) = true then
            t.disp = v.disp ∧ t.rd F.dispPatCmdStatus = 10 ∧ t.rd (F.hdrStateClamped 862) = 1
          else t.rd F.dispPatCmdStatus = 0 ∧ t.rd F.dispPatCmdNewplace = n ∧
            ∃ q : Placement, t.disp.places = v.disp.places ++ [q] ∧ q.num = n ∧ q.image = img ∧ q.opid = dN img 12 2 ∧
              q.strip = strip.toNat ∧ q.sites = (v.placementOf img strip.toNat n).sites ∧ q.unloading = false ∧
              q.ready = v.beat + 26)) ∧
  (∀ (s : State) (place : BitVec 8) (c : Cmd), Running s → Accepts s 862 c → s.on F.dispPatCmdBusy = false →
    (∀ p, s.place? place.toNat = some p →
      ∃ t : State, exec (.patternUnload place c) s = .next t ∧ t.on F.dispPatCmdBusy = true ∧ t.rd F.dispPatCmdStatus = 0 ∧
        t.disp.places = s.disp.places.map (fun q => if q.num = place.toNat then { q with unloading := true } else q) ∧
        t.disp.insts = s.disp.insts ∧ t.homes = s.homes ∧ t.mem = s.mem) ∧
    (s.place? place.toNat = none →
      ∃ t : State, exec (.patternUnload place c) s = .next t ∧ t.on F.dispPatCmdBusy = false ∧ t.rd F.dispPatCmdStatus = 0 ∧
        t.disp = s.disp ∧ t.homes = s.homes ∧ t.mem = s.mem)) ∧
  (∀ (s : State) (n : BitVec 8) (p : Placement), Running s → s.place? n.toNat = some p → p.unloading = true →
    (∀ i ∈ s.disp.insts, i.place = some n.toNat → 2 < i.state) →
    ∃ t : State, exec (.unloadComplete n) s = .next t ∧ t.on F.dispPatCmdBusy = false ∧
      t.disp.places = s.disp.places.filter (fun q => decide (q.num ≠ n.toNat)) ∧ t.disp.insts = s.disp.insts ∧
      t.homes = s.homes) ∧
  (∀ (s : State) (n : BitVec 8), Running s → s.place? n.toNat = none → exec (.unloadComplete n) s = .next s) ∧
  (∀ (s : State) (n : BitVec 8) (p : Placement), Running s → s.place? n.toNat = some p →
    (p.unloading = false ∨ ∃ i ∈ s.disp.insts, i.place = some n.toNat ∧ i.state ≤ 2) → exec (.unloadComplete n) s = .next s)

/-- DISP judges invocations, ends jobs and completes instances. An Invoke that passes the checks becomes a WAITING instance under the lowest
free entry and is answered with its acceptance beat, pinning the versions it reads, whether its descriptor stands in the packet or in a line of the pool; one that fails
a check is answered with that check's status and creates nothing; Cancel and JOB_KILL end the instances they name and count them; a
finished instance writes its record, sends OpDone and frees its entry. -/
def Obligations.InvocationsAndJobs : Prop :=
  (∀ (s : State) (p : Pkt) (tenant n : Nat), DispReady s → (asInvoke p).dloc = false → 16 ≤ (asInvoke p).dlen →
    (asInvoke p).dlen ≤ 224 →
    InvokeValid s (asInvoke p) (inlineDesc p (asInvoke p).dlen) (s.attach p.host.toNat none) tenant →
    (s.on F.dispOpsCtlEn = true → s.disp.insts.length < 4096 → (s.jobsOf none).length < 1024 →
      findLow 4096 (fun i => (s.inst? i).isNone) = some n →
      ∃ (t : State) (x : Inst) (k : Pkt), exec (.invoke p) s = .next t ∧ t.disp.insts = s.disp.insts ++ [x] ∧ x.idx = n ∧ x.state = 0 ∧
        x.host = p.host.toNat ∧ x.tag = p.tag.toNat ∧ x.seq = p.seq.toNat ∧ x.opid = (asInvoke p).opid ∧
        x.job = (asInvoke p).job ∧ x.tenant = tenant ∧ x.desc = inlineDesc p (asInvoke p).dlen ∧ x.accBeat = s.beat ∧
        t.out = s.out ++ [k] ∧ k.opc = 0x3A ∧ k.status = 0 ∧ k.host = p.host ∧ k.tag = p.tag ∧
        k.body = BitVec.ofNat 2048 s.beat ∧
        (∀ y ∈ strmsOf (inlineDesc p (asInvoke p).dlen), ∀ g, y.len ≠ 0 → y.wr = false →
          s.rgnAt (ptrSpace y.base) (ptrOff y.base) = some g → g.mode = 2 →
          (⟨g.id, g.version, 0x10000 + n, s.beat⟩ : Pin) ∈ t.pub.pins) ∧
        ((∀ y ∈ strmsOf (inlineDesc p (asInvoke p).dlen), ∀ g, s.rgnAt (ptrSpace y.base) (ptrOff y.base) = some g → g.mode ≠ 2) →
          t.mem = s.mem ∧ t.homes.lc = s.homes.lc ∧ t.pub.pins = s.pub.pins)) ∧
    (s.on F.dispOpsCtlEn = false →
      ∃ (t : State) (k : Pkt), exec (.invoke p) s = .next t ∧ t.disp.insts = s.disp.insts ∧ t.out = s.out ++ [k] ∧ k.opc = 0x3A ∧ k.status = 1 ∧
        k.host = p.host ∧ t.mem = s.mem ∧ t.homes = s.homes)) ∧
  (∀ (s : State) (p : Pkt) (g : Rgn) (e : Tlb) (l : LcLine) (tenant n : Nat), DispReady s → (asInvoke p).dloc = true →
    TileReady s (dispMsg 0x1000 (asInvoke p).dptr) g e l → l.poison = false → s.homes.filter = [] → (asInvoke p).dlen ≤ 128 →
    16 ≤ (asInvoke p).dlen →
    InvokeValid s (asInvoke p) ((lineBytes l.data).take (asInvoke p).dlen) (s.attach p.host.toNat none) tenant →
    s.on F.dispOpsCtlEn = true → s.disp.insts.length < 4096 → (s.jobsOf none).length < 1024 → s.disp.reads = [] →
    findLow 4096 (fun i => (s.inst? i).isNone) = some n →
    ∃ (t : State) (x : Inst) (k : Pkt), exec (.invoke p) s = .next t ∧ t.disp.insts = s.disp.insts ++ [x] ∧ x.idx = n ∧ x.state = 0 ∧ x.tenant = tenant ∧
      x.opid = (asInvoke p).opid ∧ x.desc = (lineBytes l.data).take (asInvoke p).dlen ∧ t.disp.descs = [] ∧
      t.out = s.out ++ [k] ∧ k.opc = 0x3A ∧ k.status = 0 ∧ k.host = p.host ∧ k.tag = p.tag ∧ t.homes.lc = s.homes.lc) ∧
  (∀ (s : State) (p : Pkt) (st : Nat), DispReady s → (asInvoke p).dloc = false →
    ((((asInvoke p).zeros && opKnown (asInvoke p).opid) = false ∧ st = 2) ∨
      ((asInvoke p).zeros = true ∧ opKnown (asInvoke p).opid = true ∧ ((asInvoke p).dlen < 16 ∨ 224 < (asInvoke p).dlen) ∧
        st = 2) ∨
      ((asInvoke p).zeros = true ∧ opKnown (asInvoke p).opid = true ∧ 16 ≤ (asInvoke p).dlen ∧ (asInvoke p).dlen ≤ 224 ∧
        ((descOk (asInvoke p).opid (inlineDesc p (asInvoke p).dlen) (asInvoke p).dlen = false ∧ st = 2) ∨
          (descOk (asInvoke p).opid (inlineDesc p (asInvoke p).dlen) (asInvoke p).dlen = true ∧
            pointersOk (asInvoke p) (strmsOf (inlineDesc p (asInvoke p).dlen)) = false ∧ st = 3)))) →
    ∃ (t : State) (k : Pkt), exec (.invoke p) s = .next t ∧ t.disp.insts = s.disp.insts ∧ t.out = s.out ++ [k] ∧ k.opc = 0x3A ∧
      k.status.toNat = st ∧ k.host = p.host ∧ t.mem = s.mem ∧ t.homes = s.homes ∧ t.hosts = s.hosts) ∧
  (∀ (s : State) (p : Pkt) (c : Nat) (ten : Option Nat), DispReady s → (asInvoke p).dloc = false → (asInvoke p).zeros = true →
    opKnown (asInvoke p).opid = true → 16 ≤ (asInvoke p).dlen → (asInvoke p).dlen ≤ 224 →
    descOk (asInvoke p).opid (inlineDesc p (asInvoke p).dlen) (asInvoke p).dlen = true →
    pointersOk (asInvoke p) (strmsOf (inlineDesc p (asInvoke p).dlen)) = true →
    s.admitExtents (s.attach p.host.toNat none) (extentsOf (asInvoke p) (strmsOf (inlineDesc p (asInvoke p).dlen))) = (some c, ten) →
    c ≠ 0 → (s.frz p.host.toNat).state = 0 →
    ∃ (t : State) (k : Pkt), exec (.invoke p) s = .next t ∧ t.disp.insts = s.disp.insts ∧ t.out = s.out ++ [k] ∧ k.opc = 0x3A ∧ k.status = 5 ∧
      k.host = p.host ∧ (t.frz p.host.toNat).state = 1 ∧ (t.frz p.host.toNat).cause = c ∧
      (⟨s.beat, 9, 862, none⟩ : Event) ∈ t.events ∧ t.mem = s.mem) ∧
  (∀ (s : State) (p : Pkt), DispReady s → bit p.body.toNat 16 = 0 →
    ∃ (t : State) (k : Pkt), exec (.cancel p) s = .next t ∧ t.events = s.events ++ [⟨s.beat, 9, 862, none⟩] ∧ t.out = s.out ++ [k] ∧
      k.opc = 0x3A ∧ k.status = 0 ∧ k.host = p.host ∧ k.tag = p.tag ∧ t.disp.insts.length = s.disp.insts.length ∧
      k.body = BitVec.ofNat 2048 ((s.disp.insts.filter fun i => i.host == p.host.toNat && i.tag == bits p.body.toNat 31 17 &&
        i.ends).length * 2 ^ 64) ∧
      (∀ i ∈ s.disp.insts, i.host = p.host.toNat → i.tag = bits p.body.toNat 31 17 →
        (i.state = 0 → { i with state := 2, status := 9, endBeat := s.beat } ∈ t.disp.insts) ∧
        (i.state = 1 → i.stopping = none → i.done = false → { i with stopping := some 9 } ∈ t.disp.insts)) ∧
      ∀ x ∈ s.disp.insts, (∀ i ∈ s.disp.insts, i.host = p.host.toNat → i.tag = bits p.body.toNat 31 17 → i.idx ≠ x.idx) →
        x ∈ t.disp.insts) ∧
  (∀ (s : State) (p : Pkt), DispReady s → bit p.body.toNat 16 = 1 →
    (opGrant (s.attach p.host.toNat none) (bits p.body.toNat 39 32) = false →
      ∃ (t : State) (k : Pkt), exec (.cancel p) s = .next t ∧ t.disp.insts = s.disp.insts ∧ t.out = s.out ++ [k] ∧ k.opc = 0x3A ∧ k.status = 0 ∧
        k.body = 0) ∧
    (opGrant (s.attach p.host.toNat none) (bits p.body.toNat 39 32) = true →
      ∃ (t : State) (k : Pkt), exec (.cancel p) s = .next t ∧ t.out = s.out ++ [k] ∧ k.opc = 0x3A ∧ k.status = 0 ∧
        ∀ i ∈ s.disp.insts, i.tenant = bits p.body.toNat 39 32 → i.job = bits p.body.toNat 15 0 → i.state = 0 →
          { i with state := 2, status := 9, endBeat := s.beat } ∈ t.disp.insts)) ∧
  (∀ (s : State) (tenant : BitVec 8) (job : BitVec 16) (c : Cmd), Running s → Accepts s 862 c →
    (s.on F.dispJobKillBusy = true →
      ∃ t : State, exec (.jobKill tenant job c) s = .next t ∧ t.disp = s.disp ∧ t.rd (F.hdrStateClamped 862) = 1) ∧
    (s.on F.dispJobKillBusy = false → s.disp.insts.length ≤ 4096 →
      ∃ t : State, exec (.jobKill tenant job c) s = .next t ∧
        t.rd F.dispJobKillCount = ((s.jobInsts tenant.toNat job.toNat).filter (·.ends)).length ∧
        t.on F.dispJobKillBusy = !((s.jobInsts tenant.toNat job.toNat).filter (·.ends)).isEmpty ∧
        (∀ i ∈ s.disp.insts, i.tenant = tenant.toNat → i.job = job.toNat →
          (i.state = 0 → { i with state := 2, status := 9, endBeat := s.beat } ∈ t.disp.insts) ∧
          (i.state = 1 → i.stopping = none → i.done = false → { i with stopping := some 9 } ∈ t.disp.insts)) ∧
        ∀ x ∈ s.disp.insts, (∀ i ∈ s.disp.insts, i.tenant = tenant.toNat → i.job = job.toNat → i.idx ≠ x.idx) →
          x ∈ t.disp.insts)) ∧
  (∀ (s : State) (n : BitVec 12) (i : Inst), Running s → s.inst? n.toNat = some i →
    (i.state = 0 ∨ 2 < i.state ∨ (i.state = 1 ∧ i.done = false)) → exec (.instanceComplete n) s = .next s) ∧
  (∀ (s : State) (n : BitVec 12) (i : Inst), Running s → s.inst? n.toNat = some i →
    (i.state = 2 ∨ (i.state = 1 ∧ i.done = true ∧ i.stopping = none)) → s.dispBusy n.toNat = false → s.dumping i = false →
    s.pub.pins = [] → (i.cform = 0 ∨ 3 < i.cform) →
    ∃ (t : State) (j : Inst), exec (.instanceComplete n) s = .next t ∧ t.inst? n.toNat = some j ∧ j.state = 3 ∧
      j.status = (if i.state = 1 then 0 else i.status) ∧ j.endBeat = (if i.state = 1 then s.beat else i.endBeat) ∧
      j.flags = s.instFlags i ∧ t.homes = s.homes ∧ t.out = s.out) ∧
  (∀ (s : State) (n : BitVec 12) (i : Inst) (g : Rgn) (e : Tlb) (l : LcLine), s.inst? n.toNat = some i →
    TileReady s (dispMsg n.toNat i.cptr) g e l → g.mode ≤ 1 → s.homes.filter = [] → i.cptr < 2 ^ 64 →
    s.lineHeld (leafDpa e.entry e.bits (ptrOff i.cptr) / 128 * 128) = none →
    (i.state = 2 ∨ (i.state = 1 ∧ i.done = true ∧ i.stopping = none)) → s.dispBusy n.toNat = false → s.dumping i = false →
    (i.cform = 1 ∨ i.cform = 3 →
      ∃ (t : State) (j : Inst) (x : LcLine), exec (.instanceComplete n) s = .next t ∧ t.inst? n.toNat = some j ∧ j.state = 3 ∧
        t.lcGet (leafDpa e.entry e.bits (ptrOff i.cptr) / 128 * 128) = some x ∧ x.data = BitVec.ofNat 1024 (recordOf j)) ∧
    (i.cform = 2 → l.poison = false →
      ∃ (t : State) (j : Inst) (x : LcLine), exec (.instanceComplete n) s = .next t ∧ t.inst? n.toNat = some j ∧ j.state = 3 ∧
        t.lcGet (leafDpa e.entry e.bits (ptrOff i.cptr) / 128 * 128) = some x ∧
        x.data = mergeLine l.data (atomPut l.data i.cptr 3 (atomNew 1 3 (atomOld l.data i.cptr 3) 1)) (atomMask i.cptr 3))) ∧
  (∀ (s : State) (n : BitVec 12) (i : Inst), Running s → s.inst? n.toNat = some i → i.state ≠ 3 →
    exec (.opdoneSend n) s = .next s) ∧
  (∀ (s : State) (n : BitVec 12) (i : Inst), Running s → s.inst? n.toNat = some i → i.state = 3 → s.dispBusy n.toNat = false →
    (i.cform ≠ 3 → i.mute = false →
      ∃ (t : State) (k : Pkt), exec (.opdoneSend n) s = .next t ∧ t.disp.insts = s.disp.insts.filter (fun x => decide (x.idx ≠ n.toNat)) ∧
        t.out = s.out ++ [k] ∧ k.opc = 0x3C ∧ k.host = BitVec.ofNat 12 i.host ∧ k.tag = BitVec.ofNat 15 i.tag ∧
        k.body = BitVec.ofNat 2048 (recordOf i) ∧ t.mem = s.mem) ∧
    (i.cform = 3 ∨ i.mute = true →
      ∃ t : State, exec (.opdoneSend n) s = .next t ∧ t.disp.insts = s.disp.insts.filter (fun x => decide (x.idx ≠ n.toNat)) ∧
        t.out = s.out ∧ t.mem = s.mem))

/-- Each operator starts the oldest waiting instance and does its work. Where none can start nothing happens; an operator of an image
begins its first phase with its cores' flags cleared; on lines at hand COPY moves the source line, FILL repeats its pattern, CHECKSUM
keeps the digest, GATHER-REDUCE sends the reduced row of its lookup and counts a bad index, SCATTER-ACCUMULATE updates its row,
PREFIX-ATTEND over no tokens sends zeros and minus infinity, and KV-APPEND sends the scaled elements at their position. -/
def Obligations.OperatorsDoTheirWork : Prop :=
  (∀ (n : Nat) (op : Instr), (n, op) ∈ ([(1, .gatherReduce), (2, .scatterAccumulate), (3, .prefixAttend), (4, .kvAppend),
      (5, .copy), (6, .fill), (7, .checksum)] : List (Nat × Instr)) →
    ∀ s : State, Running s → s.nextStart n = none → exec op s = .next s) ∧
  (∀ (s : State) (opid : BitVec 16), Running s → opBuiltin opid.toNat = true → exec (.imageOperator opid) s = .next s) ∧
  (∀ (s : State) (opid : BitVec 16), Running s → s.nextStart opid.toNat = none → exec (.imageOperator opid) s = .next s) ∧
  (∀ (s : State) (opid : BitVec 16) (i : Inst) (p : Placement) (tile : Nat), OpStart s opid.toNat i p tile →
    opBuiltin opid.toNat = false → (∀ x ∈ i.streams, x.gath = true ∨ x.len = 0) →
    ∃ t : State, exec (.imageOperator opid) s = .next t ∧
      t.disp.insts = s.disp.insts.map (fun x => if x.idx = i.idx then
        { x with state := 1, since := s.beat, place := some p.num } else x) ∧
      (∀ e ∈ p.sites, ∀ x, s.server e.1 = some x → ∀ c ∈ e.2, (t.core (128 * x + c)).flags = 0) ∧ t.homes = s.homes ∧
      t.mem = s.mem) ∧
  (∀ (s : State) (i : Inst) (p : Placement) (tile : Nat) (x : Strm) (g : Rgn) (e : Tlb) (l : LcLine), OpStart s 6 i p tile →
    i.streams = [x] → x.len = 128 → Mapped s tile x e → Cached s tile x.base g e l → g.mode = 1 → i.rpkt = false →
    s.lineHeld (leafDpa e.entry e.bits (ptrOff x.base) / 128 * 128) = none → dN i.desc 32 1 = 1 →
    ∃ (t : State) (j : Inst) (m : LcLine), exec .fill s = .next t ∧ Worked t i p j ∧
      t.lcGet (leafDpa e.entry e.bits (ptrOff x.base) / 128 * 128) = some m ∧
      ∀ k, k < 128 → m.data.extractLsb' (8 * k) 8 = BitVec.ofNat 8 (dN i.desc 40 1)) ∧
  (∀ (s : State) (i : Inst) (p : Placement) (tile : Nat) (x y : Strm) (g : Rgn) (e : Tlb) (l : LcLine), OpStart s 7 i p tile →
    i.streams = [x, y] → x.len = 128 → y.len = 0 → Mapped s tile x e → Cached s tile x.base g e l → dN i.desc 48 1 ≤ 1 →
    ∃ (t : State) (j : Inst), exec .checksum s = .next t ∧ Worked t i p j ∧ t.out = s.out ∧ t.homes.lc = s.homes.lc ∧
      j.result = (if dN i.desc 48 1 = 1 then shake256 (lineBytes l.data) else (crc64 (lineBytes l.data)).zeroExtend 512)) ∧
  (∀ (s : State) (i : Inst) (p : Placement) (tile : Nat) (x y : Strm) (g h : Rgn) (e f : Tlb) (l m : LcLine),
    OpStart s 5 i p tile → i.streams = [x, y] → x.len = 128 → y.len = 128 → Mapped s tile x e → Mapped s tile y f →
    Cached s tile x.base g e l → Cached s tile y.base h f m → h.mode = 1 → i.rpkt = false →
    s.lineHeld (leafDpa f.entry f.bits (ptrOff y.base) / 128 * 128) = none →
    ∃ (t : State) (j : Inst) (r : LcLine), exec .copy s = .next t ∧ Worked t i p j ∧
      t.lcGet (leafDpa f.entry f.bits (ptrOff y.base) / 128 * 128) = some r ∧ r.data = l.data ∧ r.poison = false) ∧
  (∀ (s : State) (i : Inst) (p : Placement) (tile : Nat) (tb ix os ws ot sc : Strm) (gi : Rgn) (ei eo : Tlb) (li : LcLine),
    OpStart s 1 i p tile → i.streams = [tb, ix, os, ws, ot, sc] → i.rpkt = true → i.mute = false → tb.gath = true → os.len = 0 →
    ws.len = 0 → sc.len = 0 → ix.len = 4 → ot.len = 128 → Mapped s tile ix ei → Mapped s tile ot eo →
    Cached s tile ix.base gi ei li → dN i.desc 116 4 = 1 → dN i.desc 122 2 = 1 → dN i.desc 120 2 = 32 → dN i.desc 124 1 = 0 →
    dN i.desc 125 1 = 0x30 → dN i.desc 128 4 = 128 →
    (∀ (g : Rgn) (e : Tlb) (l : LcLine), bits li.data.toNat 31 0 < dN i.desc 112 4 → dN i.desc 112 4 ≤ 2 ^ 31 →
      dN i.desc 112 4 * 128 ≤ tb.len → Cached s tile (tb.base + bits li.data.toNat 31 0 * 128) g e l →
      ∃ (t : State) (j : Inst) (k : Pkt), exec .gatherReduce s = .next t ∧ Worked t i p j ∧ j.skipped = 0 ∧ t.out = s.out ++ [k] ∧
        IsOpData k i 4 0 (BitVec.ofNat 1024 (leNat (packElems 0 ((List.range 32).map fun a =>
          (i.store 0 4 a i.satf (decodeF 0 (wide (decodeF 0 (bits l.data.toNat (32 * a + 31) (32 * a)))).1)).1))))) ∧
    (dN i.desc 112 4 ≤ bits li.data.toNat 31 0 → bits li.data.toNat 31 0 ≠ 2 ^ 32 - 1 →
      ∃ (t : State) (j : Inst) (k : Pkt), exec .gatherReduce s = .next t ∧ Worked t i p j ∧ j.skipped = 1 ∧ t.out = s.out ++ [k] ∧ IsOpData k i 4 0 0)) ∧
  (∀ (s : State) (i : Inst) (p : Placement) (tile : Nat) (tb ix gd st : Strm) (gi gg g : Rgn) (ei eg e : Tlb) (li lg l : LcLine),
    OpStart s 2 i p tile → i.streams = [tb, ix, gd, st] → i.rpkt = false → tb.gath = true → st.len = 0 → ix.len = 4 →
    gd.len = 128 → Mapped s tile ix ei → Mapped s tile gd eg → Cached s tile ix.base gi ei li → Cached s tile gd.base gg eg lg →
    Cached s tile (tb.base + bits li.data.toNat 31 0 * 128) g e l → g.mode = 1 →
    s.lineHeld (leafDpa e.entry e.bits (ptrOff (tb.base + bits li.data.toNat 31 0 * 128)) / 128 * 128) = none →
    dN i.desc 80 4 * 128 ≤ tb.len → dN i.desc 80 4 ≤ 2 ^ 31 → dN i.desc 84 4 = 1 → dN i.desc 88 2 = 32 → dN i.desc 90 1 = 0 →
    dN i.desc 91 1 = 0 → dN i.desc 92 4 = 128 → bits li.data.toNat 31 0 < dN i.desc 80 4 →
    ∃ (t : State) (j : Inst) (m : LcLine), exec .scatterAccumulate s = .next t ∧ Worked t i p j ∧ j.skipped = 0 ∧
      t.lcGet (leafDpa e.entry e.bits (ptrOff (tb.base + bits li.data.toNat 31 0 * 128)) / 128 * 128) = some m ∧
      ∀ a, a < 32 → bits m.data.toNat (32 * a + 31) (32 * a) =
        (i.store 0 0 (bits li.data.toNat 31 0 * 32 + a) i.satf
          (decodeF 0 (addF32 .rne (wide (decodeF 0 (bits l.data.toNat (32 * a + 31) (32 * a)))).1
            (wide (decodeF 0 (bits lg.data.toNat (32 * a + 31) (32 * a)))).1).1)).1 % 2 ^ 32) ∧
  (∀ (s : State) (i : Inst) (p : Placement) (tile : Nat) (ks vs qs os ls : Strm) (g : Rgn) (e eo el : Tlb) (l : LcLine),
    OpStart s 3 i p tile → i.streams = [ks, vs, qs, os, ls] → i.rpkt = true → i.mute = false → ks.len = 0 → vs.len = 0 →
    qs.len = 128 → os.len = 256 → ls.len = 4 → Mapped s tile qs e → Mapped s tile os eo → Mapped s tile ls el →
    Cached s tile qs.base g e l → dN i.desc 96 4 = 0 → dN i.desc 104 1 = 1 → dN i.desc 105 1 = 1 → dN i.desc 106 2 = 1 →
    dN i.desc 108 1 = 0 → dN i.desc 109 1 = 0x22 → dN i.desc 110 1 = 2 →
    ∃ (t : State) (j : Inst) (k0 k1 k2 : Pkt), exec .prefixAttend s = .next t ∧ Worked t i p j ∧ t.out = s.out ++ [k0, k1, k2] ∧ IsOpData k0 i 3 0 0 ∧
      IsOpData k1 i 3 128 0 ∧ IsOpData k2 i 4 0 0xFF800000) ∧
  (∀ (s : State) (i : Inst) (p : Placement) (tile : Nat) (ko vo ki vi : Strm) (gk gv : Rgn) (eko evo ek ev : Tlb)
      (lk lv : LcLine) (pos : Nat),
    OpStart s 4 i p tile → i.streams = [ko, vo, ki, vi] → i.rpkt = true → i.mute = false → dN i.desc 80 4 = pos →
    ko.len = 128 * (pos + 1) → vo.len = 128 * (pos + 1) → ki.len = 128 → vi.len = 128 → Mapped s tile ko eko →
    Mapped s tile vo evo → Mapped s tile ki ek → Mapped s tile vi ev → Cached s tile ki.base gk ek lk →
    Cached s tile vi.base gv ev lv → dN i.desc 84 2 = 1 → dN i.desc 86 1 = 1 → dN i.desc 87 1 = 0 → dN i.desc 88 1 = 0x22 →
    dN i.desc 89 1 = 2 →
    ∃ (t : State) (j : Inst) (k0 k1 : Pkt), exec .kvAppend s = .next t ∧ Worked t i p j ∧ t.out = s.out ++ [k0, k1] ∧
      IsOpData k0 i 0 (128 * pos) (BitVec.ofNat 1024 (leNat (packElems 2 ((List.range 64).map fun a =>
        (encodeF 2 (i.storeRm 0 (64 * pos + a)) true (mulFV (decodeF 2 (bits lk.data.toNat (16 * a + 15) (16 * a)))
          (decodeF 0 (specialF 5 (dN i.desc 96 4)).1)).1).1)))) ∧
      IsOpData k1 i 1 (128 * pos) (BitVec.ofNat 1024 (leNat (packElems 2 ((List.range 64).map fun a =>
        (encodeF 2 (i.storeRm 1 (64 * pos + a)) true (mulFV (decodeF 2 (bits lv.data.toNat (16 * a + 15) (16 * a)))
          (decodeF 0 (specialF 5 (dN i.desc 100 4)).1)).1).1)))))

/-- Flits, lanes and lasers. A codeword as sent decodes to its message, and a slot's flits go on from one codeword to the next; a good flit in sequence is accepted and its packet or messages wait for ingress; one out of sequence asks for a
roll; a bad one is dropped; a port sends its messages first and then a packet the crossbar grants, against a credit. A lost lane leaves
the receive mask and is told to the peer; the loss of all lanes, or of every good flit, for 500 beats takes the link into HOLD with its
replay buffer; an unanswered roll is asked for again, and the eighth time for a retrain; a faulty laser is replaced by its spare. -/
def Obligations.FlitsLanesAndLasers : Prop :=
  (∀ (s : State) (p : Fin 64) (fs : List LaneFlit), Running s → s.lstate p.val ≠ 3 → exec (.flitReceive p fs) s = .next s) ∧
  (∀ (s : State) (p : Fin 64) (fs : List LaneFlit), Running s → s.on (F.hdrStateInreset (768 + p.val)) = true →
    exec (.flitReceive p fs) s = .next s) ∧
  (∀ m, rsDecode (rsEncode m) = some (m % 2 ^ 5140, 0)) ∧
  (∀ (s : State) (p : Fin 64) (fs : List LaneFlit), Running s → s.lstate p.val = 3 → s.on (F.hdrStateInreset (768 + p.val)) = false →
    ∃ t : State, exec (.flitReceive p fs) s = .next t ∧ (t.link p.val).rxSlot = ((s.link p.val).rxSlot + 1) % 10280 ∧
      (t.link p.val).txSlot = ((s.link p.val).txSlot + 1) % 10280 ∧ t.mem = s.mem ∧ t.homes = s.homes) ∧
  (∀ (s : State) (p : Fin 64) (x : LaneFlit) (f : FlitIn), LinkIdle s p.val → s.on (F.hdrStateInreset (768 + p.val)) = false →
    OneFlit s p.val x f → NothingToSend s p.val →
    (∀ us, PlainFlit f 2 (s.link p.val).expect 0 us →
      ∃ t : State, exec (.flitReceive p [x]) s = .next t ∧ (t.link p.val).expect = ((s.link p.val).expect + 1) % 16384 ∧
        (t.link p.val).av = true ∧ (t.link p.val).rr = false ∧ (t.link p.val).lastGood = s.beat ∧
        (t.link p.val).inbox = (s.link p.val).inbox ++ us.takeWhile (fun u => u.toNat % 256 ≠ 0) ∧
        (t.link p.val).credit = (s.link p.val).credit ∧ t.out = s.out) ∧
    (∀ (v : Nat) (a b : BitVec 128) (us : List (BitVec 128)), v < 6 →
      PlainFlit f 1 (s.link p.val).expect v (a :: b :: 0 :: us) → a.toNat % 256 ≠ 0 → bits a.toNat 12 8 = 2 →
      (s.link p.val).stream = [[], [], [], [], [], []] → (s.link p.val).held = [0, 0, 0, 0, 0, 0] →
      ∃ t : State, exec (.flitReceive p [x]) s = .next t ∧ (t.link p.val).expect = ((s.link p.val).expect + 1) % 16384 ∧
        (t.link p.val).rx = (s.link p.val).rx ++ [⟨v, pktOfUnits p.val [a, b], 1, s.beat⟩] ∧
        (t.link p.val).stream = (s.link p.val).stream ∧ (t.link p.val).freed = (s.link p.val).freed) ∧
    (∀ (v : Nat) (n : Nat) (us : List (BitVec 128)), PlainFlit f 1 n v us → v < 6 → n ≠ (s.link p.val).expect →
      (s.link p.val).rr = false →
      ∃ t : State, exec (.flitReceive p [x]) s = .next t ∧ (t.link p.val).expect = (s.link p.val).expect ∧ (t.link p.val).rr = true ∧
        (t.link p.val).rnum = ((s.link p.val).rnum + 1) % 4 ∧ (t.link p.val).rx = (s.link p.val).rx) ∧
    (flitBad f = true →
      ∃ t : State, exec (.flitReceive p [x]) s = .next t ∧ KeepsFlits s t p.val ∧ (t.link p.val).rr = (s.link p.val).rr ∧
        (t.link p.val).rx = (s.link p.val).rx ∧ (t.link p.val).lastGood = (s.link p.val).lastGood)) ∧
  (∀ (s : State) (p : Fin 64) (lane : Fin 4), LinkIdle s p.val → s.on (F.hdrStateInreset (768 + p.val)) = false →
    tst (s.rd (F.fportLstatTxmask p.val)) lane.val = true → (s.link p.val).lit = 2 ^ lane.val → (s.link p.val).roll = [] → NoCopies s p.val →
    (s.link p.val).replay.length < 4096 →
    (∀ m, (s.link p.val).ctl = [m] →
      ∃ t : State, exec (.flitReceive p []) s = .next t ∧ (t.link p.val).ctl = [] ∧
        (t.link p.val).tx = [(lane.val, linkFlit (s.link p.val) 2 (s.link p.val).next 0 0 [m])] ∧
        (t.link p.val).replay = (s.link p.val).replay ++ [⟨(s.link p.val).next, 2, 0, 0, [m]⟩] ∧
        (t.link p.val).next = ((s.link p.val).next + 1) % 16384 ∧ t.out = s.out) ∧
    (∀ k : Pkt, (s.link p.val).ctl = [] → s.out = [k] → k.port = p → systemPkt k.opc.toNat = true → k.len.toNat ≤ 15 →
      (s.link p.val).sending = [[], [], [], [], [], []] → (s.link p.val).credit.getD (vcOf k.opc.toNat) 0 ≠ 0 →
      s.on (F.fportShapeEn p.val) = false →
      ∃ t : State, exec (.flitReceive p []) s = .next t ∧ t.out = [] ∧
        (t.link p.val).tx = [(lane.val, linkFlit (s.link p.val) 1 (s.link p.val).next (vcOf k.opc.toNat) 0 (packetUnits k))] ∧
        (t.link p.val).replay =
          (s.link p.val).replay ++ [⟨(s.link p.val).next, 1, vcOf k.opc.toNat, 0, packetUnits k⟩] ∧
        (t.link p.val).credit = (s.link p.val).credit.set (vcOf k.opc.toNat)
          ((s.link p.val).credit.getD (vcOf k.opc.toNat) 0 - 1)) ∧
    ((s.link p.val).ctl = [] → s.out = [] → (s.link p.val).sending = [[], [], [], [], [], []] →
      ∃ t : State, exec (.flitReceive p []) s = .next t ∧
        (t.link p.val).tx = [(lane.val, linkFlit (s.link p.val) 0 (s.link p.val).next 0 0 [])] ∧ KeepsFlits s t p.val)) ∧
  (∀ (s : State) (p : Fin 64) (lanes : BitVec 4) (skew : Bool), Running s →
    (s.lstate p.val ≠ 3 ∨ lanes.toNat &&& s.rd (F.fportLstatRxmask p.val) = 0) → exec (.laneLoss p lanes skew) s = .next s) ∧
  (∀ (s : State) (p : Fin 64) (lanes : BitVec 4) (skew : Bool), LinkIdle s p.val →
    lanes.toNat &&& s.rd (F.fportLstatRxmask p.val) ≠ 0 →
    (without (s.rd (F.fportLstatRxmask p.val)) (lanes.toNat &&& s.rd (F.fportLstatRxmask p.val)) ≠ 0 →
      ∃ t : State, exec (.laneLoss p lanes skew) s = .next t ∧ t.lstate p.val = 3 ∧
        t.rd (F.fportLstatRxmask p.val) =
          without (s.rd (F.fportLstatRxmask p.val)) (lanes.toNat &&& s.rd (F.fportLstatRxmask p.val)) ∧
        Says s t p.val 7 (lanes.toNat &&& s.rd (F.fportLstatRxmask p.val)) ∧ (t.link p.val).rr = true ∧
        (t.link p.val).rnum = ((s.link p.val).rnum + 1) % 4 ∧ KeepsFlits s t p.val ∧
        (skew = true → t.rd (F.fportLstatCause p.val) = 9) ∧ (⟨s.beat, 9, 768 + p.val, none⟩ : Event) ∈ t.events) ∧
    (without (s.rd (F.fportLstatRxmask p.val)) (lanes.toNat &&& s.rd (F.fportLstatRxmask p.val)) = 0 →
      (s.link p.val).lostAt = none →
      ∃ t : State, exec (.laneLoss p lanes skew) s = .next t ∧ t.regs = s.regs ∧ t.events = s.events ∧
        (t.link p.val).dark = s.rd (F.fportLstatRxmask p.val) ∧ (t.link p.val).lostAt = some s.beat)) ∧
  (∀ (s : State) (p : Fin 64) (lane : Fin 4), Running s → (s.link p.val).lostAt = none → exec (.laneRejoin p lane) s = .next s) ∧
  (∀ (s : State) (p : Fin 64) (lane : Fin 4) (n : Nat), Running s → s.lstate p.val = 3 → (s.link p.val).lostAt = some n →
    s.beat < n + 500 → tst (s.link p.val).dark lane.val = true →
    ∃ t : State, exec (.laneRejoin p lane) s = .next t ∧ (t.link p.val).lostAt = none ∧ (t.link p.val).rr = true ∧
      (t.link p.val).dark = without (s.link p.val).dark (2 ^ lane.val) ∧ t.regs = s.regs) ∧
  (∀ (s : State) (p : Fin 64) (n : Nat), Running s → s.lstate p.val = 3 → (s.link p.val).lostAt = some n →
    (s.beat < n + 500 → exec (.allLanesLost p) s = .next s) ∧
    (n + 500 ≤ s.beat →
      ∃ t : State, exec (.allLanesLost p) s = .next t ∧ t.lstate p.val = 5 ∧ t.rd (F.fportLstatCause p.val) = 1 ∧ KeepsFlits s t p.val ∧
        (t.link p.val).lostAt = none ∧ (⟨s.beat, 5, 768 + p.val, none⟩ : Event) ∈ t.events ∧ t.out = s.out)) ∧
  (∀ (s : State) (p : Fin 64), Running s → s.lstate p.val = 3 →
    (s.beat < (s.link p.val).lastGood + 500 → exec (.noGoodFlit p) s = .next s) ∧
    ((s.link p.val).lastGood + 500 ≤ s.beat →
      ∃ t : State, exec (.noGoodFlit p) s = .next t ∧ t.lstate p.val = 5 ∧ t.rd (F.fportLstatCause p.val) = 1 ∧ KeepsFlits s t p.val ∧
        (⟨s.beat, 5, 768 + p.val, none⟩ : Event) ∈ t.events ∧ t.out = s.out)) ∧
  (∀ (s : State) (p : Fin 64), Running s →
    (s.lstate p.val ≠ 3 ∨ (s.link p.val).rr = false ∨
      s.beat < (s.link p.val).rrSince + max 64 (ceilDiv (2 * s.rd (F.fportLstatRtt p.val)) 32)) →
    exec (.rollTimeout p) s = .next s) ∧
  (∀ (s : State) (p : Fin 64), LinkIdle s p.val → (s.link p.val).rr = true →
    (s.link p.val).rrSince + max 64 (ceilDiv (2 * s.rd (F.fportLstatRtt p.val)) 32) ≤ s.beat →
    ((s.link p.val).rrCount < 7 →
      ∃ t : State, exec (.rollTimeout p) s = .next t ∧ (t.link p.val).rnum = ((s.link p.val).rnum + 1) % 4 ∧
        (t.link p.val).rrSince = s.beat ∧ (t.link p.val).rrCount = (s.link p.val).rrCount + 1 ∧ (t.link p.val).req = none) ∧
    (7 ≤ (s.link p.val).rrCount →
      ∃ t : State, exec (.rollTimeout p) s = .next t ∧ (t.link p.val).rrCount = 0 ∧
        (t.link p.val).req = some ⟨true, (s.link p.val).token, 3, s.beat⟩ ∧
        Says s t p.val 4 ((s.link p.val).token + 3 * 256))) ∧
  (∀ (s : State) (g : Fin 8) (present aok bok : Bool), Running s →
    ∃ t : State, exec (.laserFault g present aok bok) s = .next t ∧
      t.rd (F.fportLaserActive g.val) = 1 - s.rd (F.fportLaserActive g.val) ∧
      t.on (F.fportLaserAok g.val) = aok ∧ t.on (F.fportLaserBok g.val) = bok ∧ t.on (F.fportLaserPresent g.val) = present ∧
      t.rd (F.fportLaserFailovers g.val) = satInc (s.rd (F.fportLaserFailovers g.val)) 16 ∧
      t.events = s.events ++ [⟨s.beat, 9, 768 + 8 * g.val, none⟩] ∧ t.links = s.links) ∧
  (∀ (s : State) (g : Fin 8) (c : Cmd), Running s → Accepts s (768 + 8 * g.val) c →
    (s.on (if s.rd (F.fportLaserActive g.val) = 0 then F.fportLaserBok g.val else F.fportLaserAok g.val) = true →
      ∃ t : State, exec (.laserSwap g c) s = .next t ∧ t.rd (F.fportLaserActive g.val) = 1 - s.rd (F.fportLaserActive g.val) ∧
        t.rd (F.fportLaserFailovers g.val) = s.rd (F.fportLaserFailovers g.val) ∧ t.links = s.links) ∧
    (s.on (if s.rd (F.fportLaserActive g.val) = 0 then F.fportLaserBok g.val else F.fportLaserAok g.val) = false →
      ∃ t : State, exec (.laserSwap g c) s = .next t ∧ t.rd (F.fportLaserActive g.val) = s.rd (F.fportLaserActive g.val) ∧
        t.rd (F.hdrStateClamped (768 + 8 * g.val)) = 1))

/-- Link messages carry out width changes and retrains. A write of the lane mask or a due widening asks for a width change and a CSYM
excess or management for a retrain; WREQ is acknowledged and WACK and WGO move the change on until both sides have gone, a lost lock or an
overdue acknowledgement ends it with its result; of two requests that cross, the higher end's stands; LDOWN shrinks the transmit mask and
rolls; RTREQ and RTACK begin a retrain; RESUME and CREDIT_INIT are taken in their states; DISABLE takes the link down; a lane mask of zero is clamped to the
transmit mask (the model's reading, log entry 6). -/
def Obligations.LinkMessages : Prop :=
  (∀ (s : State) (p : Fin 64) (mask : BitVec 4) (c : Cmd), LinkIdle s p.val → Accepts s (768 + p.val) c →
    s.on (F.fportLctlDisable p.val) = false → mask ≠ 0 → mask.toNat ≠ s.rd (F.fportLstatTxmask p.val) →
    ∃ t : State, exec (.widthChangeStart p mask c) s = .next t ∧ t.rd (F.fportLctlWmask p.val) = mask.toNat ∧
      t.on (F.fportLstatWbusy p.val) = true ∧ (t.link p.val).req = some ⟨false, (s.link p.val).token, mask.toNat, s.beat⟩ ∧
      (t.link p.val).lit = (s.link p.val).lit ||| mask.toNat ∧ Says s t p.val 1 ((s.link p.val).token + mask.toNat * 256)) ∧
  (∀ (s : State) (p : Fin 64) (mask : BitVec 4) (c : Cmd), LinkIdle s p.val → Accepts s (768 + p.val) c →
    s.on (F.fportLctlDisable p.val) = false → mask ≠ 0 → mask.toNat = s.rd (F.fportLstatTxmask p.val) →
    ∃ t : State, exec (.widthChangeStart p mask c) s = .next t ∧ t.rd (F.fportLctlWmask p.val) = mask.toNat ∧ t.links = s.links) ∧
  (∀ (s : State) (p : Fin 64) (c : Cmd), LinkIdle s p.val → Accepts s (768 + p.val) c →
    s.on (F.fportLctlDisable p.val) = false →
    ∃ t : State, exec (.widthChangeStart p 0 c) s = .next t ∧ t.rd (F.fportLctlWmask p.val) = s.rd (F.fportLstatTxmask p.val) ∧
      t.links = s.links ∧ t.rd (F.hdrStateClamped (768 + p.val)) = 1) ∧
  (∀ (s : State) (p : Fin 64), LinkIdle s p.val → s.on (F.fportLctlAutow p.val) = true →
    (s.link p.val).widenAt + 3125000 ≤ s.beat → without (s.rd (F.fportLctlWmask p.val)) (s.rd (F.fportLstatTxmask p.val)) ≠ 0 →
    ∃ t : State, exec (.autoWiden p) s = .next t ∧ (t.link p.val).widenAt = s.beat ∧ t.on (F.fportLstatWbusy p.val) = true ∧
      (t.link p.val).req = some ⟨false, (s.link p.val).token, s.rd (F.fportLctlWmask p.val), s.beat⟩ ∧
      Says s t p.val 1 ((s.link p.val).token + s.rd (F.fportLctlWmask p.val) * 256)) ∧
  (∀ (s : State) (p : Fin 64), Running s →
    (s.on (F.fportLctlAutow p.val) = false ∨ s.beat < (s.link p.val).widenAt + 3125000 ∨ s.lstate p.val ≠ 3) →
    exec (.autoWiden p) s = .next s) ∧
  (∀ (s : State) (p : Fin 64) (r : LinkReq), Running s → (s.link p.val).req = some r →
    (r.retrain = true ∨ s.beat < r.since + 31250 → exec (.wreqTimeout p) s = .next s) ∧
    (r.retrain = false → r.since + 31250 ≤ s.beat → (s.link p.val).want = [] →
      ∃ t : State, exec (.wreqTimeout p) s = .next t ∧ t.rd (F.fportLstatWres p.val) = 3 ∧ t.on (F.fportLstatWbusy p.val) = false ∧
        (t.link p.val).req = none ∧ (t.link p.val).width = none ∧
        t.rd (F.fportLstatTxmask p.val) = s.rd (F.fportLstatTxmask p.val) ∧
        t.events = s.events ++ [⟨s.beat, 9, 768 + p.val, none⟩])) ∧
  (∀ (s : State) (p : Fin 64) (token : BitVec 8) (mask : BitVec 4), LinkIdle s p.val → mask ≠ 0 →
    (∃ t : State, exec (.wreq p token mask true) s = .next t ∧ (t.link p.val).width = some ⟨token.toNat, mask.toNat, false, none, false⟩ ∧
      t.on (F.fportLstatWbusy p.val) = true ∧ (t.link p.val).lit = (s.link p.val).lit ||| mask.toNat ∧
      Says s t p.val 2 token.toNat) ∧
    (∃ t : State, exec (.wreq p token mask false) s = .next t ∧ (t.link p.val).width = none ∧ t.rd (F.fportLstatWres p.val) = 2 ∧
      t.on (F.fportLstatWbusy p.val) = false ∧ (t.link p.val).ctl = (s.link p.val).ctl ∧
      t.events = s.events ++ [⟨s.beat, 9, 768 + p.val, none⟩])) ∧
  (∀ (s : State) (p : Fin 64) (token : BitVec 8) (mask : BitVec 4) (locked : Bool) (r : LinkReq), Running s →
    s.lstate p.val = 3 → mask ≠ 0 → (s.link p.val).req = some r →
    s.rd (F.fportPeerIdId p.val) < s.rd (F.fportEndIdId p.val) →
    ∃ t : State, exec (.wreq p token mask locked) s = .next t ∧ (t.link p.val).req = some r ∧
      (t.link p.val).width = (s.link p.val).width ∧ (t.link p.val).ctl = (s.link p.val).ctl ∧ t.regs = s.regs) ∧
  (∀ (s : State) (p : Fin 64) (token : BitVec 8) (mask : BitVec 4) (r : LinkReq), Running s →
    s.lstate p.val = 3 → mask ≠ 0 → (s.link p.val).req = some r → (s.link p.val).ctl = [] →
    s.rd (F.fportEndIdId p.val) ≤ s.rd (F.fportPeerIdId p.val) →
    ∃ t : State, exec (.wreq p token mask true) s = .next t ∧ (t.link p.val).req = none ∧
      (t.link p.val).width = some ⟨token.toNat, mask.toNat, false, none, false⟩ ∧
      (t.link p.val).ctl = [linkMsg 6 r.token, linkMsg 2 token.toNat]) ∧
  (∀ (s : State) (p : Fin 64) (token : BitVec 8) (r : LinkReq), Running s → s.lstate p.val = 3 → (s.link p.val).req = some r →
    r.retrain = false → r.token = token.toNat →
    (∃ t : State, exec (.wack p token true) s = .next t ∧ (t.link p.val).req = none ∧
      (t.link p.val).width = some ⟨token.toNat, r.arg, true, none, false⟩ ∧ t.regs = s.regs) ∧
    (∃ t : State, exec (.wack p token false) s = .next t ∧ (t.link p.val).req = none ∧ (t.link p.val).width = none ∧
      t.rd (F.fportLstatWres p.val) = 2 ∧ t.on (F.fportLstatWbusy p.val) = false)) ∧
  (∀ (s : State) (p : Fin 64) (token : BitVec 8) (mask : BitVec 4) (w : WidthCh), Running s → s.lstate p.val = 3 →
    (s.link p.val).width = some w → w.token = token.toNat → w.mask = mask.toNat →
    (w.sent = none →
      ∃ t : State, exec (.wgo p token mask) s = .next t ∧ (t.link p.val).width = some { w with go := true, got := true } ∧
        t.regs = s.regs) ∧
    (∀ n, w.sent = some n → (∀ f ∈ (s.link p.val).replay, f.seq ≠ n) → (s.link p.val).dark = 0 →
      ∃ t : State, exec (.wgo p token mask) s = .next t ∧ (t.link p.val).width = none ∧ (t.link p.val).lit = mask.toNat ∧
        t.rd (F.fportLstatRxmask p.val) = mask.toNat ∧ t.on (F.fportLstatWbusy p.val) = false ∧
        t.rd (F.fportLstatWres p.val) = 0 ∧ t.events = s.events ++ [⟨s.beat, 9, 768 + p.val, none⟩])) ∧
  (∀ (s : State) (p : Fin 64) (token : BitVec 8) (mask : BitVec 4), Running s → (s.link p.val).width = none →
    ∃ t : State, exec (.wgo p token mask) s = .next t ∧ (t.link p.val).width = none ∧ t.regs = s.regs ∧ t.out = s.out) ∧
  (∀ (s : State) (p : Fin 64) (token : BitVec 8) (cause : BitVec 4), LinkIdle s p.val →
    ∃ t : State, exec (.rtreq p token cause) s = .next t ∧ t.lstate p.val = 4 ∧ Says s t p.val 5 token.toNat ∧
      (t.link p.val).retrainAt = s.beat ∧ KeepsFlits s t p.val ∧ (⟨s.beat, 9, 768 + p.val, none⟩ : Event) ∈ t.events) ∧
  (∀ (s : State) (p : Fin 64) (token : BitVec 8) (r : LinkReq), Running s → (s.link p.val).req = some r →
    (s.lstate p.val = 3 → r.retrain = true → r.token = token.toNat →
      ∃ t : State, exec (.rtack p token) s = .next t ∧ t.lstate p.val = 4 ∧ (t.link p.val).req = none ∧
        (t.link p.val).retrainAt = s.beat ∧ KeepsFlits s t p.val ∧ (⟨s.beat, 9, 768 + p.val, none⟩ : Event) ∈ t.events) ∧
    (r.token ≠ token.toNat →
      ∃ t : State, exec (.rtack p token) s = .next t ∧ t.regs = s.regs ∧ (t.link p.val).req = some r ∧ t.events = s.events)) ∧
  (∀ (s : State) (p : Fin 64) (token : BitVec 8) (w : WidthCh), Running s → (s.link p.val).width = some w →
    w.token = token.toNat → w.go = false → (s.link p.val).want = [] →
    ∃ t : State, exec (.withdraw p token) s = .next t ∧ (t.link p.val).width = none ∧ t.rd (F.fportLstatWres p.val) = 1 ∧
      t.on (F.fportLstatWbusy p.val) = false ∧ t.events = s.events ++ [⟨s.beat, 9, 768 + p.val, none⟩]) ∧
  (∀ (s : State) (p : Fin 64) (token : BitVec 8), Running s → (s.link p.val).width = none → (s.link p.val).req = none →
    ∃ t : State, exec (.withdraw p token) s = .next t ∧ t.regs = s.regs ∧ t.events = s.events ∧ t.out = s.out) ∧
  (∀ (s : State) (p : Fin 64) (x : BitVec 4), LinkIdle s p.val → s.rd (F.fportLstatTxmask p.val) &&& x.toNat ≠ 0 →
    without (s.rd (F.fportLstatTxmask p.val)) x.toNat ≠ 0 →
    ∃ t : State, exec (.ldown p x) s = .next t ∧
      t.rd (F.fportLstatTxmask p.val) = without (s.rd (F.fportLstatTxmask p.val)) x.toNat ∧
      (t.link p.val).lit = without (s.link p.val).lit x.toNat ∧ (t.link p.val).roll = (s.link p.val).replay ∧
      KeepsFlits s t p.val) ∧
  (∀ (s : State) (p : Fin 64) (c : Cmd), LinkIdle s p.val → Accepts s (768 + p.val) c →
    s.on (F.fportLctlDisable p.val) = false → s.rd (F.fportLctlWmask p.val) = s.rd (F.fportLstatTxmask p.val) →
    s.rd (F.fportLctlWmask p.val) ≠ 0 →
    ∃ t : State, exec (.linkRetrain p c) s = .next t ∧ (t.link p.val).req = some ⟨true, (s.link p.val).token, 0, s.beat⟩ ∧
      Says s t p.val 4 (s.link p.val).token) ∧
  (∀ (s : State) (p : Fin 64) (c : Cmd), Running s → Accepts s (768 + p.val) c → s.on (F.fportLctlDisable p.val) = false →
    s.lstate p.val ≠ 3 →
    ∃ t : State, exec (.linkRetrain p c) s = .next t ∧ t.links = s.links ∧ t.rd (F.hdrStateClamped (768 + p.val)) = 1) ∧
  (∀ (s : State) (p : Fin 64) (lane : Fin 4) (count : BitVec 32), LinkIdle s p.val →
    tst (s.rd (F.fportLstatRxmask p.val)) lane.val = true →
    (s.rd (F.fportLctlCsymMax p.val) < count.toNat →
      ∃ t : State, exec (.csymRetrain p lane count) s = .next t ∧ t.regs = s.regs ∧
        (t.link p.val).req = some ⟨true, (s.link p.val).token, 0, s.beat⟩ ∧ Says s t p.val 4 (s.link p.val).token) ∧
    (count.toNat ≤ s.rd (F.fportLctlCsymMax p.val) → exec (.csymRetrain p lane count) s = .next s)) ∧
  (∀ (s : State) (p : Fin 64) (a : BitVec 14), Running s → (s.link p.val).ident = true →
    ((s.lstate p.val = 4 ∧ s.beat < (s.link p.val).retrainAt + 2500) ∨
      (s.lstate p.val = 5 ∧ (s.link p.val).training.isSome = true ∧ s.beat < (s.link p.val).expiry)) →
    (s.link p.val).want = [] →
    ∃ t : State, exec (.resume p a) s = .next t ∧ t.lstate p.val = 3 ∧ (t.link p.val).replay = acked a.toNat (s.link p.val).replay ∧
      (t.link p.val).roll = acked a.toNat (s.link p.val).replay ∧ (t.link p.val).lastGood = s.beat ∧
      (t.link p.val).expect = (s.link p.val).expect ∧ (t.link p.val).credit = (s.link p.val).credit) ∧
  (∀ (s : State) (p : Fin 64) (a : BitVec 14), Running s → s.lstate p.val ≤ 3 →
    ∃ t : State, exec (.resume p a) s = .next t ∧ t.regs = s.regs ∧ KeepsFlits s t p.val) ∧
  (∀ (s : State) (p : Fin 64) (n : BitVec 96), Running s → s.lstate p.val = 2 →
    ((∀ i, i < 6 → 8 ≤ bits n.toNat (16 * i + 15) (16 * i)) →
      ∃ t : State, exec (.creditInit p n) s = .next t ∧ (t.link p.val).credited = true ∧ t.regs = s.regs ∧
        ∀ i, i < 6 → (t.link p.val).credit.getD i 0 = bits n.toNat (16 * i + 15) (16 * i)) ∧
    ((∃ i : Nat, i < 6 ∧ bits n.toNat (16 * i + 15) (16 * i) < 8) →
      ∃ t : State, exec (.creditInit p n) s = .next t ∧ t.lstate p.val = 1 ∧ t.rd (F.fportLstatCause p.val) = 8)) ∧
  (∀ (s : State) (p : Fin 64), Running s → s.lstate p.val = 0 → exec (.disable p) s = .next s) ∧
  (∀ (s : State) (p : Fin 64), Running s → s.lstate p.val ≠ 0 → s.peers = [] → s.homes.txns = [] →
    ∃ t : State, exec (.disable p) s = .next t ∧ t.lstate p.val = 1 ∧ t.rd (F.fportLstatCause p.val) = 5 ∧
      t.rd (F.fportLstatTxmask p.val) = 0 ∧ t.rd (F.fportLstatRxmask p.val) = 0 ∧ (t.link p.val).replay = [] ∧
      t.out = s.out.filter (fun k => decide (k.port.val ≠ p.val)) ∧ (⟨s.beat, 5, 768 + p.val, none⟩ : Event) ∈ t.events)

/-- A link trains, holds and goes down as Table LNK-6 says. A disabled port flushes and stands DISABLED until it is enabled; a signal starts
training, which makes the link ACTIVE with the lanes that trained, or fails with the cause of what it found; a retrain resumes or, after
80 us, takes the link into HOLD; a link in HOLD comes back through its peer, and at grace expiry flushes and goes down. -/
def Obligations.TrainingAndHold : Prop :=
  (∀ (s : State) (p : Fin 64) (c : Cmd), Running s → Accepts s (768 + p.val) c → s.on (F.fportLctlDisable p.val) = false →
    s.rd (F.fportLctlWmask p.val) ≠ 0 → s.peers = [] → s.homes.txns = [] →
    ∃ t : State, exec (.linkDisable p c) s = .next t ∧ t.lstate p.val = 0 ∧ t.on (F.fportLctlDisable p.val) = true ∧
      t.rd (F.fportLstatCause p.val) = 4 ∧ t.rd (F.fportLstatTxmask p.val) = 0 ∧ t.rd (F.fportLstatRxmask p.val) = 0 ∧
      t.out = s.out.filter (fun k => decide (k.port.val ≠ p.val)) ∧ (t.link p.val).replay = [] ∧
      (t.link p.val).tx.length = (if s.lstate p.val = 3 then 1 else 0) ∧ (⟨s.beat, 5, 768 + p.val, none⟩ : Event) ∈ t.events) ∧
  (∀ (s : State) (p : Fin 64) (c : Cmd), Running s → Accepts s (768 + p.val) c → s.on (F.fportLctlDisable p.val) = true →
    s.lstate p.val = 0 → s.rd (F.fportLctlWmask p.val) ≠ 0 →
    ∃ t : State, exec (.linkEnable p c) s = .next t ∧ t.lstate p.val = 1 ∧ t.on (F.fportLctlDisable p.val) = false ∧
      t.links = s.links ∧ t.out = s.out) ∧
  (∀ (s : State) (p : Fin 64), Running s → s.lstate p.val = 1 →
    ∃ t : State, exec (.trainingStart p) s = .next t ∧ t.lstate p.val = 2 ∧ (t.link p.val).training = some s.beat ∧
      (t.link p.val).credited = false) ∧
  (∀ (s : State) (p : Fin 64), Running s → s.lstate p.val = 5 → (s.link p.val).training = none →
    ∃ t : State, exec (.trainingStart p) s = .next t ∧ t.lstate p.val = 5 ∧ (t.link p.val).training = some s.beat ∧
      KeepsFlits s t p.val) ∧
  (∀ (s : State) (p : Fin 64), Running s → s.lstate p.val ≠ 1 → s.lstate p.val ≠ 5 → exec (.trainingStart p) s = .next s) ∧
  (∀ (s : State) (p : Fin 64) (id : BitVec 64) (resumable full half : Bool) (lanes : BitVec 4) (rtt : BitVec 32), Running s →
    s.lstate p.val = 2 →
    (∀ r, pickRate (s.rd (F.fportLctlRate p.val)) rtt.toNat full half = some r → lanes ≠ 0 →
      id.toNat ≠ s.rd (F.fportEndIdId p.val) → (s.link p.val).credited = true →
      ∃ t : State, exec (.trainingComplete p id resumable lanes rtt full half) s = .next t ∧ t.lstate p.val = 3 ∧
        t.rd (F.fportPeerIdId p.val) = id.toNat ∧ t.rd (F.fportLstatRtt p.val) = rtt.toNat ∧
        t.rd (F.fportLstatRate p.val) = r ∧ t.rd (F.fportLstatTxmask p.val) = lanes.toNat ∧
        t.rd (F.fportLstatRxmask p.val) = lanes.toNat ∧ (t.link p.val).lit = lanes.toNat ∧
        (t.link p.val).training = none ∧ t.events = s.events ++ [⟨s.beat, 9, 768 + p.val, none⟩]) ∧
    (pickRate (s.rd (F.fportLctlRate p.val)) rtt.toNat full half = none ∨ lanes = 0 →
      ∃ t : State, exec (.trainingComplete p id resumable lanes rtt full half) s = .next t ∧ t.lstate p.val = 1 ∧
        t.rd (F.fportLstatCause p.val) = 6) ∧
    (∀ r, pickRate (s.rd (F.fportLctlRate p.val)) rtt.toNat full half = some r → lanes ≠ 0 →
      id.toNat = s.rd (F.fportEndIdId p.val) →
      ∃ t : State, exec (.trainingComplete p id resumable lanes rtt full half) s = .next t ∧ t.lstate p.val = 1 ∧
        t.rd (F.fportLstatCause p.val) = 7) ∧
    (∀ r, pickRate (s.rd (F.fportLctlRate p.val)) rtt.toNat full half = some r → lanes ≠ 0 →
      id.toNat ≠ s.rd (F.fportEndIdId p.val) → (s.link p.val).credited = false →
      exec (.trainingComplete p id resumable lanes rtt full half) s = .next s)) ∧
  (∀ (s : State) (p : Fin 64) (id : BitVec 64) (resumable full half : Bool) (lanes : BitVec 4) (rtt : BitVec 32) (r : Nat),
    Running s → pickRate (s.rd (F.fportLctlRate p.val)) rtt.toNat full half = some r →
    (s.lstate p.val = 4 → s.beat < (s.link p.val).retrainAt + 2500 → (s.link p.val).resumed = none →
      ∃ t : State, exec (.trainingComplete p id resumable lanes rtt full half) s = .next t ∧ t.lstate p.val = 4 ∧
        (t.link p.val).ident = true ∧ KeepsFlits s t p.val ∧
        Says s t p.val 8 (if (s.link p.val).av = true then ((s.link p.val).expect + 16383) % 16384 else 0)) ∧
    (s.lstate p.val = 5 → (s.link p.val).training.isSome = true → s.beat < (s.link p.val).expiry → lanes ≠ 0 →
      id.toNat = s.rd (F.fportPeerIdId p.val) → resumable = true → (s.link p.val).resumed = none →
      ∃ t : State, exec (.trainingComplete p id resumable lanes rtt full half) s = .next t ∧ t.lstate p.val = 5 ∧
        (t.link p.val).ident = true ∧ KeepsFlits s t p.val ∧ t.rd (F.fportLstatTxmask p.val) = lanes.toNat ∧
        Says s t p.val 8 (if (s.link p.val).av = true then ((s.link p.val).expect + 16383) % 16384 else 0)) ∧
    (s.lstate p.val = 5 → (s.link p.val).training.isSome = true → s.beat < (s.link p.val).expiry → lanes ≠ 0 →
      (id.toNat ≠ s.rd (F.fportPeerIdId p.val) ∨ resumable = false) → s.peers = [] → s.homes.txns = [] →
      ∃ t : State, exec (.trainingComplete p id resumable lanes rtt full half) s = .next t ∧ t.lstate p.val = 1 ∧
        t.rd (F.fportLstatCause p.val) = 11 ∧ (t.link p.val).replay = [])) ∧
  (∀ (s : State) (p : Fin 64) (id : BitVec 64) (resumable full half : Bool) (lanes : BitVec 4) (rtt : BitVec 32), Running s →
    (s.lstate p.val ≤ 1 ∨ s.lstate p.val = 3) →
    exec (.trainingComplete p id resumable lanes rtt full half) s = .next s) ∧
  (∀ (s : State) (p : Fin 64) (failed skew : Bool), Running s →
    ((s.link p.val).training = none → exec (.trainingTimeout p failed skew) s = .next s) ∧
    (∀ n, (s.link p.val).training = some n →
      (failed = false → s.beat < n + 625000 → exec (.trainingTimeout p failed skew) s = .next s) ∧
      ((failed = true ∨ n + 625000 ≤ s.beat) →
        (s.lstate p.val = 2 →
          ∃ t : State, exec (.trainingTimeout p failed skew) s = .next t ∧ t.lstate p.val = 1 ∧
            t.rd (F.fportLstatCause p.val) = (if failed = true ∧ skew = true then 9 else 6) ∧
            t.events = s.events ++ [⟨s.beat, 9, 768 + p.val, none⟩]) ∧
        (s.lstate p.val = 5 →
          ∃ t : State, exec (.trainingTimeout p failed skew) s = .next t ∧ t.lstate p.val = 5 ∧ (t.link p.val).training = none ∧
            KeepsFlits s t p.val)))) ∧
  (∀ (s : State) (p : Fin 64), Running s →
    (s.lstate p.val ≠ 4 ∨ s.beat < (s.link p.val).retrainAt + 2500 → exec (.retrainTimeout p) s = .next s) ∧
    (s.lstate p.val = 4 → (s.link p.val).retrainAt + 2500 ≤ s.beat →
      ∃ t : State, exec (.retrainTimeout p) s = .next t ∧ t.lstate p.val = 5 ∧ t.rd (F.fportLstatCause p.val) = 2 ∧
        KeepsFlits s t p.val ∧ (t.link p.val).expiry = s.graceBeat p.val ∧
        (⟨s.beat, 5, 768 + p.val, none⟩ : Event) ∈ t.events ∧ t.out = s.out)) ∧
  (∀ (s : State) (p : Fin 64), Running s →
    (s.lstate p.val ≠ 5 ∨ s.beat < (s.link p.val).expiry → exec (.graceExpiry p) s = .next s) ∧
    (s.lstate p.val = 5 → (s.link p.val).expiry ≤ s.beat → s.peers = [] → s.homes.txns = [] →
      ∃ t : State, exec (.graceExpiry p) s = .next t ∧ t.lstate p.val = 1 ∧ t.rd (F.fportLstatCause p.val) = 10 ∧
        (t.link p.val).replay = [] ∧ t.out = s.out.filter (fun k => decide (k.port.val ≠ p.val)) ∧
        (⟨s.beat, 9, 768 + p.val, none⟩ : Event) ∈ t.events))

/-- Tenants are activated, torn down and freed, tiles are scrubbed between them, and strict partition is checked as it is turned on.
ACTIVATE moves a FREE tenant to ACTIVE; TEARDOWN, an event of class 7, ends an ACTIVE tenant's instances with REGION_GONE and its
regions; a command that the tenant's state does not allow is discarded and recorded; the tenant is FREE once nothing of it is left; a scrub zeroes a tile that
served another tenant, shuts its banks for 1,024 cycles and keeps its instruction memory; strict partition is on only where no condition of Table SEC-3 fails. -/
def Obligations.TenantsAndPartitions : Prop :=
  (∀ (s : State) (n : BitVec 8) (c : Cmd), Running s → Accepts s 857 c → s.tenState n.toNat = 0 →
    ∃ t : State, exec (.tenActivate n c) s = .next t ∧ t.tenState n.toNat = 1 ∧ t.rd F.secTenCmdDone = 1 ∧
      (∀ m, m ≠ n.toNat → t.tenState m = s.tenState m) ∧ t.homes = s.homes ∧ t.mem = s.mem) ∧
  (∀ (s : State) (n : BitVec 8) (c : Cmd), Running s → Accepts s 857 c → s.tenState n.toNat ≠ 0 →
    ∃ t : State, exec (.tenActivate n c) s = .next t ∧ t.sec = s.sec ∧ t.homes = s.homes ∧ t.mem = s.mem ∧
      t.rd (F.hdrStateClamped 857) = 1) ∧
  (∀ (s : State) (n : BitVec 8) (c : Cmd), Running s → Accepts s 857 c → s.tenState n.toNat = 1 →
    (∀ g ∈ s.rgns, g.tenant ≠ n.toNat) →
    ∃ t : State, exec (.tenTeardown n c) s = .next t ∧ t.tenState n.toNat = 2 ∧ t.rd F.secTenCmdDone = 0 ∧
      (⟨s.beat, 7, 857, none⟩ : Event) ∈ t.events ∧ (∀ m, m ≠ n.toNat → t.tenState m = s.tenState m) ∧ t.homes = s.homes ∧ t.mem = s.mem ∧
      (∀ i x, s.inst? i = some x → x.tenant = n.toNat → x.state = 0 →
        ∃ y : Inst, t.inst? i = some y ∧ y.state = 2 ∧ y.status = 0x0E ∧ y.endBeat = s.beat) ∧
      (∀ i x, s.inst? i = some x → x.tenant = n.toNat → x.state = 1 →
        ∃ y : Inst, t.inst? i = some y ∧ y.state = 1 ∧ y.stopping = some 0x0E)) ∧
  (∀ (s : State) (n : BitVec 8) (c : Cmd) (g : Rgn), Running s → Accepts s 857 c → s.tenState n.toNat = 1 →
    s.on F.homeRgnCmdBusy = false → s.rgn? g.id = some g → g.tenant = n.toNat → g.tier ≠ 2 →
    (∀ h ∈ s.rgns, h.tenant = n.toNat → h.id = g.id) → Quiet s → s.homes.filter = [] → s.homes.lc = [] →
    s.homes.faults = [] → s.homes.faultWait = [] → s.homes.recs = [] → s.pub.stagings = [] → s.pub.copies = [] →
    s.pub.commits = [] → s.pub.olds = [] → s.pub.pins = [] → s.flash.moves = [] → s.disp.insts = [] →
    ∃ t : State, exec (.tenTeardown n c) s = .next t ∧ t.tenState n.toNat = 2 ∧ t.rd F.secTenCmdDone = 0 ∧
      (⟨s.beat, 7, 857, none⟩ : Event) ∈ t.events ∧ t.rgn? g.id = none ∧
      (∀ id, id ≠ g.id → t.rgn? id = s.rgn? id) ∧ (⟨n.toNat, g.space, g.base, g.len⟩ : GoneRgn) ∈ t.sec.gone) ∧
  (∀ (s : State) (n : BitVec 8) (c : Cmd), Running s → Accepts s 857 c → s.tenState n.toNat ≠ 1 →
    ∃ t : State, exec (.tenTeardown n c) s = .next t ∧ t.sec = s.sec ∧ t.homes = s.homes ∧ t.disp = s.disp ∧ t.mem = s.mem ∧
      t.rd (F.hdrStateClamped 857) = 1) ∧
  (∀ (s : State) (n : BitVec 8), Running s →
    (s.tenState n.toNat ≠ 2 ∨ (∃ i ∈ s.disp.insts, i.tenant = n.toNat) ∨ s.jobBusy (jobTenant n.toNat) = true ∨
      (∃ e ∈ s.disp.lastTen, e.2 = n.toNat + 1 ∧ s.tileState e.1 = 0) →
      exec (.teardownComplete n) s = .next s) ∧
    (s.tenState n.toNat = 2 → (∀ i ∈ s.disp.insts, i.tenant ≠ n.toNat) → s.jobBusy (jobTenant n.toNat) = false →
      (∀ e ∈ s.disp.lastTen, e.2 = n.toNat + 1 → s.tileState e.1 ≠ 0) →
      ∃ t : State, exec (.teardownComplete n) s = .next t ∧ t.tenState n.toNat = 0 ∧ t.rd F.secTenCmdDone = 1 ∧
        (∀ m, m ≠ n.toNat → t.tenState m = s.tenState m) ∧ (∀ x ∈ t.sec.gone, x.tenant ≠ n.toNat) ∧ t.homes = s.homes)) ∧
  (∀ (s : State) (tile : Fin 672), Running s →
    (SMap.get 0 s.disp.lastTen tile.val = 0 ∨ s.tileBusy tile.val = true → exec (.tileScrub tile) s = .next s) ∧
    (SMap.get 0 s.disp.lastTen tile.val ≠ 0 → s.tileBusy tile.val = false → s.disp.places = [] →
      ∃ t : State, exec (.tileScrub tile) s = .next t ∧ SMap.get 0 t.disp.lastTen tile.val = 0 ∧
        (∀ k, k < 128 → t.core (128 * tile.val + k) = CoreSt.reset) ∧
        (∀ a, a < 2 ^ 20 → SMap.get 0#8 t.tiles.spad (2 ^ 20 * tile.val + a) = 0#8) ∧
        (∀ a, a < 16 → SMap.get 0#32 t.tiles.counts (16 * tile.val + a) = 0#32) ∧
        (tile.val, s.tiles.clock + 1024) ∈ t.tiles.clears ∧ (∀ k, k / 128 ≠ tile.val → t.core k = s.core k) ∧
        (∀ a, a / 2 ^ 20 ≠ tile.val → SMap.get 0#8 t.tiles.spad a = SMap.get 0#8 s.tiles.spad a) ∧
        t.tiles.imem = s.tiles.imem ∧ t.mem = s.mem ∧ t.homes = s.homes)) ∧
  (∀ (s : State) (c : Cmd) (u : State), Running s → Accepts s 857 c →
    u = s.atHook F.secPartCtlEn.csa (s.compose F.secPartCtlEn.csa [(F.secPartCtlEn, 1)]) c →
    (s.on F.secPartCtlEn = false → u.partFails = none →
      ∃ t : State, exec (.partitionEnable c) s = .next t ∧ t.rd F.secPartCtlEn = 1 ∧ t.rd F.secPartCtlStatus = 0 ∧
        t.rd F.secPartCtlNp = ((List.range 8).filter fun g => s.on (F.secPartEn g)).length) ∧
    (∀ k, s.on F.secPartCtlEn = false → u.partFails = some k →
      ∃ t : State, exec (.partitionEnable c) s = .next t ∧ t.rd F.secPartCtlEn = 0 ∧ t.rd F.secPartCtlStatus = k ∧
        t.rd F.secPartCtlNp = s.rd F.secPartCtlNp ∧ t.rd (F.hdrStateClamped 857) = 1) ∧
    (s.on F.secPartCtlEn = true →
      ∃ t : State, exec (.partitionEnable c) s = .next t ∧ t.rd F.secPartCtlEn = 1 ∧
        t.rd F.secPartCtlStatus = s.rd F.secPartCtlStatus ∧ t.rd F.secPartCtlNp = s.rd F.secPartCtlNp))

/-- Management sessions open, serve and end as R482 to R486 say. HELLO opens a session with keys from ML-KEM and answers ACCEPT; AUTH
admits a credential of the record and a failure closes the connection after 100 ms and counts against its source; a command goes to the
firmware only where the session's role permits it; an owner installs records of a higher GEN; a report answers a scope that the role
permits; a frame that fails authentication ends the session. -/
def Obligations.SessionsAndRecords : Prop :=
  (∀ (s : State) (conn : BitVec 16) (src : BitVec 128) (body : List Byte), MgtServes s →
    ((s.session? conn.toNat).isSome = true →
      ∃ t : State, exec (.hello conn src body) s = .next t ∧ t.session? conn.toNat = none ∧
        t.sec.mgtOut = s.sec.mgtOut ++ [⟨conn.toNat, 0, .close, [], s.beat⟩]) ∧
    (s.session? conn.toNat = none → s.sec.endorsed = false →
      ∃ t : State, exec (.hello conn src body) s = .next t ∧ t.sec.sessions = s.sec.sessions ∧
        t.sec.mgtOut = s.sec.mgtOut ++ [⟨conn.toNat, 1, .busy, [], s.beat⟩]) ∧
    (s.session? conn.toNat = none → s.sec.endorsed = true →
      (s.srcBlocked src.toNat = true ∨ 16 ≤ s.sec.sessions.length ∨ (s.cfg? = none ∧ s.sec.sessions ≠ []) ∨
        body.length < 1601 ∨ body.headD 0#8 ≠ 1#8) →
      ∃ t : State, exec (.hello conn src body) s = .next t ∧ t.sec.sessions = s.sec.sessions ∧
        t.sec.mgtOut = s.sec.mgtOut ++ [⟨conn.toNat, 0, .close, [], s.beat⟩])) ∧
  (∀ (s : State) (conn : BitVec 16) (src : BitVec 128) (nc key nd ct : List Byte) (ss : BitVec 256)
    (h1 : List Byte) (kd : Nat) (plain : List Byte), MgtServes s → nc.length = 32 → key.length = 1568 → s.session? conn.toNat = none → s.sec.endorsed = true →
    s.srcBlocked src.toNat = false → s.sec.sessions.length < 16 → (s.cfg?.isSome = true ∨ s.sec.sessions = []) →
    nd = natLe 32 (Config.secRandom s.free).toNat → (ct, ss) = Config.mlkemEncaps key s.free →
    h1 = 1#8 :: nc ++ key ++ nd ++ ct →
    kd = shakeWords 11 (ascii "T7-MGT-v1" ++ natLe 32 ss.toNat ++ dig (shake256 h1)) →
    plain = Config.idkCertificate ++ dig s.akPub ++ s.endorsement ++
      Config.slhSign true s.akSeed (ascii "T7-MGT-DEVICE") (dig (shake256 h1)) →
    ∃ (t : State) (x : Session), exec (.hello conn src (1#8 :: nc ++ key)) s = .next t ∧ t.sec.sessions = s.sec.sessions ++ [x] ∧
      x.conn = conn.toNat ∧ x.src = src.toNat ∧ x.who = none ∧ x.nIn = 0 ∧ x.nOut = 1 ∧ x.last = s.beat ∧
      x.keyIn = BitVec.ofNat 256 kd ∧ x.keyOut = BitVec.ofNat 256 (kd / 2 ^ 256) ∧
      x.ivIn = BitVec.ofNat 96 (kd / 2 ^ 512) ∧ x.ivOut = BitVec.ofNat 96 (kd / 2 ^ 608) ∧
      ∃ sealed : List Byte,
        sealed = Config.gcmSeal x.keyOut (nonce x.ivOut 0) (frameHead 2 (nd.length + ct.length + plain.length + 16)) plain ∧
        x.h2 = shake256 (h1 ++ frameHead 2 (nd.length + ct.length + sealed.length) ++ nd ++ ct ++ sealed) ∧
        t.sec.mgtOut = s.sec.mgtOut ++ [⟨conn.toNat, 2, .accept (nd ++ ct), sealed, s.beat⟩]) ∧
  (∀ (s : State) (conn : BitVec 16) (f : Frame) (c : Cred) (sig img : List Byte) (op : SessOp) (r : CfgRecord) (m : MinRecord)
    (n : BitVec 256) (sc : Option (BitVec 8)) (b : Bool) (x : Session), MgtServes s →
    s.session? conn.toNat = some x →
    Config.gcmOpen x.keyIn (nonce x.ivIn x.nIn) (frameHead f.ty.toNat f.body.length) f.body = none →
    ∀ i ∈ ([.auth conn f c sig, .sessionCommand conn f op, .installRecord conn f r, .installMinver conn f m,
      .attestationRequest conn f n sc, .readState conn f, .writeImage conn f b img, .writeRecord conn f (.inl r),
      .attest conn f n, .reboot conn f b] : List Instr),
    ∃ t : State, exec i s = .next t ∧ t.session? conn.toNat = none ∧
      t.sec.mgtOut = s.sec.mgtOut ++ [⟨conn.toNat, 0, .close, [], s.beat⟩] ∧ t.regs = s.regs ∧ t.sec.flash = s.sec.flash) ∧
  (∀ (s : State) (conn : BitVec 16) (f : Frame) (c : Cred) (sig : List Byte) (x : Session), GoodFrame s conn.toNat f x →
    x.who = none → Config.slhVerify true c.key (ascii "T7-MGT-CLIENT") (dig x.h2) sig = true → credOk s.cfg? c = true →
    (s.recovering = false ∨ c.role ≠ .tenantAdmin) →
    ∃ t : State, exec (.auth conn f c sig) s = .next t ∧
      Answers s t { x with who := some c } 4
        (.ready ((s.sec.sessions.findIdx? fun z => z.conn == conn.toNat).getD 0) c.role c.tenant.toNat)) ∧
  (∀ (s : State) (conn : BitVec 16) (f : Frame) (c : Cred) (sig : List Byte) (x : Session), GoodFrame s conn.toNat f x →
    x.who.isSome = true → ∃ t : State, exec (.auth conn f c sig) s = .next t ∧ Denies s t x f.ty.toNat) ∧
  (∀ (s : State) (conn : BitVec 16) (f : Frame) (c : Cred) (sig : List Byte) (x : Session), GoodFrame s conn.toNat f x →
    x.who = none →
    (Config.slhVerify true c.key (ascii "T7-MGT-CLIENT") (dig x.h2) sig = false ∨ credOk s.cfg? c = false ∨
      (s.recovering = true ∧ c.role = .tenantAdmin)) →
    ∃ t : State, exec (.auth conn f c sig) s = .next t ∧ t.session? conn.toNat = none ∧
      t.sec.mgtOut = s.sec.mgtOut ++ [⟨conn.toNat, 0, .close, [], s.beat + 3125000⟩] ∧ (x.src, s.beat) ∈ t.sec.fails ∧
      (10 ≤ (t.sec.fails.filter fun e => e.1 == x.src).length →
        SMap.get 0 t.sec.blocked x.src = s.beat + 31250000)) ∧
  (∀ (s : State) (conn : BitVec 16) (f : Frame) (op : SessOp) (x : Session) (c : Cred), GoodFrame s conn.toNat f x →
    x.who = some c →
    (s.permits c op = true → s.recovering = false →
      ∃ t : State, exec (.sessionCommand conn f op) s = .next t ∧ t.sec.mgtOut = s.sec.mgtOut ∧
        t.session? conn.toNat = some { x with nIn := x.nIn + 1, last := s.beat } ∧ t.sec.flash = s.sec.flash ∧ t.regs = s.regs ∧
        t.sec.fwIn = s.sec.fwIn ++ [⟨conn.toNat, c.role, c.tenant.toNat, op⟩]) ∧
    (s.permits c op = false ∨ s.recovering = true →
      ∃ t : State, exec (.sessionCommand conn f op) s = .next t ∧ Denies s t x f.ty.toNat) ∧
    (∀ a v, op = .write a v → c.role ≠ .owner → csaPart a.toNat = true →
      ∃ t : State, exec (.sessionCommand conn f op) s = .next t ∧ Denies s t x f.ty.toNat)) ∧
  (∀ (s : State) (conn : BitVec 16) (f : Frame) (op : SessOp) (x : Session), GoodFrame s conn.toNat f x → x.who = none →
    ∃ t : State, exec (.sessionCommand conn f op) s = .next t ∧ t.session? conn.toNat = none ∧ t.sec.fwIn = s.sec.fwIn ∧
      t.sec.mgtOut = s.sec.mgtOut ++ [⟨conn.toNat, 0, .close, [], s.beat + 3125000⟩]) ∧
  (∀ (s : State) (conn : BitVec 16), MgtServes s →
    (s.session? conn.toNat = none → exec (.sessionIdleTimeout conn) s = .next s) ∧
    (∀ x, s.session? conn.toNat = some x →
      (x.last + 18750000000 ≤ s.beat ∨ 2 ^ 32 ≤ x.nIn ∨ 2 ^ 32 ≤ x.nOut →
        ∃ t : State, exec (.sessionIdleTimeout conn) s = .next t ∧ t.session? conn.toNat = none ∧
          t.sec.mgtOut = s.sec.mgtOut ++ [⟨conn.toNat, 0, .close, [], s.beat⟩]) ∧
      (s.beat < x.last + 18750000000 → x.nIn < 2 ^ 32 → x.nOut < 2 ^ 32 →
        exec (.sessionIdleTimeout conn) s = .next s))) ∧
  (∀ (s : State) (conn : BitVec 16) (f : Frame) (r : CfgRecord) (x : Session) (c : Cred), GoodFrame s conn.toNat f x →
    x.who = some c → s.sec.flash ≠ [] → s.recovering = false →
    (c.role = .owner → cfgValid r = true → ((∃ old : CfgRecord, s.cfg? = some old ∧ old.gen.toNat < r.gen.toNat) ∨
        (s.cfg? = none ∧ c.key = r.owner)) →
      ∃ t : State, exec (.installRecord conn f r) s = .next t ∧ t.cfg? = some r ∧ (∀ b ∈ t.sec.flash, b.cfg = some r) ∧
        (⟨conn.toNat, f.ty.toNat, .done, x.seal f.ty.toNat (mgtBytes .done), s.beat⟩ : MgtFrame) ∈ t.sec.mgtOut ∧
        (∀ y ∈ t.sec.sessions, ∀ d, y.who = some d → credOk (some r) d = true) ∧ t.sec.endorsed = false ∧
        t.events = s.events ++ [⟨s.beat, 8, 857, none⟩]) ∧
    (c.role ≠ .owner ∨ cfgValid r = false ∨ (∃ old : CfgRecord, s.cfg? = some old ∧ r.gen.toNat ≤ old.gen.toNat) ∨
        (s.cfg? = none ∧ c.key ≠ r.owner) →
      ∃ t : State, exec (.installRecord conn f r) s = .next t ∧ Denies s t x f.ty.toNat)) ∧
  (∀ (s : State) (conn : BitVec 16) (f : Frame) (m : MinRecord) (x : Session) (c : Cred), GoodFrame s conn.toNat f x →
    x.who = some c → s.recovering = false →
    (c.role = .owner → s.minValid m = true → (∀ old, s.min? = some old → old.gen.toNat < m.gen.toNat) →
      ∃ t : State, exec (.installMinver conn f m) s = .next t ∧ (∀ b ∈ t.sec.flash, b.min = some m) ∧
        t.sec.flash.map (fun b => b.cfg) = s.sec.flash.map (fun b => b.cfg) ∧ Answers s t x f.ty.toNat .done) ∧
    (c.role ≠ .owner ∨ s.minValid m = false ∨ (∃ old : MinRecord, s.min? = some old ∧ m.gen.toNat ≤ old.gen.toNat) →
      ∃ t : State, exec (.installMinver conn f m) s = .next t ∧ Denies s t x f.ty.toNat)) ∧
  (∀ (s : State) (conn : BitVec 16) (f : Frame) (r : CfgRecord) (m : MinRecord) (x : Session), GoodFrame s conn.toNat f x →
    (x.who = none ∨ s.recovering = true) →
    ∀ i ∈ ([.installRecord conn f r, .installMinver conn f m] : List Instr),
    ∃ t : State, exec i s = .next t ∧ Denies s t x f.ty.toNat) ∧
  (∀ s : State, MgtServes s →
    ((4 ≤ s.rd F.rstCtlStage ∧ s.sec.fw.isSome = true) ∨ s.recovering = true →
      exec .endorsementSigned s = .next (s.setSec fun x => { x with endorsed := true })) ∧
    (s.recovering = false → (s.rd F.rstCtlStage < 4 ∨ s.sec.fw = none) → exec .endorsementSigned s = .next s)) ∧
  (∀ (s : State) (conn : BitVec 16) (f : Frame) (n : BitVec 256) (sc : Option (BitVec 8)) (x : Session) (c : Cred),
    GoodFrame s conn.toNat f x → x.who = some c →
    (s.recovering = false → scopeOk c sc = true → s.sec.endorsed = true →
      ∃ t : State, exec (.attestationRequest conn f n sc) s = .next t ∧
        Answers s t x f.ty.toNat (.report ((s.openFrame conn.toNat f).2.report n (sc.map fun v => v.toNat)))) ∧
    (s.recovering = false → scopeOk c sc = true → s.sec.endorsed = false →
      ∃ t : State, exec (.attestationRequest conn f n sc) s = .next t ∧ Answers s t x f.ty.toNat .busy) ∧
    (scopeOk c sc = false ∨ s.recovering = true →
      ∃ t : State, exec (.attestationRequest conn f n sc) s = .next t ∧ Denies s t x f.ty.toNat)) ∧
  (∀ (c : Cred) (v : BitVec 8), (c.role = .owner → scopeOk c none = true ∧ scopeOk c (some v) = true) ∧
    (c.role = .operator ∨ c.role = .auditor → scopeOk c none = true ∧ scopeOk c (some v) = false) ∧
    (c.role = .tenantAdmin → scopeOk c none = false ∧ (scopeOk c (some v) = true ↔ v = c.tenant)))

/-- Measurements and the recovery service run as R487 and Table RST-8 say. Marking a region starts its measurement, which pins the
current version of a PUBLISHED region; its end keeps the root with version and beat, or keeps the previous root where a page is
poisoned. It goes on while a page is still on its way.  The recovery service answers its five commands to the roles of Table RST-8 alone, and only while the T7 stays in stage 3
with BOOT.FAIL set: an image is verified before it is written, and REBOOT sets BOOT.NEXT and resets warm. -/
def Obligations.MeasurementsAndRecovery : Prop :=
  (∀ (s : State) (region : BitVec 16) (c : Cmd), Running s → Accepts s 857 c → s.on F.secMeasCmdBusy = true →
    ∀ i ∈ ([.measureMark region c, .measureUnmark region c, .measureAgain region c] : List Instr),
    ∃ t : State, exec i s = .next t ∧ t.sec = s.sec ∧ t.pub = s.pub ∧ t.rd (F.hdrStateClamped 857) = 1) ∧
  (∀ (s : State) (region : BitVec 16) (c : Cmd) (g : Rgn), Running s → Accepts s 857 c → s.on F.secMeasCmdBusy = false →
    s.rgn? region.toNat = some g → s.sec.meas.length < 64 → (∀ m ∈ s.sec.meas, m.region ≠ region.toNat) →
    ∃ t : State, exec (.measureMark region c) s = .next t ∧ t.sec.meas = s.sec.meas ++ [⟨region.toNat, none, 0, 0, 0, 0, 0⟩] ∧
      t.rd F.secMeasCmdMarked = s.sec.meas.length + 1 ∧
      ((∃ p ∈ s.disp.places, p.opid = 7 ∧ p.unloading = false) →
        t.sec.measRun = some region.toNat ∧ t.rd F.secMeasCmdBusy = 1 ∧
        t.pub.pins = s.pub.pins ++ (if g.mode = 2 then [⟨region.toNat, g.version, measHolder, s.beat⟩] else [])) ∧
      ((∀ p ∈ s.disp.places, p.opid ≠ 7 ∨ p.unloading = true) →
        t.sec.measRun = s.sec.measRun ∧ t.rd F.secMeasCmdStatus = 2 ∧ t.pub = s.pub ∧ t.rd (F.hdrStateClamped 857) = 1)) ∧
  (∀ (s : State) (region : BitVec 16) (c : Cmd), Running s → Accepts s 857 c → s.on F.secMeasCmdBusy = false →
    (64 ≤ s.sec.meas.length → (∀ m ∈ s.sec.meas, m.region ≠ region.toNat) →
      ∃ t : State, exec (.measureMark region c) s = .next t ∧ t.sec = s.sec ∧ t.pub = s.pub ∧ t.rd (F.hdrStateClamped 857) = 1) ∧
    (s.sec.meas.length < 64 → s.rgn? region.toNat = none →
      ∃ t : State, exec (.measureMark region c) s = .next t ∧ t.sec = s.sec ∧ t.pub = s.pub ∧ t.rd F.secMeasCmdStatus = 3 ∧
        t.rd (F.hdrStateClamped 857) = 1)) ∧
  (∀ (s : State) (region : BitVec 16) (c : Cmd), Running s → Accepts s 857 c → s.on F.secMeasCmdBusy = false →
    s.sec.meas.length ≤ 64 →
    ∃ t : State, exec (.measureUnmark region c) s = .next t ∧
      t.sec.meas = s.sec.meas.filter (fun m => decide (m.region ≠ region.toNat)) ∧
      t.rd F.secMeasCmdMarked = t.sec.meas.length ∧ t.rd F.secMeasCmdStatus = 0 ∧ t.pub = s.pub) ∧
  (∀ (s : State) (region : BitVec 16) (c : Cmd), Running s → Accepts s 857 c → s.on F.secMeasCmdBusy = false →
    ((∀ m ∈ s.sec.meas, m.region ≠ region.toNat) →
      ∃ t : State, exec (.measureAgain region c) s = .next t ∧ t.sec = s.sec ∧ t.pub = s.pub ∧ t.rd (F.hdrStateClamped 857) = 1) ∧
    ((∃ m ∈ s.sec.meas, m.region = region.toNat) → s.rgn? region.toNat = none →
      ∃ t : State, exec (.measureAgain region c) s = .next t ∧ t.sec = s.sec ∧ t.rd F.secMeasCmdStatus = 3) ∧
    (∀ g : Rgn, (∃ m ∈ s.sec.meas, m.region = region.toNat) → s.rgn? region.toNat = some g →
      (∃ p ∈ s.disp.places, p.opid = 7 ∧ p.unloading = false) →
      ∃ t : State, exec (.measureAgain region c) s = .next t ∧ t.sec.measRun = some region.toNat ∧ t.sec.meas = s.sec.meas ∧
        t.rd F.secMeasCmdBusy = 1 ∧
        t.pub.pins = s.pub.pins ++ (if g.mode = 2 then [⟨region.toNat, g.version, measHolder, s.beat⟩] else []))) ∧
  (∀ s : State, Running s →
    (s.sec.measRun = none → exec .measurementDone s = .next s) ∧
    (∀ id, s.sec.measRun = some id → s.rgn? id = none →
      ∃ t : State, exec .measurementDone s = .next t ∧ t.sec.measRun = none ∧ t.sec.meas = s.sec.meas ∧ t.rd F.secMeasCmdBusy = 0 ∧
        t.rd F.secMeasCmdStatus = 3) ∧
    (∀ id g, s.sec.measRun = some id → s.rgn? id = some g → (∀ p ∈ s.disp.places, p.opid = 7 → (s.instOn p.num).isSome = true) →
      exec .measurementDone s = .next s) ∧
    (∀ id g p v, s.sec.measRun = some id → s.rgn? id = some g → p ∈ s.disp.places → p.opid = 7 →
      s.instOn p.num = none →
      v = ((s.pub.pins.find? fun q => q.region == id && q.holder == measHolder).map (·.version)).getD g.version →
      ((s.measLeaves g v).1 = .wait → exec .measurementDone s = .next s) ∧
      ((s.measLeaves g v).1 = .poison →
        ∃ t : State, exec .measurementDone s = .next t ∧ t.sec.measRun = none ∧ t.sec.meas = s.sec.meas ∧
          t.rd F.secMeasCmdBusy = 0 ∧ t.rd F.secMeasCmdStatus = 1) ∧
      (∀ ls, (s.measLeaves g v).1 = .got ls →
        ∃ t : State, exec .measurementDone s = .next t ∧ t.sec.measRun = none ∧ t.rd F.secMeasCmdBusy = 0 ∧
          t.rd F.secMeasCmdStatus = 0 ∧ (∀ q ∈ t.pub.pins, q.region = id → q.holder ≠ measHolder) ∧
          t.sec.meas = s.sec.meas.map (fun m => if m.region = id then
            ⟨id, some (treeRoot 33 ls), v, s.beat, g.len, g.tenant, g.mode⟩ else m)))) ∧
  (∀ (s : State) (conn : BitVec 16) (f : Frame) (slotB : Bool) (img : List Byte) (r : CfgRecord) (m : MinRecord) (n : BitVec 256)
    (x : Session), GoodFrame s conn.toNat f x →
    (s.recovering = false ∨ x.who = none ∨ HasRole x .tenantAdmin →
      ∀ i ∈ ([.readState conn f, .writeImage conn f slotB img, .writeRecord conn f (.inl r), .writeRecord conn f (.inr m),
        .attest conn f n, .reboot conn f slotB] : List Instr),
      ∃ t : State, exec i s = .next t ∧ Denies s t x f.ty.toNat) ∧
    (HasRole x .auditor →
      ∀ i ∈ ([.writeImage conn f slotB img, .writeRecord conn f (.inl r), .writeRecord conn f (.inr m),
        .reboot conn f slotB] : List Instr),
      ∃ t : State, exec i s = .next t ∧ Denies s t x f.ty.toNat) ∧
    (HasRole x .operator →
      ∀ i ∈ ([.writeRecord conn f (.inl r), .writeRecord conn f (.inr m)] : List Instr),
      ∃ t : State, exec i s = .next t ∧ Denies s t x f.ty.toNat) ∧
    (s.recovering = true → HasRole x .owner ∨ HasRole x .operator ∨ HasRole x .auditor →
      (∃ t : State, exec (.readState conn f) s = .next t ∧ Answers s t x f.ty.toNat (.state s.stateReport)) ∧
      (∃ t : State, exec (.attest conn f n) s = .next t ∧ Answers s t x f.ty.toNat (.report ((s.openFrame conn.toNat f).2.recoveryReport n)))) ∧
    (s.recovering = true → HasRole x .owner ∨ HasRole x .operator →
      (s.imageOk img = true → s.sec.flash.length = 2 →
        ∃ t : State, exec (.writeImage conn f slotB img) s = .next t ∧ Answers s t x f.ty.toNat .done ∧
          t.slotImage (if slotB then 1 else 0) = img ∧
          t.slotImage (if slotB then 0 else 1) = s.slotImage (if slotB then 0 else 1)) ∧
      (s.imageOk img = false → ∃ t : State, exec (.writeImage conn f slotB img) s = .next t ∧ Denies s t x f.ty.toNat) ∧
      (∃ t : State, exec (.reboot conn f slotB) s = .next t ∧ t.rd F.rstBootNext = (if slotB then 3 else 2) ∧
        t.rd F.rstCauseLast = 4 ∧ t.rst.resetting = some 4 ∧ t.rd F.rstCtlStage = 1 ∧ t.sec.flash = s.sec.flash ∧
        t.sec.sessions = [] ∧ t.pending = s.pending ∧ t.beat = s.beat)) ∧
    (∀ c, s.recovering = true → x.who = some c → c.role = .owner → s.sec.flash ≠ [] → cfgValid r = true →
      ((∃ old : CfgRecord, s.cfg? = some old ∧ old.gen.toNat < r.gen.toNat) ∨ (s.cfg? = none ∧ c.key = r.owner)) →
      ∃ t : State, exec (.writeRecord conn f (.inl r)) s = .next t ∧ t.cfg? = some r ∧ (∀ b ∈ t.sec.flash, b.cfg = some r)) ∧
    (s.recovering = true → HasRole x .owner → s.minValid m = true →
      (∀ old, s.min? = some old → old.gen.toNat < m.gen.toNat) →
      ∃ t : State, exec (.writeRecord conn f (.inr m)) s = .next t ∧ (∀ b ∈ t.sec.flash, b.min = some m) ∧
        Answers s t x f.ty.toNat .done))
end

