-- ==== Sys2Proof/Laws/Bits.lean ====
section
/-! SUPPORT. Laws of bit fields of numbers: a field reads back what was put into it, and the bits outside it stand. -/

namespace Sys2Proof.Machine

theorem bits_eq (w hi lo : Nat) : bits w hi lo = w / 2 ^ lo % 2 ^ (hi - lo + 1) := by
  simp [bits, Nat.shiftRight_eq_div_pow]

theorem bits_lt (w hi lo : Nat) : bits w hi lo < 2 ^ (hi - lo + 1) := by
  rw [bits_eq]; exact Nat.mod_lt _ (Nat.two_pow_pos _)

theorem bits_zero (hi lo : Nat) : bits 0 hi lo = 0 := by simp [bits]

/-- A number is its low part, a field and its high part. -/
theorem bits_split (w hi lo : Nat) :
    w = w % 2 ^ lo + bits w hi lo * 2 ^ lo + w / 2 ^ (lo + (hi - lo + 1)) * 2 ^ (lo + (hi - lo + 1)) := by
  rw [bits_eq, Nat.pow_add 2 lo (hi - lo + 1), ← Nat.div_div_eq_div_mul]
  have h1 := Nat.div_add_mod w (2 ^ lo)
  have h2 := Nat.div_add_mod (w / 2 ^ lo) (2 ^ (hi - lo + 1))
  generalize 2 ^ lo = p at *
  generalize 2 ^ (hi - lo + 1) = q at *
  generalize hd : w / p = d at *
  generalize d / q = e at *
  generalize hr : d % q = r at *
  generalize w % p = m at *
  subst h2
  rw [← h1]
  grind

/-- `setBits` puts the field between the low and the high part. -/
theorem setBits_split (w hi lo v : Nat) :
    setBits w hi lo v = w % 2 ^ lo + v % 2 ^ (hi - lo + 1) * 2 ^ lo +
      w / 2 ^ (lo + (hi - lo + 1)) * 2 ^ (lo + (hi - lo + 1)) := by
  have h := bits_split w hi lo
  unfold setBits
  simp only
  generalize w / 2 ^ (lo + (hi - lo + 1)) * 2 ^ (lo + (hi - lo + 1)) = H at *
  generalize bits w hi lo * 2 ^ lo = B at *
  generalize v % 2 ^ (hi - lo + 1) * 2 ^ lo = V at *
  generalize w % 2 ^ lo = L at *
  omega

/-- The field reads back. -/
theorem bits_setBits_same (w hi lo v : Nat) : bits (setBits w hi lo v) hi lo = v % 2 ^ (hi - lo + 1) := by
  rw [bits_eq, setBits_split, Nat.pow_add 2 lo (hi - lo + 1)]
  have hp : 0 < 2 ^ lo := Nat.two_pow_pos _
  have hq : 0 < 2 ^ (hi - lo + 1) := Nat.two_pow_pos _
  have hl : w % 2 ^ lo < 2 ^ lo := Nat.mod_lt _ hp
  generalize w / (2 ^ lo * 2 ^ (hi - lo + 1)) = H
  have e : w % 2 ^ lo + v % 2 ^ (hi - lo + 1) * 2 ^ lo + H * (2 ^ lo * 2 ^ (hi - lo + 1)) =
      w % 2 ^ lo + 2 ^ lo * (v % 2 ^ (hi - lo + 1) + 2 ^ (hi - lo + 1) * H) := by grind
  rw [e, Nat.add_mul_div_left _ _ hp, Nat.div_eq_of_lt hl, Nat.zero_add, Nat.add_mul_mod_self_left, Nat.mod_mod]

theorem testBit_bits (w hi lo i : Nat) : (bits w hi lo).testBit i = (decide (i < hi - lo + 1) && w.testBit (lo + i)) := by
  rw [bits, Nat.testBit_mod_two_pow, Nat.testBit_shiftRight]

theorem testBit_setBits (w hi lo v i : Nat) :
    (setBits w hi lo v).testBit i =
      if i < lo then w.testBit i else if i < lo + (hi - lo + 1) then v.testBit (i - lo) else w.testBit i := by
  rw [setBits_split]
  generalize hn : hi - lo + 1 = n
  have hl : w % 2 ^ lo < 2 ^ lo := Nat.mod_lt _ (Nat.two_pow_pos _)
  have hv : v % 2 ^ n < 2 ^ n := Nat.mod_lt _ (Nat.two_pow_pos _)
  have e : w % 2 ^ lo + v % 2 ^ n * 2 ^ lo + w / 2 ^ (lo + n) * 2 ^ (lo + n) =
      2 ^ lo * (2 ^ n * (w / 2 ^ (lo + n)) + v % 2 ^ n) + w % 2 ^ lo := by
    rw [Nat.pow_add 2 lo n]; grind
  rw [e, Nat.testBit_two_pow_mul_add _ hl]
  split
  · rename_i h
    rw [Nat.testBit_mod_two_pow]; simp [h]
  · rename_i h
    rw [Nat.testBit_two_pow_mul_add _ hv]
    by_cases h2 : i < lo + n
    · rw [if_pos h2, if_pos (by omega), Nat.testBit_mod_two_pow]
      simp; intro; omega
    · rw [if_neg h2, if_neg (by omega), Nat.testBit_div_two_pow]
      congr 1; omega

/-- A field that has no bit in common with the one written stands. -/
theorem bits_setBits_disjoint (w hi lo v hi' lo' : Nat) (h : hi' < lo ∨ hi < lo') (h1 : lo ≤ hi) (h2 : lo' ≤ hi') :
    bits (setBits w hi lo v) hi' lo' = bits w hi' lo' := by
  apply Nat.eq_of_testBit_eq
  intro i
  rw [testBit_bits, testBit_bits, testBit_setBits]
  by_cases hi0 : i < hi' - lo' + 1
  · simp only [hi0, decide_true, Bool.true_and]
    split
    · rfl
    · rw [if_neg (by omega)]
  · simp [hi0]

/-- A field inside 64 bits keeps a word below 2^64. -/
theorem setBits_lt (w hi lo v : Nat) (hw : w < 2 ^ 64) (h : lo ≤ hi) (h64 : hi < 64) : setBits w hi lo v < 2 ^ 64 := by
  apply Nat.lt_pow_two_of_testBit
  intro i hi64
  rw [testBit_setBits, if_neg (by omega), if_neg (by omega)]
  exact Nat.testBit_lt_two_pow (Nat.lt_of_lt_of_le hw (Nat.pow_le_pow_right (by omega) hi64))

end Sys2Proof.Machine
end

