-- ==== Sys2Proof/Laws/SMap.lean ====
section
/-! SUPPORT. Laws of the sparse arrays: a read after a write, and the canonical form, which every write keeps. -/

namespace Sys2Proof.SMap

variable {α : Type}

theorem get_erase_same (d : α) (m : SMap α) (k : Nat) : get d (erase m k) k = d := by
  induction m with
  | nil => rfl
  | cons e t ih => obtain ⟨j, v⟩ := e; simp only [erase]; split <;> simp_all [get]

theorem get_erase_ne (d : α) (m : SMap α) {k j : Nat} (h : j ≠ k) : get d (erase m k) j = get d m j := by
  induction m with
  | nil => rfl
  | cons e t ih =>
    obtain ⟨i, v⟩ := e
    simp only [erase, get]
    split
    · rename_i hi; subst hi; rw [ih, if_neg (fun x => h x.symm)]
    · simp [get, ih]

theorem get_insert_same (d : α) (m : SMap α) (k : Nat) (v : α) (h : get d m k = d) :
    get d (insert m k v) k = v ∨ (∃ w, (k, w) ∈ m) := by
  induction m with
  | nil => left; simp [insert, get]
  | cons e t ih =>
    obtain ⟨j, w⟩ := e
    by_cases hj : j = k
    · right; exact ⟨w, by simp [hj]⟩
    · simp only [get, hj, if_false] at h
      simp only [insert]
      split
      · left; simp [get]
      · rcases ih h with h1 | ⟨w', h1⟩
        · left; simp [get, hj, h1]
        · right; exact ⟨w', List.mem_cons_of_mem _ h1⟩

theorem not_mem_erase (m : SMap α) (k : Nat) (w : α) : (k, w) ∉ erase m k := by
  induction m with
  | nil => simp [erase]
  | cons e t ih =>
    obtain ⟨j, v⟩ := e
    simp only [erase]
    split
    · exact ih
    · rename_i h
      intro hm
      rcases List.mem_cons.1 hm with h1 | h1
      · injection h1 with a b; exact h a.symm
      · exact ih h1

theorem get_insert_ne (d : α) (m : SMap α) {k j : Nat} (v : α) (h : j ≠ k) : get d (insert m k v) j = get d m j := by
  induction m with
  | nil => simp [insert, get, Ne.symm h]
  | cons e t ih =>
    obtain ⟨i, w⟩ := e
    simp only [insert]
    split
    · simp [get, Ne.symm h]
    · simp [get, ih]

variable [DecidableEq α]

/-- What was written is read. -/
@[simp] theorem get_set_same (d : α) (m : SMap α) (k : Nat) (v : α) : get d (set d m k v) k = v := by
  unfold set
  split
  · rename_i h; rw [get_erase_same, h]
  · rcases get_insert_same d (erase m k) k v (get_erase_same d m k) with h1 | ⟨w, h1⟩
    · exact h1
    · exact absurd h1 (not_mem_erase m k w)

/-- A write leaves every other index as it was. -/
theorem get_set_ne (d d' : α) (m : SMap α) {k j : Nat} (v : α) (h : j ≠ k) : get d' (set d m k v) j = get d' m j := by
  unfold set
  split
  · exact get_erase_ne d' m h
  · rw [get_insert_ne d' _ v h, get_erase_ne d' m h]

theorem wf_erase (d : Nat → α) (m : SMap α) (k : Nat) (h : wf d m = true) :
    wf d (erase m k) = true ∧ ∀ j, m.all (fun e => decide (j < e.1)) = true →
      (erase m k).all (fun e => decide (j < e.1)) = true := by
  induction m with
  | nil => exact ⟨rfl, fun _ h => h⟩
  | cons e t ih =>
    obtain ⟨i, v⟩ := e
    simp only [wf, Bool.and_eq_true, decide_eq_true_eq] at h
    obtain ⟨⟨hv, hlt⟩, ht⟩ := h
    obtain ⟨h1, h2⟩ := ih ht
    simp only [erase]
    split
    · exact ⟨h1, fun j hj => h2 j (by simp only [List.all_cons, Bool.and_eq_true] at hj; exact hj.2)⟩
    · refine ⟨by simp only [wf, Bool.and_eq_true, decide_eq_true_eq]; exact ⟨⟨hv, h2 i hlt⟩, h1⟩, fun j hj => ?_⟩
      simp only [List.all_cons, Bool.and_eq_true] at hj ⊢
      exact ⟨hj.1, h2 j hj.2⟩

theorem wf_insert (d : Nat → α) (m : SMap α) (k : Nat) (v : α) (hv : v ≠ d k) (h : wf d m = true)
    (hk : ∀ w, (k, w) ∉ m) :
    wf d (insert m k v) = true ∧ ∀ j, j < k → m.all (fun e => decide (j < e.1)) = true →
      (insert m k v).all (fun e => decide (j < e.1)) = true := by
  induction m with
  | nil => exact ⟨by simp [insert, wf, hv], fun j hj _ => by simp [insert, hj]⟩
  | cons e t ih =>
    obtain ⟨i, w⟩ := e
    have hik : i ≠ k := fun hh => hk w (by simp [hh])
    simp only [wf, Bool.and_eq_true, decide_eq_true_eq] at h
    obtain ⟨⟨hw, hlt⟩, ht⟩ := h
    obtain ⟨h1, h2⟩ := ih ht (fun w' hm => hk w' (List.mem_cons_of_mem _ hm))
    simp only [insert]
    split
    · rename_i hlt2
      constructor
      · simp only [wf, Bool.and_eq_true, decide_eq_true_eq, List.all_cons]
        refine ⟨⟨hv, hlt2, ?_⟩, ⟨hw, hlt⟩, ht⟩
        rw [List.all_eq_true] at hlt ⊢
        intro x hx
        have := hlt x hx
        simp only [decide_eq_true_eq] at this ⊢
        omega
      · intro j hj hall
        simp only [List.all_cons, Bool.and_eq_true, decide_eq_true_eq] at hall ⊢
        exact ⟨hj, hall⟩
    · constructor
      · simp only [wf, Bool.and_eq_true, decide_eq_true_eq]
        exact ⟨⟨hw, h2 i (by omega) hlt⟩, h1⟩
      · intro j hj hall
        simp only [List.all_cons, Bool.and_eq_true] at hall ⊢
        exact ⟨hall.1, h2 j hj hall.2⟩

/-- A write keeps the canonical form. -/
theorem wf_set (d : Nat → α) (m : SMap α) (k : Nat) (v : α) (h : wf d m = true) : wf d (set (d k) m k v) = true := by
  unfold set
  split
  · exact (wf_erase d m k h).1
  · rename_i hv
    exact (wf_insert d (erase m k) k v hv (wf_erase d m k h).1 (not_mem_erase m k)).1

end Sys2Proof.SMap
end

