-- ==== Sys2Proof/Laws/State.lean ====
section
/-! SUPPORT. One lemma for each field of State and each named update: the update leaves every other field alone; and a
control-space field reads back what was written, while the fields beside it stand. -/

namespace Sys2Proof.Machine

variable (s : State)


@[simp] theorem State.setReg_pending (c v : Nat) : (s.setReg c v).pending = s.pending := rfl
@[simp] theorem State.setReg_beat (c v : Nat) : (s.setReg c v).beat = s.beat := rfl
@[simp] theorem State.setReg_events (c v : Nat) : (s.setReg c v).events = s.events := rfl
@[simp] theorem State.setReg_cpOut (c v : Nat) : (s.setReg c v).cpOut = s.cpOut := rfl
@[simp] theorem State.setReg_free (c v : Nat) : (s.setReg c v).free = s.free := rfl
@[simp] theorem State.setReg_beatNet (c v : Nat) : (s.setReg c v).beatNet = s.beatNet := rfl
@[simp] theorem State.setReg_pwr (c v : Nat) : (s.setReg c v).pwr = s.pwr := rfl
@[simp] theorem State.setReg_cpx (c v : Nat) : (s.setReg c v).cpx = s.cpx := rfl
@[simp] theorem State.setReg_rst (c v : Nat) : (s.setReg c v).rst = s.rst := rfl
@[simp] theorem State.setReg_hosts (c v : Nat) : (s.setReg c v).hosts = s.hosts := rfl
@[simp] theorem State.setReg_homes (c v : Nat) : (s.setReg c v).homes = s.homes := rfl
@[simp] theorem State.setReg_mem (c v : Nat) : (s.setReg c v).mem = s.mem := rfl
@[simp] theorem State.setReg_pub (c v : Nat) : (s.setReg c v).pub = s.pub := rfl
@[simp] theorem State.setReg_mir (c v : Nat) : (s.setReg c v).mir = s.mir := rfl
@[simp] theorem State.setReg_out (c v : Nat) : (s.setReg c v).out = s.out := rfl
@[simp] theorem State.setReg_dch (c v : Nat) : (s.setReg c v).dch = s.dch := rfl
@[simp] theorem State.setReg_zeroq (c v : Nat) : (s.setReg c v).zeroq = s.zeroq := rfl
@[simp] theorem State.setReg_lapStart (c v : Nat) : (s.setReg c v).lapStart = s.lapStart := rfl
@[simp] theorem State.setReg_peers (c v : Nat) : (s.setReg c v).peers = s.peers := rfl
@[simp] theorem State.setReg_peerSeq (c v : Nat) : (s.setReg c v).peerSeq = s.peerSeq := rfl
@[simp] theorem State.setReg_meshResp (c v : Nat) : (s.setReg c v).meshResp = s.meshResp := rfl
@[simp] theorem State.setReg_tenCnt (c v : Nat) : (s.setReg c v).tenCnt = s.tenCnt := rfl
@[simp] theorem State.setReg_mbar (c v : Nat) : (s.setReg c v).mbar = s.mbar := rfl
@[simp] theorem State.setReg_flash (c v : Nat) : (s.setReg c v).flash = s.flash := rfl
@[simp] theorem State.setReg_tiles (c v : Nat) : (s.setReg c v).tiles = s.tiles := rfl
@[simp] theorem State.setReg_disp (c v : Nat) : (s.setReg c v).disp = s.disp := rfl
@[simp] theorem State.setReg_links (c v : Nat) : (s.setReg c v).links = s.links := rfl
@[simp] theorem State.setReg_sec (c v : Nat) : (s.setReg c v).sec = s.sec := rfl
@[simp] theorem State.setReg_tpageAt (c v : Nat) : (s.setReg c v).tpageAt = s.tpageAt := rfl
@[simp] theorem State.setReg_tpageSeq (c v : Nat) : (s.setReg c v).tpageSeq = s.tpageSeq := rfl

@[simp] theorem State.wr_pending (f : Fld) (v : Nat) : (s.wr f v).pending = s.pending := rfl
@[simp] theorem State.wr_beat (f : Fld) (v : Nat) : (s.wr f v).beat = s.beat := rfl
@[simp] theorem State.wr_events (f : Fld) (v : Nat) : (s.wr f v).events = s.events := rfl
@[simp] theorem State.wr_cpOut (f : Fld) (v : Nat) : (s.wr f v).cpOut = s.cpOut := rfl
@[simp] theorem State.wr_free (f : Fld) (v : Nat) : (s.wr f v).free = s.free := rfl
@[simp] theorem State.wr_beatNet (f : Fld) (v : Nat) : (s.wr f v).beatNet = s.beatNet := rfl
@[simp] theorem State.wr_pwr (f : Fld) (v : Nat) : (s.wr f v).pwr = s.pwr := rfl
@[simp] theorem State.wr_cpx (f : Fld) (v : Nat) : (s.wr f v).cpx = s.cpx := rfl
@[simp] theorem State.wr_rst (f : Fld) (v : Nat) : (s.wr f v).rst = s.rst := rfl
@[simp] theorem State.wr_hosts (f : Fld) (v : Nat) : (s.wr f v).hosts = s.hosts := rfl
@[simp] theorem State.wr_homes (f : Fld) (v : Nat) : (s.wr f v).homes = s.homes := rfl
@[simp] theorem State.wr_mem (f : Fld) (v : Nat) : (s.wr f v).mem = s.mem := rfl
@[simp] theorem State.wr_pub (f : Fld) (v : Nat) : (s.wr f v).pub = s.pub := rfl
@[simp] theorem State.wr_mir (f : Fld) (v : Nat) : (s.wr f v).mir = s.mir := rfl
@[simp] theorem State.wr_out (f : Fld) (v : Nat) : (s.wr f v).out = s.out := rfl
@[simp] theorem State.wr_dch (f : Fld) (v : Nat) : (s.wr f v).dch = s.dch := rfl
@[simp] theorem State.wr_zeroq (f : Fld) (v : Nat) : (s.wr f v).zeroq = s.zeroq := rfl
@[simp] theorem State.wr_lapStart (f : Fld) (v : Nat) : (s.wr f v).lapStart = s.lapStart := rfl
@[simp] theorem State.wr_peers (f : Fld) (v : Nat) : (s.wr f v).peers = s.peers := rfl
@[simp] theorem State.wr_peerSeq (f : Fld) (v : Nat) : (s.wr f v).peerSeq = s.peerSeq := rfl
@[simp] theorem State.wr_meshResp (f : Fld) (v : Nat) : (s.wr f v).meshResp = s.meshResp := rfl
@[simp] theorem State.wr_tenCnt (f : Fld) (v : Nat) : (s.wr f v).tenCnt = s.tenCnt := rfl
@[simp] theorem State.wr_mbar (f : Fld) (v : Nat) : (s.wr f v).mbar = s.mbar := rfl
@[simp] theorem State.wr_flash (f : Fld) (v : Nat) : (s.wr f v).flash = s.flash := rfl
@[simp] theorem State.wr_tiles (f : Fld) (v : Nat) : (s.wr f v).tiles = s.tiles := rfl
@[simp] theorem State.wr_disp (f : Fld) (v : Nat) : (s.wr f v).disp = s.disp := rfl
@[simp] theorem State.wr_links (f : Fld) (v : Nat) : (s.wr f v).links = s.links := rfl
@[simp] theorem State.wr_sec (f : Fld) (v : Nat) : (s.wr f v).sec = s.sec := rfl
@[simp] theorem State.wr_tpageAt (f : Fld) (v : Nat) : (s.wr f v).tpageAt = s.tpageAt := rfl
@[simp] theorem State.wr_tpageSeq (f : Fld) (v : Nat) : (s.wr f v).tpageSeq = s.tpageSeq := rfl

@[simp] theorem State.inc_pending (f : Fld) : (s.inc f).pending = s.pending := rfl
@[simp] theorem State.inc_beat (f : Fld) : (s.inc f).beat = s.beat := rfl
@[simp] theorem State.inc_events (f : Fld) : (s.inc f).events = s.events := rfl
@[simp] theorem State.inc_cpOut (f : Fld) : (s.inc f).cpOut = s.cpOut := rfl
@[simp] theorem State.inc_free (f : Fld) : (s.inc f).free = s.free := rfl
@[simp] theorem State.inc_beatNet (f : Fld) : (s.inc f).beatNet = s.beatNet := rfl
@[simp] theorem State.inc_pwr (f : Fld) : (s.inc f).pwr = s.pwr := rfl
@[simp] theorem State.inc_cpx (f : Fld) : (s.inc f).cpx = s.cpx := rfl
@[simp] theorem State.inc_rst (f : Fld) : (s.inc f).rst = s.rst := rfl
@[simp] theorem State.inc_hosts (f : Fld) : (s.inc f).hosts = s.hosts := rfl
@[simp] theorem State.inc_homes (f : Fld) : (s.inc f).homes = s.homes := rfl
@[simp] theorem State.inc_mem (f : Fld) : (s.inc f).mem = s.mem := rfl
@[simp] theorem State.inc_pub (f : Fld) : (s.inc f).pub = s.pub := rfl
@[simp] theorem State.inc_mir (f : Fld) : (s.inc f).mir = s.mir := rfl
@[simp] theorem State.inc_out (f : Fld) : (s.inc f).out = s.out := rfl
@[simp] theorem State.inc_dch (f : Fld) : (s.inc f).dch = s.dch := rfl
@[simp] theorem State.inc_zeroq (f : Fld) : (s.inc f).zeroq = s.zeroq := rfl
@[simp] theorem State.inc_lapStart (f : Fld) : (s.inc f).lapStart = s.lapStart := rfl
@[simp] theorem State.inc_peers (f : Fld) : (s.inc f).peers = s.peers := rfl
@[simp] theorem State.inc_peerSeq (f : Fld) : (s.inc f).peerSeq = s.peerSeq := rfl
@[simp] theorem State.inc_meshResp (f : Fld) : (s.inc f).meshResp = s.meshResp := rfl
@[simp] theorem State.inc_tenCnt (f : Fld) : (s.inc f).tenCnt = s.tenCnt := rfl
@[simp] theorem State.inc_mbar (f : Fld) : (s.inc f).mbar = s.mbar := rfl
@[simp] theorem State.inc_flash (f : Fld) : (s.inc f).flash = s.flash := rfl
@[simp] theorem State.inc_tiles (f : Fld) : (s.inc f).tiles = s.tiles := rfl
@[simp] theorem State.inc_disp (f : Fld) : (s.inc f).disp = s.disp := rfl
@[simp] theorem State.inc_links (f : Fld) : (s.inc f).links = s.links := rfl
@[simp] theorem State.inc_sec (f : Fld) : (s.inc f).sec = s.sec := rfl
@[simp] theorem State.inc_tpageAt (f : Fld) : (s.inc f).tpageAt = s.tpageAt := rfl
@[simp] theorem State.inc_tpageSeq (f : Fld) : (s.inc f).tpageSeq = s.tpageSeq := rfl

@[simp] theorem State.add_pending (f : Fld) (v : Nat) : (s.add f v).pending = s.pending := rfl
@[simp] theorem State.add_beat (f : Fld) (v : Nat) : (s.add f v).beat = s.beat := rfl
@[simp] theorem State.add_events (f : Fld) (v : Nat) : (s.add f v).events = s.events := rfl
@[simp] theorem State.add_cpOut (f : Fld) (v : Nat) : (s.add f v).cpOut = s.cpOut := rfl
@[simp] theorem State.add_free (f : Fld) (v : Nat) : (s.add f v).free = s.free := rfl
@[simp] theorem State.add_beatNet (f : Fld) (v : Nat) : (s.add f v).beatNet = s.beatNet := rfl
@[simp] theorem State.add_pwr (f : Fld) (v : Nat) : (s.add f v).pwr = s.pwr := rfl
@[simp] theorem State.add_cpx (f : Fld) (v : Nat) : (s.add f v).cpx = s.cpx := rfl
@[simp] theorem State.add_rst (f : Fld) (v : Nat) : (s.add f v).rst = s.rst := rfl
@[simp] theorem State.add_hosts (f : Fld) (v : Nat) : (s.add f v).hosts = s.hosts := rfl
@[simp] theorem State.add_homes (f : Fld) (v : Nat) : (s.add f v).homes = s.homes := rfl
@[simp] theorem State.add_mem (f : Fld) (v : Nat) : (s.add f v).mem = s.mem := rfl
@[simp] theorem State.add_pub (f : Fld) (v : Nat) : (s.add f v).pub = s.pub := rfl
@[simp] theorem State.add_mir (f : Fld) (v : Nat) : (s.add f v).mir = s.mir := rfl
@[simp] theorem State.add_out (f : Fld) (v : Nat) : (s.add f v).out = s.out := rfl
@[simp] theorem State.add_dch (f : Fld) (v : Nat) : (s.add f v).dch = s.dch := rfl
@[simp] theorem State.add_zeroq (f : Fld) (v : Nat) : (s.add f v).zeroq = s.zeroq := rfl
@[simp] theorem State.add_lapStart (f : Fld) (v : Nat) : (s.add f v).lapStart = s.lapStart := rfl
@[simp] theorem State.add_peers (f : Fld) (v : Nat) : (s.add f v).peers = s.peers := rfl
@[simp] theorem State.add_peerSeq (f : Fld) (v : Nat) : (s.add f v).peerSeq = s.peerSeq := rfl
@[simp] theorem State.add_meshResp (f : Fld) (v : Nat) : (s.add f v).meshResp = s.meshResp := rfl
@[simp] theorem State.add_tenCnt (f : Fld) (v : Nat) : (s.add f v).tenCnt = s.tenCnt := rfl
@[simp] theorem State.add_mbar (f : Fld) (v : Nat) : (s.add f v).mbar = s.mbar := rfl
@[simp] theorem State.add_flash (f : Fld) (v : Nat) : (s.add f v).flash = s.flash := rfl
@[simp] theorem State.add_tiles (f : Fld) (v : Nat) : (s.add f v).tiles = s.tiles := rfl
@[simp] theorem State.add_disp (f : Fld) (v : Nat) : (s.add f v).disp = s.disp := rfl
@[simp] theorem State.add_links (f : Fld) (v : Nat) : (s.add f v).links = s.links := rfl
@[simp] theorem State.add_sec (f : Fld) (v : Nat) : (s.add f v).sec = s.sec := rfl
@[simp] theorem State.add_tpageAt (f : Fld) (v : Nat) : (s.add f v).tpageAt = s.tpageAt := rfl
@[simp] theorem State.add_tpageSeq (f : Fld) (v : Nat) : (s.add f v).tpageSeq = s.tpageSeq := rfl

@[simp] theorem State.raise_pending (b c : Nat) (e : Option Nat) : (s.raise b c e).pending = s.pending := rfl
@[simp] theorem State.raise_beat (b c : Nat) (e : Option Nat) : (s.raise b c e).beat = s.beat := rfl
@[simp] theorem State.raise_regs (b c : Nat) (e : Option Nat) : (s.raise b c e).regs = s.regs := rfl
@[simp] theorem State.raise_cpOut (b c : Nat) (e : Option Nat) : (s.raise b c e).cpOut = s.cpOut := rfl
@[simp] theorem State.raise_free (b c : Nat) (e : Option Nat) : (s.raise b c e).free = s.free := rfl
@[simp] theorem State.raise_beatNet (b c : Nat) (e : Option Nat) : (s.raise b c e).beatNet = s.beatNet := rfl
@[simp] theorem State.raise_pwr (b c : Nat) (e : Option Nat) : (s.raise b c e).pwr = s.pwr := rfl
@[simp] theorem State.raise_cpx (b c : Nat) (e : Option Nat) : (s.raise b c e).cpx = s.cpx := rfl
@[simp] theorem State.raise_rst (b c : Nat) (e : Option Nat) : (s.raise b c e).rst = s.rst := rfl
@[simp] theorem State.raise_hosts (b c : Nat) (e : Option Nat) : (s.raise b c e).hosts = s.hosts := rfl
@[simp] theorem State.raise_homes (b c : Nat) (e : Option Nat) : (s.raise b c e).homes = s.homes := rfl
@[simp] theorem State.raise_mem (b c : Nat) (e : Option Nat) : (s.raise b c e).mem = s.mem := rfl
@[simp] theorem State.raise_pub (b c : Nat) (e : Option Nat) : (s.raise b c e).pub = s.pub := rfl
@[simp] theorem State.raise_mir (b c : Nat) (e : Option Nat) : (s.raise b c e).mir = s.mir := rfl
@[simp] theorem State.raise_out (b c : Nat) (e : Option Nat) : (s.raise b c e).out = s.out := rfl
@[simp] theorem State.raise_dch (b c : Nat) (e : Option Nat) : (s.raise b c e).dch = s.dch := rfl
@[simp] theorem State.raise_zeroq (b c : Nat) (e : Option Nat) : (s.raise b c e).zeroq = s.zeroq := rfl
@[simp] theorem State.raise_lapStart (b c : Nat) (e : Option Nat) : (s.raise b c e).lapStart = s.lapStart := rfl
@[simp] theorem State.raise_peers (b c : Nat) (e : Option Nat) : (s.raise b c e).peers = s.peers := rfl
@[simp] theorem State.raise_peerSeq (b c : Nat) (e : Option Nat) : (s.raise b c e).peerSeq = s.peerSeq := rfl
@[simp] theorem State.raise_meshResp (b c : Nat) (e : Option Nat) : (s.raise b c e).meshResp = s.meshResp := rfl
@[simp] theorem State.raise_tenCnt (b c : Nat) (e : Option Nat) : (s.raise b c e).tenCnt = s.tenCnt := rfl
@[simp] theorem State.raise_mbar (b c : Nat) (e : Option Nat) : (s.raise b c e).mbar = s.mbar := rfl
@[simp] theorem State.raise_flash (b c : Nat) (e : Option Nat) : (s.raise b c e).flash = s.flash := rfl
@[simp] theorem State.raise_tiles (b c : Nat) (e : Option Nat) : (s.raise b c e).tiles = s.tiles := rfl
@[simp] theorem State.raise_disp (b c : Nat) (e : Option Nat) : (s.raise b c e).disp = s.disp := rfl
@[simp] theorem State.raise_links (b c : Nat) (e : Option Nat) : (s.raise b c e).links = s.links := rfl
@[simp] theorem State.raise_sec (b c : Nat) (e : Option Nat) : (s.raise b c e).sec = s.sec := rfl
@[simp] theorem State.raise_tpageAt (b c : Nat) (e : Option Nat) : (s.raise b c e).tpageAt = s.tpageAt := rfl
@[simp] theorem State.raise_tpageSeq (b c : Nat) (e : Option Nat) : (s.raise b c e).tpageSeq = s.tpageSeq := rfl

@[simp] theorem State.setPwr_pending (g : Pwr → Pwr) : (s.setPwr g).pending = s.pending := rfl
@[simp] theorem State.setPwr_beat (g : Pwr → Pwr) : (s.setPwr g).beat = s.beat := rfl
@[simp] theorem State.setPwr_regs (g : Pwr → Pwr) : (s.setPwr g).regs = s.regs := rfl
@[simp] theorem State.setPwr_events (g : Pwr → Pwr) : (s.setPwr g).events = s.events := rfl
@[simp] theorem State.setPwr_cpOut (g : Pwr → Pwr) : (s.setPwr g).cpOut = s.cpOut := rfl
@[simp] theorem State.setPwr_free (g : Pwr → Pwr) : (s.setPwr g).free = s.free := rfl
@[simp] theorem State.setPwr_beatNet (g : Pwr → Pwr) : (s.setPwr g).beatNet = s.beatNet := rfl
@[simp] theorem State.setPwr_cpx (g : Pwr → Pwr) : (s.setPwr g).cpx = s.cpx := rfl
@[simp] theorem State.setPwr_rst (g : Pwr → Pwr) : (s.setPwr g).rst = s.rst := rfl
@[simp] theorem State.setPwr_hosts (g : Pwr → Pwr) : (s.setPwr g).hosts = s.hosts := rfl
@[simp] theorem State.setPwr_homes (g : Pwr → Pwr) : (s.setPwr g).homes = s.homes := rfl
@[simp] theorem State.setPwr_mem (g : Pwr → Pwr) : (s.setPwr g).mem = s.mem := rfl
@[simp] theorem State.setPwr_pub (g : Pwr → Pwr) : (s.setPwr g).pub = s.pub := rfl
@[simp] theorem State.setPwr_mir (g : Pwr → Pwr) : (s.setPwr g).mir = s.mir := rfl
@[simp] theorem State.setPwr_out (g : Pwr → Pwr) : (s.setPwr g).out = s.out := rfl
@[simp] theorem State.setPwr_dch (g : Pwr → Pwr) : (s.setPwr g).dch = s.dch := rfl
@[simp] theorem State.setPwr_zeroq (g : Pwr → Pwr) : (s.setPwr g).zeroq = s.zeroq := rfl
@[simp] theorem State.setPwr_lapStart (g : Pwr → Pwr) : (s.setPwr g).lapStart = s.lapStart := rfl
@[simp] theorem State.setPwr_peers (g : Pwr → Pwr) : (s.setPwr g).peers = s.peers := rfl
@[simp] theorem State.setPwr_peerSeq (g : Pwr → Pwr) : (s.setPwr g).peerSeq = s.peerSeq := rfl
@[simp] theorem State.setPwr_meshResp (g : Pwr → Pwr) : (s.setPwr g).meshResp = s.meshResp := rfl
@[simp] theorem State.setPwr_tenCnt (g : Pwr → Pwr) : (s.setPwr g).tenCnt = s.tenCnt := rfl
@[simp] theorem State.setPwr_mbar (g : Pwr → Pwr) : (s.setPwr g).mbar = s.mbar := rfl
@[simp] theorem State.setPwr_flash (g : Pwr → Pwr) : (s.setPwr g).flash = s.flash := rfl
@[simp] theorem State.setPwr_tiles (g : Pwr → Pwr) : (s.setPwr g).tiles = s.tiles := rfl
@[simp] theorem State.setPwr_disp (g : Pwr → Pwr) : (s.setPwr g).disp = s.disp := rfl
@[simp] theorem State.setPwr_links (g : Pwr → Pwr) : (s.setPwr g).links = s.links := rfl
@[simp] theorem State.setPwr_sec (g : Pwr → Pwr) : (s.setPwr g).sec = s.sec := rfl
@[simp] theorem State.setPwr_tpageAt (g : Pwr → Pwr) : (s.setPwr g).tpageAt = s.tpageAt := rfl
@[simp] theorem State.setPwr_tpageSeq (g : Pwr → Pwr) : (s.setPwr g).tpageSeq = s.tpageSeq := rfl

@[simp] theorem State.setRst_pending (g : Rst → Rst) : (s.setRst g).pending = s.pending := rfl
@[simp] theorem State.setRst_beat (g : Rst → Rst) : (s.setRst g).beat = s.beat := rfl
@[simp] theorem State.setRst_regs (g : Rst → Rst) : (s.setRst g).regs = s.regs := rfl
@[simp] theorem State.setRst_events (g : Rst → Rst) : (s.setRst g).events = s.events := rfl
@[simp] theorem State.setRst_cpOut (g : Rst → Rst) : (s.setRst g).cpOut = s.cpOut := rfl
@[simp] theorem State.setRst_free (g : Rst → Rst) : (s.setRst g).free = s.free := rfl
@[simp] theorem State.setRst_beatNet (g : Rst → Rst) : (s.setRst g).beatNet = s.beatNet := rfl
@[simp] theorem State.setRst_pwr (g : Rst → Rst) : (s.setRst g).pwr = s.pwr := rfl
@[simp] theorem State.setRst_cpx (g : Rst → Rst) : (s.setRst g).cpx = s.cpx := rfl
@[simp] theorem State.setRst_hosts (g : Rst → Rst) : (s.setRst g).hosts = s.hosts := rfl
@[simp] theorem State.setRst_homes (g : Rst → Rst) : (s.setRst g).homes = s.homes := rfl
@[simp] theorem State.setRst_mem (g : Rst → Rst) : (s.setRst g).mem = s.mem := rfl
@[simp] theorem State.setRst_pub (g : Rst → Rst) : (s.setRst g).pub = s.pub := rfl
@[simp] theorem State.setRst_mir (g : Rst → Rst) : (s.setRst g).mir = s.mir := rfl
@[simp] theorem State.setRst_out (g : Rst → Rst) : (s.setRst g).out = s.out := rfl
@[simp] theorem State.setRst_dch (g : Rst → Rst) : (s.setRst g).dch = s.dch := rfl
@[simp] theorem State.setRst_zeroq (g : Rst → Rst) : (s.setRst g).zeroq = s.zeroq := rfl
@[simp] theorem State.setRst_lapStart (g : Rst → Rst) : (s.setRst g).lapStart = s.lapStart := rfl
@[simp] theorem State.setRst_peers (g : Rst → Rst) : (s.setRst g).peers = s.peers := rfl
@[simp] theorem State.setRst_peerSeq (g : Rst → Rst) : (s.setRst g).peerSeq = s.peerSeq := rfl
@[simp] theorem State.setRst_meshResp (g : Rst → Rst) : (s.setRst g).meshResp = s.meshResp := rfl
@[simp] theorem State.setRst_tenCnt (g : Rst → Rst) : (s.setRst g).tenCnt = s.tenCnt := rfl
@[simp] theorem State.setRst_mbar (g : Rst → Rst) : (s.setRst g).mbar = s.mbar := rfl
@[simp] theorem State.setRst_flash (g : Rst → Rst) : (s.setRst g).flash = s.flash := rfl
@[simp] theorem State.setRst_tiles (g : Rst → Rst) : (s.setRst g).tiles = s.tiles := rfl
@[simp] theorem State.setRst_disp (g : Rst → Rst) : (s.setRst g).disp = s.disp := rfl
@[simp] theorem State.setRst_links (g : Rst → Rst) : (s.setRst g).links = s.links := rfl
@[simp] theorem State.setRst_sec (g : Rst → Rst) : (s.setRst g).sec = s.sec := rfl
@[simp] theorem State.setRst_tpageAt (g : Rst → Rst) : (s.setRst g).tpageAt = s.tpageAt := rfl
@[simp] theorem State.setRst_tpageSeq (g : Rst → Rst) : (s.setRst g).tpageSeq = s.tpageSeq := rfl

@[simp] theorem State.setTiles_pending (g : Tiles → Tiles) : (s.setTiles g).pending = s.pending := rfl
@[simp] theorem State.setTiles_beat (g : Tiles → Tiles) : (s.setTiles g).beat = s.beat := rfl
@[simp] theorem State.setTiles_regs (g : Tiles → Tiles) : (s.setTiles g).regs = s.regs := rfl
@[simp] theorem State.setTiles_events (g : Tiles → Tiles) : (s.setTiles g).events = s.events := rfl
@[simp] theorem State.setTiles_cpOut (g : Tiles → Tiles) : (s.setTiles g).cpOut = s.cpOut := rfl
@[simp] theorem State.setTiles_free (g : Tiles → Tiles) : (s.setTiles g).free = s.free := rfl
@[simp] theorem State.setTiles_beatNet (g : Tiles → Tiles) : (s.setTiles g).beatNet = s.beatNet := rfl
@[simp] theorem State.setTiles_pwr (g : Tiles → Tiles) : (s.setTiles g).pwr = s.pwr := rfl
@[simp] theorem State.setTiles_cpx (g : Tiles → Tiles) : (s.setTiles g).cpx = s.cpx := rfl
@[simp] theorem State.setTiles_rst (g : Tiles → Tiles) : (s.setTiles g).rst = s.rst := rfl
@[simp] theorem State.setTiles_hosts (g : Tiles → Tiles) : (s.setTiles g).hosts = s.hosts := rfl
@[simp] theorem State.setTiles_homes (g : Tiles → Tiles) : (s.setTiles g).homes = s.homes := rfl
@[simp] theorem State.setTiles_mem (g : Tiles → Tiles) : (s.setTiles g).mem = s.mem := rfl
@[simp] theorem State.setTiles_pub (g : Tiles → Tiles) : (s.setTiles g).pub = s.pub := rfl
@[simp] theorem State.setTiles_mir (g : Tiles → Tiles) : (s.setTiles g).mir = s.mir := rfl
@[simp] theorem State.setTiles_out (g : Tiles → Tiles) : (s.setTiles g).out = s.out := rfl
@[simp] theorem State.setTiles_dch (g : Tiles → Tiles) : (s.setTiles g).dch = s.dch := rfl
@[simp] theorem State.setTiles_zeroq (g : Tiles → Tiles) : (s.setTiles g).zeroq = s.zeroq := rfl
@[simp] theorem State.setTiles_lapStart (g : Tiles → Tiles) : (s.setTiles g).lapStart = s.lapStart := rfl
@[simp] theorem State.setTiles_peers (g : Tiles → Tiles) : (s.setTiles g).peers = s.peers := rfl
@[simp] theorem State.setTiles_peerSeq (g : Tiles → Tiles) : (s.setTiles g).peerSeq = s.peerSeq := rfl
@[simp] theorem State.setTiles_meshResp (g : Tiles → Tiles) : (s.setTiles g).meshResp = s.meshResp := rfl
@[simp] theorem State.setTiles_tenCnt (g : Tiles → Tiles) : (s.setTiles g).tenCnt = s.tenCnt := rfl
@[simp] theorem State.setTiles_mbar (g : Tiles → Tiles) : (s.setTiles g).mbar = s.mbar := rfl
@[simp] theorem State.setTiles_flash (g : Tiles → Tiles) : (s.setTiles g).flash = s.flash := rfl
@[simp] theorem State.setTiles_disp (g : Tiles → Tiles) : (s.setTiles g).disp = s.disp := rfl
@[simp] theorem State.setTiles_links (g : Tiles → Tiles) : (s.setTiles g).links = s.links := rfl
@[simp] theorem State.setTiles_sec (g : Tiles → Tiles) : (s.setTiles g).sec = s.sec := rfl
@[simp] theorem State.setTiles_tpageAt (g : Tiles → Tiles) : (s.setTiles g).tpageAt = s.tpageAt := rfl
@[simp] theorem State.setTiles_tpageSeq (g : Tiles → Tiles) : (s.setTiles g).tpageSeq = s.tpageSeq := rfl

@[simp] theorem State.setDisp_pending (g : Disp → Disp) : (s.setDisp g).pending = s.pending := rfl
@[simp] theorem State.setDisp_beat (g : Disp → Disp) : (s.setDisp g).beat = s.beat := rfl
@[simp] theorem State.setDisp_regs (g : Disp → Disp) : (s.setDisp g).regs = s.regs := rfl
@[simp] theorem State.setDisp_events (g : Disp → Disp) : (s.setDisp g).events = s.events := rfl
@[simp] theorem State.setDisp_cpOut (g : Disp → Disp) : (s.setDisp g).cpOut = s.cpOut := rfl
@[simp] theorem State.setDisp_free (g : Disp → Disp) : (s.setDisp g).free = s.free := rfl
@[simp] theorem State.setDisp_beatNet (g : Disp → Disp) : (s.setDisp g).beatNet = s.beatNet := rfl
@[simp] theorem State.setDisp_pwr (g : Disp → Disp) : (s.setDisp g).pwr = s.pwr := rfl
@[simp] theorem State.setDisp_cpx (g : Disp → Disp) : (s.setDisp g).cpx = s.cpx := rfl
@[simp] theorem State.setDisp_rst (g : Disp → Disp) : (s.setDisp g).rst = s.rst := rfl
@[simp] theorem State.setDisp_hosts (g : Disp → Disp) : (s.setDisp g).hosts = s.hosts := rfl
@[simp] theorem State.setDisp_homes (g : Disp → Disp) : (s.setDisp g).homes = s.homes := rfl
@[simp] theorem State.setDisp_mem (g : Disp → Disp) : (s.setDisp g).mem = s.mem := rfl
@[simp] theorem State.setDisp_pub (g : Disp → Disp) : (s.setDisp g).pub = s.pub := rfl
@[simp] theorem State.setDisp_mir (g : Disp → Disp) : (s.setDisp g).mir = s.mir := rfl
@[simp] theorem State.setDisp_out (g : Disp → Disp) : (s.setDisp g).out = s.out := rfl
@[simp] theorem State.setDisp_dch (g : Disp → Disp) : (s.setDisp g).dch = s.dch := rfl
@[simp] theorem State.setDisp_zeroq (g : Disp → Disp) : (s.setDisp g).zeroq = s.zeroq := rfl
@[simp] theorem State.setDisp_lapStart (g : Disp → Disp) : (s.setDisp g).lapStart = s.lapStart := rfl
@[simp] theorem State.setDisp_peers (g : Disp → Disp) : (s.setDisp g).peers = s.peers := rfl
@[simp] theorem State.setDisp_peerSeq (g : Disp → Disp) : (s.setDisp g).peerSeq = s.peerSeq := rfl
@[simp] theorem State.setDisp_meshResp (g : Disp → Disp) : (s.setDisp g).meshResp = s.meshResp := rfl
@[simp] theorem State.setDisp_tenCnt (g : Disp → Disp) : (s.setDisp g).tenCnt = s.tenCnt := rfl
@[simp] theorem State.setDisp_mbar (g : Disp → Disp) : (s.setDisp g).mbar = s.mbar := rfl
@[simp] theorem State.setDisp_flash (g : Disp → Disp) : (s.setDisp g).flash = s.flash := rfl
@[simp] theorem State.setDisp_tiles (g : Disp → Disp) : (s.setDisp g).tiles = s.tiles := rfl
@[simp] theorem State.setDisp_links (g : Disp → Disp) : (s.setDisp g).links = s.links := rfl
@[simp] theorem State.setDisp_sec (g : Disp → Disp) : (s.setDisp g).sec = s.sec := rfl
@[simp] theorem State.setDisp_tpageAt (g : Disp → Disp) : (s.setDisp g).tpageAt = s.tpageAt := rfl
@[simp] theorem State.setDisp_tpageSeq (g : Disp → Disp) : (s.setDisp g).tpageSeq = s.tpageSeq := rfl

@[simp] theorem State.setFlash_pending (g : Flash → Flash) : (s.setFlash g).pending = s.pending := rfl
@[simp] theorem State.setFlash_beat (g : Flash → Flash) : (s.setFlash g).beat = s.beat := rfl
@[simp] theorem State.setFlash_regs (g : Flash → Flash) : (s.setFlash g).regs = s.regs := rfl
@[simp] theorem State.setFlash_events (g : Flash → Flash) : (s.setFlash g).events = s.events := rfl
@[simp] theorem State.setFlash_cpOut (g : Flash → Flash) : (s.setFlash g).cpOut = s.cpOut := rfl
@[simp] theorem State.setFlash_free (g : Flash → Flash) : (s.setFlash g).free = s.free := rfl
@[simp] theorem State.setFlash_beatNet (g : Flash → Flash) : (s.setFlash g).beatNet = s.beatNet := rfl
@[simp] theorem State.setFlash_pwr (g : Flash → Flash) : (s.setFlash g).pwr = s.pwr := rfl
@[simp] theorem State.setFlash_cpx (g : Flash → Flash) : (s.setFlash g).cpx = s.cpx := rfl
@[simp] theorem State.setFlash_rst (g : Flash → Flash) : (s.setFlash g).rst = s.rst := rfl
@[simp] theorem State.setFlash_hosts (g : Flash → Flash) : (s.setFlash g).hosts = s.hosts := rfl
@[simp] theorem State.setFlash_homes (g : Flash → Flash) : (s.setFlash g).homes = s.homes := rfl
@[simp] theorem State.setFlash_mem (g : Flash → Flash) : (s.setFlash g).mem = s.mem := rfl
@[simp] theorem State.setFlash_pub (g : Flash → Flash) : (s.setFlash g).pub = s.pub := rfl
@[simp] theorem State.setFlash_mir (g : Flash → Flash) : (s.setFlash g).mir = s.mir := rfl
@[simp] theorem State.setFlash_out (g : Flash → Flash) : (s.setFlash g).out = s.out := rfl
@[simp] theorem State.setFlash_dch (g : Flash → Flash) : (s.setFlash g).dch = s.dch := rfl
@[simp] theorem State.setFlash_zeroq (g : Flash → Flash) : (s.setFlash g).zeroq = s.zeroq := rfl
@[simp] theorem State.setFlash_lapStart (g : Flash → Flash) : (s.setFlash g).lapStart = s.lapStart := rfl
@[simp] theorem State.setFlash_peers (g : Flash → Flash) : (s.setFlash g).peers = s.peers := rfl
@[simp] theorem State.setFlash_peerSeq (g : Flash → Flash) : (s.setFlash g).peerSeq = s.peerSeq := rfl
@[simp] theorem State.setFlash_meshResp (g : Flash → Flash) : (s.setFlash g).meshResp = s.meshResp := rfl
@[simp] theorem State.setFlash_tenCnt (g : Flash → Flash) : (s.setFlash g).tenCnt = s.tenCnt := rfl
@[simp] theorem State.setFlash_mbar (g : Flash → Flash) : (s.setFlash g).mbar = s.mbar := rfl
@[simp] theorem State.setFlash_tiles (g : Flash → Flash) : (s.setFlash g).tiles = s.tiles := rfl
@[simp] theorem State.setFlash_disp (g : Flash → Flash) : (s.setFlash g).disp = s.disp := rfl
@[simp] theorem State.setFlash_links (g : Flash → Flash) : (s.setFlash g).links = s.links := rfl
@[simp] theorem State.setFlash_sec (g : Flash → Flash) : (s.setFlash g).sec = s.sec := rfl
@[simp] theorem State.setFlash_tpageAt (g : Flash → Flash) : (s.setFlash g).tpageAt = s.tpageAt := rfl
@[simp] theorem State.setFlash_tpageSeq (g : Flash → Flash) : (s.setFlash g).tpageSeq = s.tpageSeq := rfl

@[simp] theorem State.setSec_pending (g : Sec → Sec) : (s.setSec g).pending = s.pending := rfl
@[simp] theorem State.setSec_beat (g : Sec → Sec) : (s.setSec g).beat = s.beat := rfl
@[simp] theorem State.setSec_regs (g : Sec → Sec) : (s.setSec g).regs = s.regs := rfl
@[simp] theorem State.setSec_events (g : Sec → Sec) : (s.setSec g).events = s.events := rfl
@[simp] theorem State.setSec_cpOut (g : Sec → Sec) : (s.setSec g).cpOut = s.cpOut := rfl
@[simp] theorem State.setSec_free (g : Sec → Sec) : (s.setSec g).free = s.free := rfl
@[simp] theorem State.setSec_beatNet (g : Sec → Sec) : (s.setSec g).beatNet = s.beatNet := rfl
@[simp] theorem State.setSec_pwr (g : Sec → Sec) : (s.setSec g).pwr = s.pwr := rfl
@[simp] theorem State.setSec_cpx (g : Sec → Sec) : (s.setSec g).cpx = s.cpx := rfl
@[simp] theorem State.setSec_rst (g : Sec → Sec) : (s.setSec g).rst = s.rst := rfl
@[simp] theorem State.setSec_hosts (g : Sec → Sec) : (s.setSec g).hosts = s.hosts := rfl
@[simp] theorem State.setSec_homes (g : Sec → Sec) : (s.setSec g).homes = s.homes := rfl
@[simp] theorem State.setSec_mem (g : Sec → Sec) : (s.setSec g).mem = s.mem := rfl
@[simp] theorem State.setSec_pub (g : Sec → Sec) : (s.setSec g).pub = s.pub := rfl
@[simp] theorem State.setSec_mir (g : Sec → Sec) : (s.setSec g).mir = s.mir := rfl
@[simp] theorem State.setSec_out (g : Sec → Sec) : (s.setSec g).out = s.out := rfl
@[simp] theorem State.setSec_dch (g : Sec → Sec) : (s.setSec g).dch = s.dch := rfl
@[simp] theorem State.setSec_zeroq (g : Sec → Sec) : (s.setSec g).zeroq = s.zeroq := rfl
@[simp] theorem State.setSec_lapStart (g : Sec → Sec) : (s.setSec g).lapStart = s.lapStart := rfl
@[simp] theorem State.setSec_peers (g : Sec → Sec) : (s.setSec g).peers = s.peers := rfl
@[simp] theorem State.setSec_peerSeq (g : Sec → Sec) : (s.setSec g).peerSeq = s.peerSeq := rfl
@[simp] theorem State.setSec_meshResp (g : Sec → Sec) : (s.setSec g).meshResp = s.meshResp := rfl
@[simp] theorem State.setSec_tenCnt (g : Sec → Sec) : (s.setSec g).tenCnt = s.tenCnt := rfl
@[simp] theorem State.setSec_mbar (g : Sec → Sec) : (s.setSec g).mbar = s.mbar := rfl
@[simp] theorem State.setSec_flash (g : Sec → Sec) : (s.setSec g).flash = s.flash := rfl
@[simp] theorem State.setSec_tiles (g : Sec → Sec) : (s.setSec g).tiles = s.tiles := rfl
@[simp] theorem State.setSec_disp (g : Sec → Sec) : (s.setSec g).disp = s.disp := rfl
@[simp] theorem State.setSec_links (g : Sec → Sec) : (s.setSec g).links = s.links := rfl
@[simp] theorem State.setSec_tpageAt (g : Sec → Sec) : (s.setSec g).tpageAt = s.tpageAt := rfl
@[simp] theorem State.setSec_tpageSeq (g : Sec → Sec) : (s.setSec g).tpageSeq = s.tpageSeq := rfl

@[simp] theorem State.setLink_pending (p : Nat) (g : Link → Link) : (s.setLink p g).pending = s.pending := rfl
@[simp] theorem State.setLink_beat (p : Nat) (g : Link → Link) : (s.setLink p g).beat = s.beat := rfl
@[simp] theorem State.setLink_regs (p : Nat) (g : Link → Link) : (s.setLink p g).regs = s.regs := rfl
@[simp] theorem State.setLink_events (p : Nat) (g : Link → Link) : (s.setLink p g).events = s.events := rfl
@[simp] theorem State.setLink_cpOut (p : Nat) (g : Link → Link) : (s.setLink p g).cpOut = s.cpOut := rfl
@[simp] theorem State.setLink_free (p : Nat) (g : Link → Link) : (s.setLink p g).free = s.free := rfl
@[simp] theorem State.setLink_beatNet (p : Nat) (g : Link → Link) : (s.setLink p g).beatNet = s.beatNet := rfl
@[simp] theorem State.setLink_pwr (p : Nat) (g : Link → Link) : (s.setLink p g).pwr = s.pwr := rfl
@[simp] theorem State.setLink_cpx (p : Nat) (g : Link → Link) : (s.setLink p g).cpx = s.cpx := rfl
@[simp] theorem State.setLink_rst (p : Nat) (g : Link → Link) : (s.setLink p g).rst = s.rst := rfl
@[simp] theorem State.setLink_hosts (p : Nat) (g : Link → Link) : (s.setLink p g).hosts = s.hosts := rfl
@[simp] theorem State.setLink_homes (p : Nat) (g : Link → Link) : (s.setLink p g).homes = s.homes := rfl
@[simp] theorem State.setLink_mem (p : Nat) (g : Link → Link) : (s.setLink p g).mem = s.mem := rfl
@[simp] theorem State.setLink_pub (p : Nat) (g : Link → Link) : (s.setLink p g).pub = s.pub := rfl
@[simp] theorem State.setLink_mir (p : Nat) (g : Link → Link) : (s.setLink p g).mir = s.mir := rfl
@[simp] theorem State.setLink_out (p : Nat) (g : Link → Link) : (s.setLink p g).out = s.out := rfl
@[simp] theorem State.setLink_dch (p : Nat) (g : Link → Link) : (s.setLink p g).dch = s.dch := rfl
@[simp] theorem State.setLink_zeroq (p : Nat) (g : Link → Link) : (s.setLink p g).zeroq = s.zeroq := rfl
@[simp] theorem State.setLink_lapStart (p : Nat) (g : Link → Link) : (s.setLink p g).lapStart = s.lapStart := rfl
@[simp] theorem State.setLink_peers (p : Nat) (g : Link → Link) : (s.setLink p g).peers = s.peers := rfl
@[simp] theorem State.setLink_peerSeq (p : Nat) (g : Link → Link) : (s.setLink p g).peerSeq = s.peerSeq := rfl
@[simp] theorem State.setLink_meshResp (p : Nat) (g : Link → Link) : (s.setLink p g).meshResp = s.meshResp := rfl
@[simp] theorem State.setLink_tenCnt (p : Nat) (g : Link → Link) : (s.setLink p g).tenCnt = s.tenCnt := rfl
@[simp] theorem State.setLink_mbar (p : Nat) (g : Link → Link) : (s.setLink p g).mbar = s.mbar := rfl
@[simp] theorem State.setLink_flash (p : Nat) (g : Link → Link) : (s.setLink p g).flash = s.flash := rfl
@[simp] theorem State.setLink_tiles (p : Nat) (g : Link → Link) : (s.setLink p g).tiles = s.tiles := rfl
@[simp] theorem State.setLink_disp (p : Nat) (g : Link → Link) : (s.setLink p g).disp = s.disp := rfl
@[simp] theorem State.setLink_sec (p : Nat) (g : Link → Link) : (s.setLink p g).sec = s.sec := rfl
@[simp] theorem State.setLink_tpageAt (p : Nat) (g : Link → Link) : (s.setLink p g).tpageAt = s.tpageAt := rfl
@[simp] theorem State.setLink_tpageSeq (p : Nat) (g : Link → Link) : (s.setLink p g).tpageSeq = s.tpageSeq := rfl

@[simp] theorem State.setDc_pending (k : Nat) (g : DchSt → DchSt) : (s.setDc k g).pending = s.pending := rfl
@[simp] theorem State.setDc_beat (k : Nat) (g : DchSt → DchSt) : (s.setDc k g).beat = s.beat := rfl
@[simp] theorem State.setDc_regs (k : Nat) (g : DchSt → DchSt) : (s.setDc k g).regs = s.regs := rfl
@[simp] theorem State.setDc_events (k : Nat) (g : DchSt → DchSt) : (s.setDc k g).events = s.events := rfl
@[simp] theorem State.setDc_cpOut (k : Nat) (g : DchSt → DchSt) : (s.setDc k g).cpOut = s.cpOut := rfl
@[simp] theorem State.setDc_free (k : Nat) (g : DchSt → DchSt) : (s.setDc k g).free = s.free := rfl
@[simp] theorem State.setDc_beatNet (k : Nat) (g : DchSt → DchSt) : (s.setDc k g).beatNet = s.beatNet := rfl
@[simp] theorem State.setDc_pwr (k : Nat) (g : DchSt → DchSt) : (s.setDc k g).pwr = s.pwr := rfl
@[simp] theorem State.setDc_cpx (k : Nat) (g : DchSt → DchSt) : (s.setDc k g).cpx = s.cpx := rfl
@[simp] theorem State.setDc_rst (k : Nat) (g : DchSt → DchSt) : (s.setDc k g).rst = s.rst := rfl
@[simp] theorem State.setDc_hosts (k : Nat) (g : DchSt → DchSt) : (s.setDc k g).hosts = s.hosts := rfl
@[simp] theorem State.setDc_homes (k : Nat) (g : DchSt → DchSt) : (s.setDc k g).homes = s.homes := rfl
@[simp] theorem State.setDc_mem (k : Nat) (g : DchSt → DchSt) : (s.setDc k g).mem = s.mem := rfl
@[simp] theorem State.setDc_pub (k : Nat) (g : DchSt → DchSt) : (s.setDc k g).pub = s.pub := rfl
@[simp] theorem State.setDc_mir (k : Nat) (g : DchSt → DchSt) : (s.setDc k g).mir = s.mir := rfl
@[simp] theorem State.setDc_out (k : Nat) (g : DchSt → DchSt) : (s.setDc k g).out = s.out := rfl
@[simp] theorem State.setDc_zeroq (k : Nat) (g : DchSt → DchSt) : (s.setDc k g).zeroq = s.zeroq := rfl
@[simp] theorem State.setDc_lapStart (k : Nat) (g : DchSt → DchSt) : (s.setDc k g).lapStart = s.lapStart := rfl
@[simp] theorem State.setDc_peers (k : Nat) (g : DchSt → DchSt) : (s.setDc k g).peers = s.peers := rfl
@[simp] theorem State.setDc_peerSeq (k : Nat) (g : DchSt → DchSt) : (s.setDc k g).peerSeq = s.peerSeq := rfl
@[simp] theorem State.setDc_meshResp (k : Nat) (g : DchSt → DchSt) : (s.setDc k g).meshResp = s.meshResp := rfl
@[simp] theorem State.setDc_tenCnt (k : Nat) (g : DchSt → DchSt) : (s.setDc k g).tenCnt = s.tenCnt := rfl
@[simp] theorem State.setDc_mbar (k : Nat) (g : DchSt → DchSt) : (s.setDc k g).mbar = s.mbar := rfl
@[simp] theorem State.setDc_flash (k : Nat) (g : DchSt → DchSt) : (s.setDc k g).flash = s.flash := rfl
@[simp] theorem State.setDc_tiles (k : Nat) (g : DchSt → DchSt) : (s.setDc k g).tiles = s.tiles := rfl
@[simp] theorem State.setDc_disp (k : Nat) (g : DchSt → DchSt) : (s.setDc k g).disp = s.disp := rfl
@[simp] theorem State.setDc_links (k : Nat) (g : DchSt → DchSt) : (s.setDc k g).links = s.links := rfl
@[simp] theorem State.setDc_sec (k : Nat) (g : DchSt → DchSt) : (s.setDc k g).sec = s.sec := rfl
@[simp] theorem State.setDc_tpageAt (k : Nat) (g : DchSt → DchSt) : (s.setDc k g).tpageAt = s.tpageAt := rfl
@[simp] theorem State.setDc_tpageSeq (k : Nat) (g : DchSt → DchSt) : (s.setDc k g).tpageSeq = s.tpageSeq := rfl

@[simp] theorem State.setCore_pending (k : Nat) (g : CoreSt → CoreSt) : (s.setCore k g).pending = s.pending := rfl
@[simp] theorem State.setCore_beat (k : Nat) (g : CoreSt → CoreSt) : (s.setCore k g).beat = s.beat := rfl
@[simp] theorem State.setCore_regs (k : Nat) (g : CoreSt → CoreSt) : (s.setCore k g).regs = s.regs := rfl
@[simp] theorem State.setCore_events (k : Nat) (g : CoreSt → CoreSt) : (s.setCore k g).events = s.events := rfl
@[simp] theorem State.setCore_cpOut (k : Nat) (g : CoreSt → CoreSt) : (s.setCore k g).cpOut = s.cpOut := rfl
@[simp] theorem State.setCore_free (k : Nat) (g : CoreSt → CoreSt) : (s.setCore k g).free = s.free := rfl
@[simp] theorem State.setCore_beatNet (k : Nat) (g : CoreSt → CoreSt) : (s.setCore k g).beatNet = s.beatNet := rfl
@[simp] theorem State.setCore_pwr (k : Nat) (g : CoreSt → CoreSt) : (s.setCore k g).pwr = s.pwr := rfl
@[simp] theorem State.setCore_cpx (k : Nat) (g : CoreSt → CoreSt) : (s.setCore k g).cpx = s.cpx := rfl
@[simp] theorem State.setCore_rst (k : Nat) (g : CoreSt → CoreSt) : (s.setCore k g).rst = s.rst := rfl
@[simp] theorem State.setCore_hosts (k : Nat) (g : CoreSt → CoreSt) : (s.setCore k g).hosts = s.hosts := rfl
@[simp] theorem State.setCore_homes (k : Nat) (g : CoreSt → CoreSt) : (s.setCore k g).homes = s.homes := rfl
@[simp] theorem State.setCore_mem (k : Nat) (g : CoreSt → CoreSt) : (s.setCore k g).mem = s.mem := rfl
@[simp] theorem State.setCore_pub (k : Nat) (g : CoreSt → CoreSt) : (s.setCore k g).pub = s.pub := rfl
@[simp] theorem State.setCore_mir (k : Nat) (g : CoreSt → CoreSt) : (s.setCore k g).mir = s.mir := rfl
@[simp] theorem State.setCore_out (k : Nat) (g : CoreSt → CoreSt) : (s.setCore k g).out = s.out := rfl
@[simp] theorem State.setCore_dch (k : Nat) (g : CoreSt → CoreSt) : (s.setCore k g).dch = s.dch := rfl
@[simp] theorem State.setCore_zeroq (k : Nat) (g : CoreSt → CoreSt) : (s.setCore k g).zeroq = s.zeroq := rfl
@[simp] theorem State.setCore_lapStart (k : Nat) (g : CoreSt → CoreSt) : (s.setCore k g).lapStart = s.lapStart := rfl
@[simp] theorem State.setCore_peers (k : Nat) (g : CoreSt → CoreSt) : (s.setCore k g).peers = s.peers := rfl
@[simp] theorem State.setCore_peerSeq (k : Nat) (g : CoreSt → CoreSt) : (s.setCore k g).peerSeq = s.peerSeq := rfl
@[simp] theorem State.setCore_meshResp (k : Nat) (g : CoreSt → CoreSt) : (s.setCore k g).meshResp = s.meshResp := rfl
@[simp] theorem State.setCore_tenCnt (k : Nat) (g : CoreSt → CoreSt) : (s.setCore k g).tenCnt = s.tenCnt := rfl
@[simp] theorem State.setCore_mbar (k : Nat) (g : CoreSt → CoreSt) : (s.setCore k g).mbar = s.mbar := rfl
@[simp] theorem State.setCore_flash (k : Nat) (g : CoreSt → CoreSt) : (s.setCore k g).flash = s.flash := rfl
@[simp] theorem State.setCore_disp (k : Nat) (g : CoreSt → CoreSt) : (s.setCore k g).disp = s.disp := rfl
@[simp] theorem State.setCore_links (k : Nat) (g : CoreSt → CoreSt) : (s.setCore k g).links = s.links := rfl
@[simp] theorem State.setCore_sec (k : Nat) (g : CoreSt → CoreSt) : (s.setCore k g).sec = s.sec := rfl
@[simp] theorem State.setCore_tpageAt (k : Nat) (g : CoreSt → CoreSt) : (s.setCore k g).tpageAt = s.tpageAt := rfl
@[simp] theorem State.setCore_tpageSeq (k : Nat) (g : CoreSt → CoreSt) : (s.setCore k g).tpageSeq = s.tpageSeq := rfl

@[simp] theorem State.raise_events (b c : Nat) (e : Option Nat) :
    (s.raise b c e).events = s.events ++ [⟨s.beat, c, b, e⟩] := rfl
@[simp] theorem State.setPwr_pwr (g : Pwr → Pwr) : (s.setPwr g).pwr = g s.pwr := rfl
@[simp] theorem State.setRst_rst (g : Rst → Rst) : (s.setRst g).rst = g s.rst := rfl
@[simp] theorem State.setTiles_tiles (g : Tiles → Tiles) : (s.setTiles g).tiles = g s.tiles := rfl
@[simp] theorem State.setDisp_disp (g : Disp → Disp) : (s.setDisp g).disp = g s.disp := rfl
@[simp] theorem State.setFlash_flash (g : Flash → Flash) : (s.setFlash g).flash = g s.flash := rfl
@[simp] theorem State.setSec_sec (g : Sec → Sec) : (s.setSec g).sec = g s.sec := rfl

/-! ## Control-space fields -/

theorem State.reg_lt (c : Nat) : s.reg c < 2 ^ 64 := (SMap.get (resetWord c) s.regs c).isLt

@[simp] theorem State.reg_setReg_same (c v : Nat) : (s.setReg c v).reg c = v % 2 ^ 64 := by
  simp [State.reg, State.setReg]

theorem State.reg_setReg_ne (c v : Nat) {d : Nat} (h : d ≠ c) : (s.setReg c v).reg d = s.reg d := by
  simp only [State.reg, State.setReg]
  rw [SMap.get_set_ne _ _ _ _ h]

/-- A field reads back what was written to it. -/
theorem State.rd_wr_same (f : Fld) (v : Nat) (h : f.lo ≤ f.hi) (h64 : f.hi < 64) :
    (s.wr f v).rd f = v % 2 ^ (f.hi - f.lo + 1) := by
  simp only [State.rd, State.wr, State.reg_setReg_same]
  rw [Nat.mod_eq_of_lt (setBits_lt _ _ _ _ (s.reg_lt _) h h64), bits_setBits_same]

/-- A write leaves the fields of every other register alone. -/
theorem State.rd_wr_ne (f g : Fld) (v : Nat) (h : g.csa ≠ f.csa) : (s.wr f v).rd g = s.rd g := by
  simp only [State.rd, State.wr]
  rw [State.reg_setReg_ne _ _ _ h]

/-- A write leaves the other fields of its register alone. -/
theorem State.rd_wr_disjoint (f g : Fld) (v : Nat) (hc : g.csa = f.csa) (h : g.hi < f.lo ∨ f.hi < g.lo)
    (h1 : f.lo ≤ f.hi) (h2 : g.lo ≤ g.hi) (h64 : f.hi < 64) : (s.wr f v).rd g = s.rd g := by
  simp only [State.rd, State.wr, hc, State.reg_setReg_same]
  rw [Nat.mod_eq_of_lt (setBits_lt _ _ _ _ (s.reg_lt _) h1 h64), bits_setBits_disjoint _ _ _ _ _ _ h h1 h2]

theorem State.rd_lt (f : Fld) : s.rd f < 2 ^ (f.hi - f.lo + 1) := bits_lt _ _ _

@[simp] theorem State.raise_reg (b c : Nat) (e : Option Nat) (d : Nat) : (s.raise b c e).reg d = s.reg d := rfl
@[simp] theorem State.raise_rd (b c : Nat) (e : Option Nat) (h : Fld) : (s.raise b c e).rd h = s.rd h := rfl
@[simp] theorem State.raise_on (b c : Nat) (e : Option Nat) (h : Fld) : (s.raise b c e).on h = s.on h := rfl
@[simp] theorem State.setPwr_reg (g : Pwr → Pwr) (d : Nat) : (s.setPwr g).reg d = s.reg d := rfl
@[simp] theorem State.setPwr_rd (g : Pwr → Pwr) (h : Fld) : (s.setPwr g).rd h = s.rd h := rfl
@[simp] theorem State.setPwr_on (g : Pwr → Pwr) (h : Fld) : (s.setPwr g).on h = s.on h := rfl
@[simp] theorem State.setRst_reg (g : Rst → Rst) (d : Nat) : (s.setRst g).reg d = s.reg d := rfl
@[simp] theorem State.setRst_rd (g : Rst → Rst) (h : Fld) : (s.setRst g).rd h = s.rd h := rfl
@[simp] theorem State.setRst_on (g : Rst → Rst) (h : Fld) : (s.setRst g).on h = s.on h := rfl
@[simp] theorem State.setTiles_reg (g : Tiles → Tiles) (d : Nat) : (s.setTiles g).reg d = s.reg d := rfl
@[simp] theorem State.setTiles_rd (g : Tiles → Tiles) (h : Fld) : (s.setTiles g).rd h = s.rd h := rfl
@[simp] theorem State.setTiles_on (g : Tiles → Tiles) (h : Fld) : (s.setTiles g).on h = s.on h := rfl
@[simp] theorem State.setDisp_reg (g : Disp → Disp) (d : Nat) : (s.setDisp g).reg d = s.reg d := rfl
@[simp] theorem State.setDisp_rd (g : Disp → Disp) (h : Fld) : (s.setDisp g).rd h = s.rd h := rfl
@[simp] theorem State.setDisp_on (g : Disp → Disp) (h : Fld) : (s.setDisp g).on h = s.on h := rfl
@[simp] theorem State.setFlash_reg (g : Flash → Flash) (d : Nat) : (s.setFlash g).reg d = s.reg d := rfl
@[simp] theorem State.setFlash_rd (g : Flash → Flash) (h : Fld) : (s.setFlash g).rd h = s.rd h := rfl
@[simp] theorem State.setFlash_on (g : Flash → Flash) (h : Fld) : (s.setFlash g).on h = s.on h := rfl
@[simp] theorem State.setSec_reg (g : Sec → Sec) (d : Nat) : (s.setSec g).reg d = s.reg d := rfl
@[simp] theorem State.setSec_rd (g : Sec → Sec) (h : Fld) : (s.setSec g).rd h = s.rd h := rfl
@[simp] theorem State.setSec_on (g : Sec → Sec) (h : Fld) : (s.setSec g).on h = s.on h := rfl
@[simp] theorem State.setLink_reg (p : Nat) (g : Link → Link) (d : Nat) : (s.setLink p g).reg d = s.reg d := rfl
@[simp] theorem State.setLink_rd (p : Nat) (g : Link → Link) (h : Fld) : (s.setLink p g).rd h = s.rd h := rfl
@[simp] theorem State.setLink_on (p : Nat) (g : Link → Link) (h : Fld) : (s.setLink p g).on h = s.on h := rfl
@[simp] theorem State.setDc_reg (k : Nat) (g : DchSt → DchSt) (d : Nat) : (s.setDc k g).reg d = s.reg d := rfl
@[simp] theorem State.setDc_rd (k : Nat) (g : DchSt → DchSt) (h : Fld) : (s.setDc k g).rd h = s.rd h := rfl
@[simp] theorem State.setDc_on (k : Nat) (g : DchSt → DchSt) (h : Fld) : (s.setDc k g).on h = s.on h := rfl
@[simp] theorem State.setCore_reg (k : Nat) (g : CoreSt → CoreSt) (d : Nat) : (s.setCore k g).reg d = s.reg d := rfl
@[simp] theorem State.setCore_rd (k : Nat) (g : CoreSt → CoreSt) (h : Fld) : (s.setCore k g).rd h = s.rd h := rfl
@[simp] theorem State.setCore_on (k : Nat) (g : CoreSt → CoreSt) (h : Fld) : (s.setCore k g).on h = s.on h := rfl

end Sys2Proof.Machine
end

