-- ==== Sys2Proof/Laws/Ops.lean ====
section
/-! SUPPORT. What each shared operation over the control space can do, said once: the three ways a command is served, the
write path of the control space, counters and the clamp report. -/

namespace Sys2Proof.Machine

/-! ## The three ways a command is served -/

theorem live_running (s : State) (f : State → State) (h : Running s) :
    live s f = .next { f s with pending := s.pending, beat := s.beat } := by
  simp [live, h.1, h.2]

theorem live_halted (s : State) (f : State → State) (h : s.halted = true) : live s f = .next s := by
  simp [live, h]

theorem always_powered (s : State) (f : State → State) (h : s.rst.porHeld = false) :
    always s f = .next { f s with pending := s.pending, beat := s.beat } := by
  simp [always, h]

theorem live_porHeld (s : State) (f : State → State) (h : s.rst.porHeld = true) : live s f = .next s := by
  simp [live, h]

theorem always_porHeld (s : State) (f : State → State) (h : s.rst.porHeld = true) : always s f = .next s := by
  simp [always, h]

/-- A command of the running part answers a next state, and leaves the queue and the beat alone. -/
theorem live_next (s : State) (f : State → State) :
    ∃ t, live s f = .next t ∧ t.pending = s.pending ∧ t.beat = s.beat := by
  unfold live; split
  · exact ⟨s, rfl, rfl, rfl⟩
  · exact ⟨_, rfl, rfl, rfl⟩

theorem always_next (s : State) (f : State → State) :
    ∃ t, always s f = .next t ∧ t.pending = s.pending ∧ t.beat = s.beat := by
  unfold always; split
  · exact ⟨s, rfl, rfl, rfl⟩
  · exact ⟨_, rfl, rfl, rfl⟩

theorem supply_next (s : State) (f : State → State) : ∃ t, supply s f = .next t ∧ t.pending = s.pending :=
  ⟨_, rfl, rfl⟩

/-! ## Iteration -/

/-- What every turn keeps, the iteration keeps. -/
theorem each_keeps {α : Type} (P : State → Prop) (l : List α) (f : α → State → State)
    (h : ∀ a s, P s → P (f a s)) (s : State) (hs : P s) : P (each l f s) := by
  induction l generalizing s with
  | nil => exact hs
  | cons a l ih => exact ih (f a s) (h a s hs)

/-- What every turn with an element of the list keeps, the iteration keeps. -/
theorem each_keeps_mem {α : Type} (P : State → Prop) (l : List α) (f : α → State → State)
    (h : ∀ a s, a ∈ l → P s → P (f a s)) (s : State) (hs : P s) : P (each l f s) := by
  induction l generalizing s with
  | nil => exact hs
  | cons a l ih =>
    exact ih (fun b s hb => h b s (List.mem_cons_of_mem _ hb)) (f a s) (h a s List.mem_cons_self hs)

/-! ## Counters: `tel` and `telMax` touch counter registers and events only -/

/-- Is the address outside the counters of its block? -/
def notCounter (c : Nat) : Prop := c % 0x100000 < 0xF00

/-- What counting may change: counter registers, and events of class 9 of the block appended. -/
def CountsOnly (blk : Nat) (s t : State) : Prop :=
  ∃ r e, t = { s with regs := r, events := s.events ++ e } ∧ (∀ x ∈ e, x.cls = 9 ∧ x.blk = blk) ∧
    ∀ c, notCounter c → t.reg c = s.reg c

theorem CountsOnly.refl (blk : Nat) (s : State) : CountsOnly blk s s :=
  ⟨s.regs, [], by simp, by simp, fun _ _ => rfl⟩

theorem CountsOnly.trans {blk : Nat} {s t u : State} (h1 : CountsOnly blk s t) (h2 : CountsOnly blk t u) :
    CountsOnly blk s u := by
  obtain ⟨r1, e1, rfl, c1, g1⟩ := h1
  obtain ⟨r2, e2, rfl, c2, g2⟩ := h2
  refine ⟨r2, e1 ++ e2, by simp, ?_, fun c hc => (g2 c hc).trans (g1 c hc)⟩
  intro x hx
  rcases List.mem_append.1 hx with h | h
  · exact c1 x h
  · exact c2 x h

theorem wr_counts (blk : Nat) (s : State) (f : Fld) (v : Nat) (h : ¬ notCounter f.csa) : CountsOnly blk s (s.wr f v) := by
  refine ⟨_, [], by rw [List.append_nil]; rfl, by simp, fun c hc => State.reg_setReg_ne _ _ _ ?_⟩
  intro e
  exact h (e ▸ hc)

theorem raise_counts (s : State) (blk : Nat) (b : Option Nat) : CountsOnly blk s (s.raise blk 9 b) :=
  ⟨s.regs, [_], rfl, by simp, fun _ _ => rfl⟩

theorem cntAdd_counts (s : State) (b m n : Nat) (hm : m < 16) : CountsOnly b s (s.cntAdd b m n) := by
  have h1 : ¬ notCounter (F.cntCount b m).csa := by unfold notCounter; simp only [F.cntCount]; omega
  have h2 : ¬ notCounter (F.cntCtlOvf b m).csa := by unfold notCounter; simp only [F.cntCtlOvf]; omega
  unfold State.cntAdd
  simp only
  split
  · exact wr_counts b s _ _ h1
  · split
    · exact ((wr_counts b s _ _ h1).trans (wr_counts b _ _ _ h2)).trans (raise_counts _ b _)
    · exact (wr_counts b s _ _ h1).trans (wr_counts b _ _ _ h2)

theorem counter_index_lt {a : Nat} (h1 : 0xF80 ≤ a % 0x100000) (h2 : a % 0x100000 < 0x1000) :
    (a % 0x100000 - 0xF80) / 8 < 16 := by omega

/-- Counting an event (R489 to R491): counter registers of the block change, and events of class 9 may be raised. -/
theorem tel_counts (s : State) (b code q n : Nat) : CountsOnly b s (s.tel b code q n) := by
  unfold State.tel
  split
  · exact CountsOnly.refl b s
  · apply each_keeps_mem (fun t => CountsOnly b s t)
    · intro e t he ht
      simp only [List.mem_filter, Bool.and_eq_true, decide_eq_true_eq] at he
      simp only
      split
      · exact ht.trans (cntAdd_counts t b _ n (counter_index_lt he.2.1.2 he.2.2))
      · exact ht
    · exact CountsOnly.refl b s

theorem tel_reg (s : State) (b code q n : Nat) {c : Nat} (h : notCounter c) : (s.tel b code q n).reg c = s.reg c := by
  obtain ⟨_, _, _, _, g⟩ := tel_counts s b code q n
  exact g c h

theorem tel_rd (s : State) (b code q n : Nat) {f : Fld} (h : notCounter f.csa) : (s.tel b code q n).rd f = s.rd f := by
  simp only [State.rd, tel_reg s b code q n h]

@[simp] theorem tel_pending (s : State) (b code q n : Nat) : (s.tel b code q n).pending = s.pending := by
  obtain ⟨_, _, h, _⟩ := tel_counts s b code q n; rw [h]
@[simp] theorem tel_beat (s : State) (b code q n : Nat) : (s.tel b code q n).beat = s.beat := by
  obtain ⟨_, _, h, _⟩ := tel_counts s b code q n; rw [h]
@[simp] theorem tel_cpOut (s : State) (b code q n : Nat) : (s.tel b code q n).cpOut = s.cpOut := by
  obtain ⟨_, _, h, _⟩ := tel_counts s b code q n; rw [h]
@[simp] theorem tel_free (s : State) (b code q n : Nat) : (s.tel b code q n).free = s.free := by
  obtain ⟨_, _, h, _⟩ := tel_counts s b code q n; rw [h]
@[simp] theorem tel_beatNet (s : State) (b code q n : Nat) : (s.tel b code q n).beatNet = s.beatNet := by
  obtain ⟨_, _, h, _⟩ := tel_counts s b code q n; rw [h]
@[simp] theorem tel_pwr (s : State) (b code q n : Nat) : (s.tel b code q n).pwr = s.pwr := by
  obtain ⟨_, _, h, _⟩ := tel_counts s b code q n; rw [h]
@[simp] theorem tel_cpx (s : State) (b code q n : Nat) : (s.tel b code q n).cpx = s.cpx := by
  obtain ⟨_, _, h, _⟩ := tel_counts s b code q n; rw [h]
@[simp] theorem tel_rst (s : State) (b code q n : Nat) : (s.tel b code q n).rst = s.rst := by
  obtain ⟨_, _, h, _⟩ := tel_counts s b code q n; rw [h]
@[simp] theorem tel_hosts (s : State) (b code q n : Nat) : (s.tel b code q n).hosts = s.hosts := by
  obtain ⟨_, _, h, _⟩ := tel_counts s b code q n; rw [h]
@[simp] theorem tel_homes (s : State) (b code q n : Nat) : (s.tel b code q n).homes = s.homes := by
  obtain ⟨_, _, h, _⟩ := tel_counts s b code q n; rw [h]
@[simp] theorem tel_mem (s : State) (b code q n : Nat) : (s.tel b code q n).mem = s.mem := by
  obtain ⟨_, _, h, _⟩ := tel_counts s b code q n; rw [h]
@[simp] theorem tel_pub (s : State) (b code q n : Nat) : (s.tel b code q n).pub = s.pub := by
  obtain ⟨_, _, h, _⟩ := tel_counts s b code q n; rw [h]
@[simp] theorem tel_mir (s : State) (b code q n : Nat) : (s.tel b code q n).mir = s.mir := by
  obtain ⟨_, _, h, _⟩ := tel_counts s b code q n; rw [h]
@[simp] theorem tel_out (s : State) (b code q n : Nat) : (s.tel b code q n).out = s.out := by
  obtain ⟨_, _, h, _⟩ := tel_counts s b code q n; rw [h]
@[simp] theorem tel_dch (s : State) (b code q n : Nat) : (s.tel b code q n).dch = s.dch := by
  obtain ⟨_, _, h, _⟩ := tel_counts s b code q n; rw [h]
@[simp] theorem tel_zeroq (s : State) (b code q n : Nat) : (s.tel b code q n).zeroq = s.zeroq := by
  obtain ⟨_, _, h, _⟩ := tel_counts s b code q n; rw [h]
@[simp] theorem tel_lapStart (s : State) (b code q n : Nat) : (s.tel b code q n).lapStart = s.lapStart := by
  obtain ⟨_, _, h, _⟩ := tel_counts s b code q n; rw [h]
@[simp] theorem tel_peers (s : State) (b code q n : Nat) : (s.tel b code q n).peers = s.peers := by
  obtain ⟨_, _, h, _⟩ := tel_counts s b code q n; rw [h]
@[simp] theorem tel_peerSeq (s : State) (b code q n : Nat) : (s.tel b code q n).peerSeq = s.peerSeq := by
  obtain ⟨_, _, h, _⟩ := tel_counts s b code q n; rw [h]
@[simp] theorem tel_meshResp (s : State) (b code q n : Nat) : (s.tel b code q n).meshResp = s.meshResp := by
  obtain ⟨_, _, h, _⟩ := tel_counts s b code q n; rw [h]
@[simp] theorem tel_tenCnt (s : State) (b code q n : Nat) : (s.tel b code q n).tenCnt = s.tenCnt := by
  obtain ⟨_, _, h, _⟩ := tel_counts s b code q n; rw [h]
@[simp] theorem tel_mbar (s : State) (b code q n : Nat) : (s.tel b code q n).mbar = s.mbar := by
  obtain ⟨_, _, h, _⟩ := tel_counts s b code q n; rw [h]
@[simp] theorem tel_flash (s : State) (b code q n : Nat) : (s.tel b code q n).flash = s.flash := by
  obtain ⟨_, _, h, _⟩ := tel_counts s b code q n; rw [h]
@[simp] theorem tel_tiles (s : State) (b code q n : Nat) : (s.tel b code q n).tiles = s.tiles := by
  obtain ⟨_, _, h, _⟩ := tel_counts s b code q n; rw [h]
@[simp] theorem tel_disp (s : State) (b code q n : Nat) : (s.tel b code q n).disp = s.disp := by
  obtain ⟨_, _, h, _⟩ := tel_counts s b code q n; rw [h]
@[simp] theorem tel_links (s : State) (b code q n : Nat) : (s.tel b code q n).links = s.links := by
  obtain ⟨_, _, h, _⟩ := tel_counts s b code q n; rw [h]
@[simp] theorem tel_sec (s : State) (b code q n : Nat) : (s.tel b code q n).sec = s.sec := by
  obtain ⟨_, _, h, _⟩ := tel_counts s b code q n; rw [h]
@[simp] theorem tel_tpageAt (s : State) (b code q n : Nat) : (s.tel b code q n).tpageAt = s.tpageAt := by
  obtain ⟨_, _, h, _⟩ := tel_counts s b code q n; rw [h]
@[simp] theorem tel_tpageSeq (s : State) (b code q n : Nat) : (s.tel b code q n).tpageSeq = s.tpageSeq := by
  obtain ⟨_, _, h, _⟩ := tel_counts s b code q n; rw [h]

/-! ## The write path of the control space (R435, R439, R505 to R510) -/

/-- A step that writes registers selected by `P` and appends events. -/
def WritesOnly (P : Nat → Prop) (s t : State) : Prop :=
  ∃ r e, t = { s with regs := r, events := s.events ++ e } ∧ ∀ c, ¬ P c → t.reg c = s.reg c

theorem WritesOnly.refl (P : Nat → Prop) (s : State) : WritesOnly P s s := ⟨s.regs, [], by simp, fun _ _ => rfl⟩

theorem WritesOnly.trans {P : Nat → Prop} {s t u : State} (h1 : WritesOnly P s t) (h2 : WritesOnly P t u) :
    WritesOnly P s u := by
  obtain ⟨r1, e1, rfl, g1⟩ := h1
  obtain ⟨r2, e2, rfl, g2⟩ := h2
  exact ⟨r2, e1 ++ e2, by simp, fun c hc => (g2 c hc).trans (g1 c hc)⟩

theorem WritesOnly.setReg {P : Nat → Prop} {s t : State} (h : WritesOnly P s t) {c : Nat} (v : Nat) (hc : P c) :
    WritesOnly P s (t.setReg c v) :=
  h.trans ⟨_, [], by rw [List.append_nil]; rfl, fun d hd => State.reg_setReg_ne _ _ _ (fun e => hd (e ▸ hc))⟩

theorem WritesOnly.wr {P : Nat → Prop} {s t : State} (h : WritesOnly P s t) {f : Fld} (v : Nat) (hc : P f.csa) :
    WritesOnly P s (t.wr f v) := h.setReg _ hc

theorem WritesOnly.inc {P : Nat → Prop} {s t : State} (h : WritesOnly P s t) {f : Fld} (hc : P f.csa) :
    WritesOnly P s (t.inc f) := h.wr _ hc

theorem WritesOnly.raise {P : Nat → Prop} {s t : State} (h : WritesOnly P s t) (b c : Nat) (e : Option Nat) :
    WritesOnly P s (t.raise b c e) := h.trans ⟨t.regs, [_], rfl, fun _ _ => rfl⟩

theorem WritesOnly.ite {P : Nat → Prop} {s t u : State} {q : Prop} [Decidable q] (ht : WritesOnly P s t)
    (hu : WritesOnly P s u) : WritesOnly P s (if q then t else u) := by split <;> assumption

/-- The words a clamp report entry writes: window of RST, and HDR_STATE of the block. -/
def clampWord (blk c : Nat) : Prop := c / 0x100000 = 860 ∨ c = (F.hdrStateClamps blk).csa

/-- Reporting a clamp changes words of RST and HDR_STATE of the block, and may raise the event (R510). -/
theorem clampEntry_writes (s : State) (blk off wr fl v st : Nat) :
    WritesOnly (clampWord blk) s (s.clampEntry blk off wr fl v st) := by
  have hh : s.rd F.rstClampCtlHead < 64 := State.rd_lt s _
  have c1 : ∀ k, k < 0x800 → clampWord blk (blkRst * 0x100000 + 0x400 + k) := by
    intro k hk; left; unfold blkRst; omega
  have c2 : clampWord blk F.rstClampCtlHead.csa := Or.inl (by decide)
  have c3 : clampWord blk (F.hdrStateClamps blk).csa := Or.inr rfl
  have h1 := (((((WritesOnly.refl (clampWord blk) s).setReg (c := blkRst * 0x100000 + 0x400 + 32 * s.rd F.rstClampCtlHead)
    s.eff (c1 _ (by omega))).setReg (c := blkRst * 0x100000 + 0x400 + 32 * s.rd F.rstClampCtlHead + 8)
    (blk + off * 2 ^ 10 + wr * 2 ^ 30 + fl * 2 ^ 32) (c1 (32 * s.rd F.rstClampCtlHead + 8) (by omega))).setReg
    (c := blkRst * 0x100000 + 0x400 + 32 * s.rd F.rstClampCtlHead + 16) v
    (c1 (32 * s.rd F.rstClampCtlHead + 16) (by omega))).setReg
    (c := blkRst * 0x100000 + 0x400 + 32 * s.rd F.rstClampCtlHead + 24) st
    (c1 (32 * s.rd F.rstClampCtlHead + 24) (by omega)))
  have h2 := (h1.wr (f := F.rstClampCtlHead) ((s.rd F.rstClampCtlHead + 1) % 64) c2).inc (f := F.rstClampCtlTotal) c2
  have h3 := WritesOnly.ite (q := 64 ≤ s.rd F.rstClampCtlTotal) (h2.wr (f := F.rstClampCtlOvf) 1 c2) h2
  have h4 := (h3.wr (f := F.hdrStateClamped blk) 1 c3).inc (f := F.hdrStateClamps blk) c3
  exact WritesOnly.ite (h4.raise blkRst 9 (some 16)) h4

theorem clampEntry_reg (s : State) (blk off wr fl v st : Nat) {c : Nat} (h : ¬ clampWord blk c) :
    (s.clampEntry blk off wr fl v st).reg c = s.reg c := by
  obtain ⟨_, _, _, g⟩ := clampEntry_writes s blk off wr fl v st
  exact g c h

theorem clampEntry_rd (s : State) (blk off wr fl v st : Nat) {f : Fld} (h : ¬ clampWord blk f.csa) :
    (s.clampEntry blk off wr fl v st).rd f = s.rd f := by
  simp only [State.rd, clampEntry_reg s blk off wr fl v st h]

@[simp] theorem clampEntry_pending (s : State) (b o w g v x : Nat) : (s.clampEntry b o w g v x).pending = s.pending := by
  obtain ⟨_, _, h, _⟩ := clampEntry_writes s b o w g v x; rw [h]
@[simp] theorem clampEntry_beat (s : State) (b o w g v x : Nat) : (s.clampEntry b o w g v x).beat = s.beat := by
  obtain ⟨_, _, h, _⟩ := clampEntry_writes s b o w g v x; rw [h]
@[simp] theorem clampEntry_cpOut (s : State) (b o w g v x : Nat) : (s.clampEntry b o w g v x).cpOut = s.cpOut := by
  obtain ⟨_, _, h, _⟩ := clampEntry_writes s b o w g v x; rw [h]
@[simp] theorem clampEntry_free (s : State) (b o w g v x : Nat) : (s.clampEntry b o w g v x).free = s.free := by
  obtain ⟨_, _, h, _⟩ := clampEntry_writes s b o w g v x; rw [h]
@[simp] theorem clampEntry_beatNet (s : State) (b o w g v x : Nat) : (s.clampEntry b o w g v x).beatNet = s.beatNet := by
  obtain ⟨_, _, h, _⟩ := clampEntry_writes s b o w g v x; rw [h]
@[simp] theorem clampEntry_pwr (s : State) (b o w g v x : Nat) : (s.clampEntry b o w g v x).pwr = s.pwr := by
  obtain ⟨_, _, h, _⟩ := clampEntry_writes s b o w g v x; rw [h]
@[simp] theorem clampEntry_cpx (s : State) (b o w g v x : Nat) : (s.clampEntry b o w g v x).cpx = s.cpx := by
  obtain ⟨_, _, h, _⟩ := clampEntry_writes s b o w g v x; rw [h]
@[simp] theorem clampEntry_rst (s : State) (b o w g v x : Nat) : (s.clampEntry b o w g v x).rst = s.rst := by
  obtain ⟨_, _, h, _⟩ := clampEntry_writes s b o w g v x; rw [h]
@[simp] theorem clampEntry_hosts (s : State) (b o w g v x : Nat) : (s.clampEntry b o w g v x).hosts = s.hosts := by
  obtain ⟨_, _, h, _⟩ := clampEntry_writes s b o w g v x; rw [h]
@[simp] theorem clampEntry_homes (s : State) (b o w g v x : Nat) : (s.clampEntry b o w g v x).homes = s.homes := by
  obtain ⟨_, _, h, _⟩ := clampEntry_writes s b o w g v x; rw [h]
@[simp] theorem clampEntry_mem (s : State) (b o w g v x : Nat) : (s.clampEntry b o w g v x).mem = s.mem := by
  obtain ⟨_, _, h, _⟩ := clampEntry_writes s b o w g v x; rw [h]
@[simp] theorem clampEntry_pub (s : State) (b o w g v x : Nat) : (s.clampEntry b o w g v x).pub = s.pub := by
  obtain ⟨_, _, h, _⟩ := clampEntry_writes s b o w g v x; rw [h]
@[simp] theorem clampEntry_mir (s : State) (b o w g v x : Nat) : (s.clampEntry b o w g v x).mir = s.mir := by
  obtain ⟨_, _, h, _⟩ := clampEntry_writes s b o w g v x; rw [h]
@[simp] theorem clampEntry_out (s : State) (b o w g v x : Nat) : (s.clampEntry b o w g v x).out = s.out := by
  obtain ⟨_, _, h, _⟩ := clampEntry_writes s b o w g v x; rw [h]
@[simp] theorem clampEntry_dch (s : State) (b o w g v x : Nat) : (s.clampEntry b o w g v x).dch = s.dch := by
  obtain ⟨_, _, h, _⟩ := clampEntry_writes s b o w g v x; rw [h]
@[simp] theorem clampEntry_zeroq (s : State) (b o w g v x : Nat) : (s.clampEntry b o w g v x).zeroq = s.zeroq := by
  obtain ⟨_, _, h, _⟩ := clampEntry_writes s b o w g v x; rw [h]
@[simp] theorem clampEntry_lapStart (s : State) (b o w g v x : Nat) : (s.clampEntry b o w g v x).lapStart = s.lapStart := by
  obtain ⟨_, _, h, _⟩ := clampEntry_writes s b o w g v x; rw [h]
@[simp] theorem clampEntry_peers (s : State) (b o w g v x : Nat) : (s.clampEntry b o w g v x).peers = s.peers := by
  obtain ⟨_, _, h, _⟩ := clampEntry_writes s b o w g v x; rw [h]
@[simp] theorem clampEntry_peerSeq (s : State) (b o w g v x : Nat) : (s.clampEntry b o w g v x).peerSeq = s.peerSeq := by
  obtain ⟨_, _, h, _⟩ := clampEntry_writes s b o w g v x; rw [h]
@[simp] theorem clampEntry_meshResp (s : State) (b o w g v x : Nat) : (s.clampEntry b o w g v x).meshResp = s.meshResp := by
  obtain ⟨_, _, h, _⟩ := clampEntry_writes s b o w g v x; rw [h]
@[simp] theorem clampEntry_tenCnt (s : State) (b o w g v x : Nat) : (s.clampEntry b o w g v x).tenCnt = s.tenCnt := by
  obtain ⟨_, _, h, _⟩ := clampEntry_writes s b o w g v x; rw [h]
@[simp] theorem clampEntry_mbar (s : State) (b o w g v x : Nat) : (s.clampEntry b o w g v x).mbar = s.mbar := by
  obtain ⟨_, _, h, _⟩ := clampEntry_writes s b o w g v x; rw [h]
@[simp] theorem clampEntry_flash (s : State) (b o w g v x : Nat) : (s.clampEntry b o w g v x).flash = s.flash := by
  obtain ⟨_, _, h, _⟩ := clampEntry_writes s b o w g v x; rw [h]
@[simp] theorem clampEntry_tiles (s : State) (b o w g v x : Nat) : (s.clampEntry b o w g v x).tiles = s.tiles := by
  obtain ⟨_, _, h, _⟩ := clampEntry_writes s b o w g v x; rw [h]
@[simp] theorem clampEntry_disp (s : State) (b o w g v x : Nat) : (s.clampEntry b o w g v x).disp = s.disp := by
  obtain ⟨_, _, h, _⟩ := clampEntry_writes s b o w g v x; rw [h]
@[simp] theorem clampEntry_links (s : State) (b o w g v x : Nat) : (s.clampEntry b o w g v x).links = s.links := by
  obtain ⟨_, _, h, _⟩ := clampEntry_writes s b o w g v x; rw [h]
@[simp] theorem clampEntry_sec (s : State) (b o w g v x : Nat) : (s.clampEntry b o w g v x).sec = s.sec := by
  obtain ⟨_, _, h, _⟩ := clampEntry_writes s b o w g v x; rw [h]
@[simp] theorem clampEntry_tpageAt (s : State) (b o w g v x : Nat) : (s.clampEntry b o w g v x).tpageAt = s.tpageAt := by
  obtain ⟨_, _, h, _⟩ := clampEntry_writes s b o w g v x; rw [h]
@[simp] theorem clampEntry_tpageSeq (s : State) (b o w g v x : Nat) : (s.clampEntry b o w g v x).tpageSeq = s.tpageSeq := by
  obtain ⟨_, _, h, _⟩ := clampEntry_writes s b o w g v x; rw [h]

/-- Logging a command of the pair changes the log and the fill level in CKPT only (R436). -/
theorem logCmd_reg (s : State) (csa v : Nat) (c : Cmd) {d : Nat} (h : d ≠ F.cpCkptLogfill.csa) :
    (s.logCmd csa v c).reg d = s.reg d := by
  unfold State.logCmd
  split
  · rfl
  · exact State.reg_setReg_ne _ _ _ h

theorem logCmd_rd (s : State) (csa v : Nat) (c : Cmd) {f : Fld} (h : f.csa ≠ F.cpCkptLogfill.csa) :
    (s.logCmd csa v c).rd f = s.rd f := by
  simp only [State.rd, logCmd_reg s csa v c h]

@[simp] theorem logCmd_pending (s : State) (a v : Nat) (c : Cmd) : (s.logCmd a v c).pending = s.pending := by
  unfold State.logCmd; split
  · rfl
  · exact State.wr_pending _ _ _
@[simp] theorem logCmd_beat (s : State) (a v : Nat) (c : Cmd) : (s.logCmd a v c).beat = s.beat := by
  unfold State.logCmd; split
  · rfl
  · exact State.wr_beat _ _ _
@[simp] theorem logCmd_cpOut (s : State) (a v : Nat) (c : Cmd) : (s.logCmd a v c).cpOut = s.cpOut := by
  unfold State.logCmd; split
  · rfl
  · exact State.wr_cpOut _ _ _
@[simp] theorem logCmd_free (s : State) (a v : Nat) (c : Cmd) : (s.logCmd a v c).free = s.free := by
  unfold State.logCmd; split
  · rfl
  · exact State.wr_free _ _ _
@[simp] theorem logCmd_beatNet (s : State) (a v : Nat) (c : Cmd) : (s.logCmd a v c).beatNet = s.beatNet := by
  unfold State.logCmd; split
  · rfl
  · exact State.wr_beatNet _ _ _
@[simp] theorem logCmd_pwr (s : State) (a v : Nat) (c : Cmd) : (s.logCmd a v c).pwr = s.pwr := by
  unfold State.logCmd; split
  · rfl
  · exact State.wr_pwr _ _ _
@[simp] theorem logCmd_rst (s : State) (a v : Nat) (c : Cmd) : (s.logCmd a v c).rst = s.rst := by
  unfold State.logCmd; split
  · rfl
  · exact State.wr_rst _ _ _
@[simp] theorem logCmd_hosts (s : State) (a v : Nat) (c : Cmd) : (s.logCmd a v c).hosts = s.hosts := by
  unfold State.logCmd; split
  · rfl
  · exact State.wr_hosts _ _ _
@[simp] theorem logCmd_homes (s : State) (a v : Nat) (c : Cmd) : (s.logCmd a v c).homes = s.homes := by
  unfold State.logCmd; split
  · rfl
  · exact State.wr_homes _ _ _
@[simp] theorem logCmd_mem (s : State) (a v : Nat) (c : Cmd) : (s.logCmd a v c).mem = s.mem := by
  unfold State.logCmd; split
  · rfl
  · exact State.wr_mem _ _ _
@[simp] theorem logCmd_pub (s : State) (a v : Nat) (c : Cmd) : (s.logCmd a v c).pub = s.pub := by
  unfold State.logCmd; split
  · rfl
  · exact State.wr_pub _ _ _
@[simp] theorem logCmd_mir (s : State) (a v : Nat) (c : Cmd) : (s.logCmd a v c).mir = s.mir := by
  unfold State.logCmd; split
  · rfl
  · exact State.wr_mir _ _ _
@[simp] theorem logCmd_out (s : State) (a v : Nat) (c : Cmd) : (s.logCmd a v c).out = s.out := by
  unfold State.logCmd; split
  · rfl
  · exact State.wr_out _ _ _
@[simp] theorem logCmd_dch (s : State) (a v : Nat) (c : Cmd) : (s.logCmd a v c).dch = s.dch := by
  unfold State.logCmd; split
  · rfl
  · exact State.wr_dch _ _ _
@[simp] theorem logCmd_zeroq (s : State) (a v : Nat) (c : Cmd) : (s.logCmd a v c).zeroq = s.zeroq := by
  unfold State.logCmd; split
  · rfl
  · exact State.wr_zeroq _ _ _
@[simp] theorem logCmd_lapStart (s : State) (a v : Nat) (c : Cmd) : (s.logCmd a v c).lapStart = s.lapStart := by
  unfold State.logCmd; split
  · rfl
  · exact State.wr_lapStart _ _ _
@[simp] theorem logCmd_peers (s : State) (a v : Nat) (c : Cmd) : (s.logCmd a v c).peers = s.peers := by
  unfold State.logCmd; split
  · rfl
  · exact State.wr_peers _ _ _
@[simp] theorem logCmd_peerSeq (s : State) (a v : Nat) (c : Cmd) : (s.logCmd a v c).peerSeq = s.peerSeq := by
  unfold State.logCmd; split
  · rfl
  · exact State.wr_peerSeq _ _ _
@[simp] theorem logCmd_meshResp (s : State) (a v : Nat) (c : Cmd) : (s.logCmd a v c).meshResp = s.meshResp := by
  unfold State.logCmd; split
  · rfl
  · exact State.wr_meshResp _ _ _
@[simp] theorem logCmd_tenCnt (s : State) (a v : Nat) (c : Cmd) : (s.logCmd a v c).tenCnt = s.tenCnt := by
  unfold State.logCmd; split
  · rfl
  · exact State.wr_tenCnt _ _ _
@[simp] theorem logCmd_mbar (s : State) (a v : Nat) (c : Cmd) : (s.logCmd a v c).mbar = s.mbar := by
  unfold State.logCmd; split
  · rfl
  · exact State.wr_mbar _ _ _
@[simp] theorem logCmd_flash (s : State) (a v : Nat) (c : Cmd) : (s.logCmd a v c).flash = s.flash := by
  unfold State.logCmd; split
  · rfl
  · exact State.wr_flash _ _ _
@[simp] theorem logCmd_tiles (s : State) (a v : Nat) (c : Cmd) : (s.logCmd a v c).tiles = s.tiles := by
  unfold State.logCmd; split
  · rfl
  · exact State.wr_tiles _ _ _
@[simp] theorem logCmd_disp (s : State) (a v : Nat) (c : Cmd) : (s.logCmd a v c).disp = s.disp := by
  unfold State.logCmd; split
  · rfl
  · exact State.wr_disp _ _ _
@[simp] theorem logCmd_links (s : State) (a v : Nat) (c : Cmd) : (s.logCmd a v c).links = s.links := by
  unfold State.logCmd; split
  · rfl
  · exact State.wr_links _ _ _
@[simp] theorem logCmd_sec (s : State) (a v : Nat) (c : Cmd) : (s.logCmd a v c).sec = s.sec := by
  unfold State.logCmd; split
  · rfl
  · exact State.wr_sec _ _ _
@[simp] theorem logCmd_tpageAt (s : State) (a v : Nat) (c : Cmd) : (s.logCmd a v c).tpageAt = s.tpageAt := by
  unfold State.logCmd; split
  · rfl
  · exact State.wr_tpageAt _ _ _
@[simp] theorem logCmd_tpageSeq (s : State) (a v : Nat) (c : Cmd) : (s.logCmd a v c).tpageSeq = s.tpageSeq := by
  unfold State.logCmd; split
  · rfl
  · exact State.wr_tpageSeq _ _ _
@[simp] theorem logCmd_events (s : State) (a v : Nat) (c : Cmd) : (s.logCmd a v c).events = s.events := by
  unfold State.logCmd; split
  · rfl
  · exact State.wr_events _ _ _

/-- A write that the block accepts reaches its clapper (R439, R501). -/
theorem ctlWrite_accepted (s : State) (csa v : Nat) (c : Cmd) (hook : Hook) (ha : csa % 8 = 0)
    (hw : csa / 0x100000 < 863) (h : Accepts s (csa / 0x100000) c) :
    s.ctlWrite csa v c hook = (s.logCmd csa v c).clapped csa v c hook := by
  unfold State.ctlWrite
  have hin : (s.logCmd csa v c).on (F.hdrStateInreset (csa / 0x100000)) = false := by
    have := h.2.2.1
    unfold State.on at this ⊢
    rw [logCmd_rd]
    · exact this
    · simp only [F.hdrStateInreset, F.cpCkptLogfill]; omega
  simp [ha, hin, Nat.not_le.2 hw, h.2.2.2]

/-- What the clapper of a block makes of an accepted write of a register (R505 to R510). -/
theorem clapped_register (s : State) (csa v : Nat) (c : Cmd) (hook : Hook) (r : RegDesc)
    (h : Accepts s (csa / 0x100000) c)
    (hr : findReg (blkOfWindow (csa / 0x100000)).1 (blkOfWindow (csa / 0x100000)).2 (csa % 0x100000) = some r) :
    s.clapped csa v c hook =
      let s1 := s.wr (F.hdrSeqSeq (csa / 0x100000)) c.seq.toNat
      let w := r.fields.foldl (fun acc f => writeField f v acc)
        (s1.reg csa, if v &&& reservedBits r = 0 then 0 else fReserved)
      let g := s1.groupCheck (blkOfWindow (csa / 0x100000)).1 (blkOfWindow (csa / 0x100000)).2 (csa % 0x100000)
        (s1.reg csa) w.1
      let x := hook v (s1.setReg csa g.1)
      if w.2 ||| g.2 ||| x.2 = 0 then x.1
      else x.1.clampEntry (csa / 0x100000) (csa % 0x100000) c.writer.toNat (w.2 ||| g.2 ||| x.2) v (x.1.reg csa) := by
  obtain ⟨h1, h2, _⟩ := h
  unfold State.clapped
  simp only [hr, h1, Nat.not_le.2 h2, if_false, ne_eq, not_true_eq_false]

end Sys2Proof.Machine
end

