-- ==== Sys2Proof/Laws/Dispatch.lean ====
section
/-! SUPPORT. The inversion of exec: every command is served in one of three ways. -/

namespace Sys2Proof.Machine

/-- A command is an event of the supply, or served in the fatal halt as well, or one of the running part. -/
def Shape (c : Instr) (s : State) : Prop :=
  (ofSupply c = true ∧ ∃ f, exec c s = supply s f) ∨
  (ofSupply c = false ∧ servedInHalt c = true ∧ ∃ f, exec c s = always s f) ∨
  (ofSupply c = false ∧ servedInHalt c = false ∧ ∃ f, exec c s = live s f)

/-- Every command is served in one of the three ways. -/
theorem exec_shape (c : Instr) (s : State) : Shape c s := by
  cases c with
  | eventResolution => exact .inr (.inl ⟨rfl, rfl, _, execEventResolution.eq_1 ..⟩)
  | beatReplicaReload _ _ => exact .inr (.inr ⟨rfl, rfl, _, execBeatReplicaReload.eq_1 ..⟩)
  | beatTreeFailure _ _ => exact .inr (.inr ⟨rfl, rfl, _, execBeatTreeFailure.eq_1 ..⟩)
  | configWrite _ _ _ => exact .inr (.inl ⟨rfl, rfl, _, execConfigWrite.eq_1 ..⟩)
  | controlSpaceAccessError _ => exact .inr (.inl ⟨rfl, rfl, _, execControlSpaceAccessError.eq_1 ..⟩)
  | fstepTarget _ _ => exact .inr (.inl ⟨rfl, rfl, _, execFstepTarget.eq_1 ..⟩)
  | fstepBegin => exact .inr (.inr ⟨rfl, rfl, _, execFstepBegin.eq_1 ..⟩)
  | fstepResume => exact .inr (.inr ⟨rfl, rfl, _, execFstepResume.eq_1 ..⟩)
  | thermalStepDown => exact .inr (.inr ⟨rfl, rfl, _, execThermalStepDown.eq_1 ..⟩)
  | thermalCeilingLift => exact .inr (.inl ⟨rfl, rfl, _, execThermalCeilingLift.eq_1 ..⟩)
  | rgnActivate _ _ => exact .inr (.inr ⟨rfl, rfl, _, execRgnActivate.eq_1 ..⟩)
  | rgnDeactivate _ _ => exact .inr (.inr ⟨rfl, rfl, _, execRgnDeactivate.eq_1 ..⟩)
  | xltInv _ _ _ _ _ => exact .inr (.inr ⟨rfl, rfl, _, execXltInv.eq_1 ..⟩)
  | xltInvDone => exact .inr (.inr ⟨rfl, rfl, _, execXltInvDone.eq_1 ..⟩)
  | ingress _ => exact .inr (.inr ⟨rfl, rfl, _, execIngress.eq_1 ..⟩)
  | frzRelease _ _ => exact .inr (.inr ⟨rfl, rfl, _, execFrzRelease.eq_1 ..⟩)
  | frzEvict _ _ => exact .inr (.inr ⟨rfl, rfl, _, execFrzEvict.eq_1 ..⟩)
  | frzFreeze _ _ => exact .inr (.inr ⟨rfl, rfl, _, execFrzFreeze.eq_1 ..⟩)
  | admWrite _ _ => exact .inr (.inr ⟨rfl, rfl, _, execAdmWrite.eq_1 ..⟩)
  | admRead _ _ => exact .inr (.inr ⟨rfl, rfl, _, execAdmRead.eq_1 ..⟩)
  | faultRecordOpen _ => exact .inr (.inr ⟨rfl, rfl, _, execFaultRecordOpen.eq_1 ..⟩)
  | faultPendingRetry _ => exact .inr (.inr ⟨rfl, rfl, _, execFaultPendingRetry.eq_1 ..⟩)
  | faultTimeout _ _ => exact .inr (.inr ⟨rfl, rfl, _, execFaultTimeout.eq_1 ..⟩)
  | fltDone _ _ _ => exact .inr (.inr ⟨rfl, rfl, _, execFltDone.eq_1 ..⟩)
  | faultQueueEntry => exact .inr (.inr ⟨rfl, rfl, _, execFaultQueueEntry.eq_1 ..⟩)
  | streamPrefetch _ _ _ _ => exact .inr (.inr ⟨rfl, rfl, _, execStreamPrefetch.eq_1 ..⟩)
  | rdShared _ => exact .inr (.inr ⟨rfl, rfl, _, execRdShared.eq_1 ..⟩)
  | rdOwn _ => exact .inr (.inr ⟨rfl, rfl, _, execRdOwn.eq_1 ..⟩)
  | upgrade _ => exact .inr (.inr ⟨rfl, rfl, _, execUpgrade.eq_1 ..⟩)
  | rdCur _ => exact .inr (.inr ⟨rfl, rfl, _, execRdCur.eq_1 ..⟩)
  | wrCur _ => exact .inr (.inr ⟨rfl, rfl, _, execWrCur.eq_1 ..⟩)
  | wbM _ => exact .inr (.inr ⟨rfl, rfl, _, execWbM.eq_1 ..⟩)
  | evictClean _ => exact .inr (.inr ⟨rfl, rfl, _, execEvictClean.eq_1 ..⟩)
  | grantAck _ => exact .inr (.inr ⟨rfl, rfl, _, execGrantAck.eq_1 ..⟩)
  | rspI _ => exact .inr (.inr ⟨rfl, rfl, _, execRspI.eq_1 ..⟩)
  | rspIWb _ => exact .inr (.inr ⟨rfl, rfl, _, execRspIWb.eq_1 ..⟩)
  | rspS _ => exact .inr (.inr ⟨rfl, rfl, _, execRspS.eq_1 ..⟩)
  | rspSWb _ => exact .inr (.inr ⟨rfl, rfl, _, execRspSWb.eq_1 ..⟩)
  | rspFwd _ => exact .inr (.inr ⟨rfl, rfl, _, execRspFwd.eq_1 ..⟩)
  | rspAbsentEvict _ => exact .inr (.inr ⟨rfl, rfl, _, execRspAbsentEvict.eq_1 ..⟩)
  | fwdData _ => exact .inr (.inr ⟨rfl, rfl, _, execFwdData.eq_1 ..⟩)
  | pendingQueueOffer _ => exact .inr (.inr ⟨rfl, rfl, _, execPendingQueueOffer.eq_1 ..⟩)
  | requestAgePriority _ => exact .inr (.inr ⟨rfl, rfl, _, execRequestAgePriority.eq_1 ..⟩)
  | starveMark _ => exact .inr (.inr ⟨rfl, rfl, _, execStarveMark.eq_1 ..⟩)
  | snoopTimeout _ _ => exact .inr (.inr ⟨rfl, rfl, _, execSnoopTimeout.eq_1 ..⟩)
  | leaseExpiry _ => exact .inr (.inr ⟨rfl, rfl, _, execLeaseExpiry.eq_1 ..⟩)
  | cohBinv _ _ _ _ => exact .inr (.inr ⟨rfl, rfl, _, execCohBinv.eq_1 ..⟩)
  | cohBinvDone => exact .inr (.inr ⟨rfl, rfl, _, execCohBinvDone.eq_1 ..⟩)
  | slotRevoke _ _ => exact .inr (.inr ⟨rfl, rfl, _, execSlotRevoke.eq_1 ..⟩)
  | filterEccError _ _ _ _ => exact .inr (.inr ⟨rfl, rfl, _, execFilterEccError.eq_1 ..⟩)
  | faddI _ => exact .inr (.inr ⟨rfl, rfl, _, execFaddI.eq_1 ..⟩)
  | faddF32 _ => exact .inr (.inr ⟨rfl, rfl, _, execFaddF32.eq_1 ..⟩)
  | faddBf16 _ => exact .inr (.inr ⟨rfl, rfl, _, execFaddBf16.eq_1 ..⟩)
  | cas _ => exact .inr (.inr ⟨rfl, rfl, _, execCas.eq_1 ..⟩)
  | minS _ => exact .inr (.inr ⟨rfl, rfl, _, execMinS.eq_1 ..⟩)
  | maxS _ => exact .inr (.inr ⟨rfl, rfl, _, execMaxS.eq_1 ..⟩)
  | minU _ => exact .inr (.inr ⟨rfl, rfl, _, execMinU.eq_1 ..⟩)
  | maxU _ => exact .inr (.inr ⟨rfl, rfl, _, execMaxU.eq_1 ..⟩)
  | minF32 _ => exact .inr (.inr ⟨rfl, rfl, _, execMinF32.eq_1 ..⟩)
  | maxF32 _ => exact .inr (.inr ⟨rfl, rfl, _, execMaxF32.eq_1 ..⟩)
  | vfaddF32 _ => exact .inr (.inr ⟨rfl, rfl, _, execVfaddF32.eq_1 ..⟩)
  | vfaddI32 _ => exact .inr (.inr ⟨rfl, rfl, _, execVfaddI32.eq_1 ..⟩)
  | publish _ => exact .inr (.inr ⟨rfl, rfl, _, execPublish.eq_1 ..⟩)
  | publishCommit _ => exact .inr (.inr ⟨rfl, rfl, _, execPublishCommit.eq_1 ..⟩)
  | stageDiscard _ => exact .inr (.inr ⟨rfl, rfl, _, execStageDiscard.eq_1 ..⟩)
  | snapPin _ => exact .inr (.inr ⟨rfl, rfl, _, execSnapPin.eq_1 ..⟩)
  | snapUnpin _ => exact .inr (.inr ⟨rfl, rfl, _, execSnapUnpin.eq_1 ..⟩)
  | pinTimeout _ _ => exact .inr (.inr ⟨rfl, rfl, _, execPinTimeout.eq_1 ..⟩)
  | subscribe _ => exact .inr (.inr ⟨rfl, rfl, _, execSubscribe.eq_1 ..⟩)
  | unsubscribe _ => exact .inr (.inr ⟨rfl, rfl, _, execUnsubscribe.eq_1 ..⟩)
  | stagingCopyComplete _ _ _ => exact .inr (.inr ⟨rfl, rfl, _, execStagingCopyComplete.eq_1 ..⟩)
  | stamp _ => exact .inr (.inr ⟨rfl, rfl, _, execStamp.eq_1 ..⟩)
  | stampAck _ => exact .inr (.inr ⟨rfl, rfl, _, execStampAck.eq_1 ..⟩)
  | mirrorOutOfStep => exact .inr (.inr ⟨rfl, rfl, _, execMirrorOutOfStep.eq_1 ..⟩)
  | mirrorAlone => exact .inr (.inr ⟨rfl, rfl, _, execMirrorAlone.eq_1 ..⟩)
  | mirSyncGo _ => exact .inr (.inr ⟨rfl, rfl, _, execMirSyncGo.eq_1 ..⟩)
  | mirSyncComplete => exact .inr (.inr ⟨rfl, rfl, _, execMirSyncComplete.eq_1 ..⟩)
  | mirSyncHandoff _ => exact .inr (.inr ⟨rfl, rfl, _, execMirSyncHandoff.eq_1 ..⟩)
  | planArm _ _ => exact .inr (.inr ⟨rfl, rfl, _, execPlanArm.eq_1 ..⟩)
  | planTakeover _ => exact .inr (.inr ⟨rfl, rfl, _, execPlanTakeover.eq_1 ..⟩)
  | refreshDue _ _ => exact .inr (.inr ⟨rfl, rfl, _, execRefreshDue.eq_1 ..⟩)
  | doubleModeChange _ _ => exact .inr (.inr ⟨rfl, rfl, _, execDoubleModeChange.eq_1 ..⟩)
  | zqCalibration _ => exact .inr (.inr ⟨rfl, rfl, _, execZqCalibration.eq_1 ..⟩)
  | oscillatorUpdate _ _ => exact .inr (.inr ⟨rfl, rfl, _, execOscillatorUpdate.eq_1 ..⟩)
  | dramTrain _ => exact .inr (.inr ⟨rfl, rfl, _, execDramTrain.eq_1 ..⟩)
  | trainingDone _ _ _ _ _ => exact .inr (.inr ⟨rfl, rfl, _, execTrainingDone.eq_1 ..⟩)
  | dramServiceStart => exact .inr (.inr ⟨rfl, rfl, _, execDramServiceStart.eq_1 ..⟩)
  | retrain _ _ => exact .inr (.inr ⟨rfl, rfl, _, execRetrain.eq_1 ..⟩)
  | retrainDone _ _ _ => exact .inr (.inr ⟨rfl, rfl, _, execRetrainDone.eq_1 ..⟩)
  | fenceSet _ _ => exact .inr (.inr ⟨rfl, rfl, _, execFenceSet.eq_1 ..⟩)
  | fenceClear _ _ => exact .inr (.inr ⟨rfl, rfl, _, execFenceClear.eq_1 ..⟩)
  | selfFence _ _ => exact .inr (.inr ⟨rfl, rfl, _, execSelfFence.eq_1 ..⟩)
  | drainComplete _ => exact .inr (.inr ⟨rfl, rfl, _, execDrainComplete.eq_1 ..⟩)
  | modulePowerOff _ _ => exact .inr (.inr ⟨rfl, rfl, _, execModulePowerOff.eq_1 ..⟩)
  | modulePowerOn _ _ => exact .inr (.inr ⟨rfl, rfl, _, execModulePowerOn.eq_1 ..⟩)
  | rebuildComplete _ => exact .inr (.inr ⟨rfl, rfl, _, execRebuildComplete.eq_1 ..⟩)
  | fillRequest _ _ => exact .inr (.inr ⟨rfl, rfl, _, execFillRequest.eq_1 ..⟩)
  | promoteReadDone _ _ _ => exact .inr (.inr ⟨rfl, rfl, _, execPromoteReadDone.eq_1 ..⟩)
  | promotionEnd _ _ => exact .inr (.inr ⟨rfl, rfl, _, execPromotionEnd.eq_1 ..⟩)
  | demotionStart _ _ => exact .inr (.inr ⟨rfl, rfl, _, execDemotionStart.eq_1 ..⟩)
  | demoteReadDone _ _ => exact .inr (.inr ⟨rfl, rfl, _, execDemoteReadDone.eq_1 ..⟩)
  | demotionEnd _ _ => exact .inr (.inr ⟨rfl, rfl, _, execDemotionEnd.eq_1 ..⟩)
  | touch _ _ _ => exact .inr (.inr ⟨rfl, rfl, _, execTouch.eq_1 ..⟩)
  | heatEpoch _ => exact .inr (.inr ⟨rfl, rfl, _, execHeatEpoch.eq_1 ..⟩)
  | freePush _ _ _ => exact .inr (.inr ⟨rfl, rfl, _, execFreePush.eq_1 ..⟩)
  | driveLinkUp _ _ _ => exact .inr (.inr ⟨rfl, rfl, _, execDriveLinkUp.eq_1 ..⟩)
  | driveCommandTimeout _ => exact .inr (.inr ⟨rfl, rfl, _, execDriveCommandTimeout.eq_1 ..⟩)
  | driveFatal _ _ => exact .inr (.inr ⟨rfl, rfl, _, execDriveFatal.eq_1 ..⟩)
  | rootPortLinkDown _ => exact .inr (.inr ⟨rfl, rfl, _, execRootPortLinkDown.eq_1 ..⟩)
  | driveRetire _ _ => exact .inr (.inr ⟨rfl, rfl, _, execDriveRetire.eq_1 ..⟩)
  | driveRetired _ => exact .inr (.inr ⟨rfl, rfl, _, execDriveRetired.eq_1 ..⟩)
  | driveInboundRequest _ _ => exact .inr (.inr ⟨rfl, rfl, _, execDriveInboundRequest.eq_1 ..⟩)
  | nop _ => exact .inr (.inr ⟨rfl, rfl, _, execNop.eq_1 ..⟩)
  | add _ _ _ _ => exact .inr (.inr ⟨rfl, rfl, _, execAdd.eq_1 ..⟩)
  | sub _ _ _ _ => exact .inr (.inr ⟨rfl, rfl, _, execSub.eq_1 ..⟩)
  | and _ _ _ _ => exact .inr (.inr ⟨rfl, rfl, _, execAnd.eq_1 ..⟩)
  | or _ _ _ _ => exact .inr (.inr ⟨rfl, rfl, _, execOr.eq_1 ..⟩)
  | xor _ _ _ _ => exact .inr (.inr ⟨rfl, rfl, _, execXor.eq_1 ..⟩)
  | shl _ _ _ _ => exact .inr (.inr ⟨rfl, rfl, _, execShl.eq_1 ..⟩)
  | shr _ _ _ _ => exact .inr (.inr ⟨rfl, rfl, _, execShr.eq_1 ..⟩)
  | sra _ _ _ _ => exact .inr (.inr ⟨rfl, rfl, _, execSra.eq_1 ..⟩)
  | mul _ _ _ _ => exact .inr (.inr ⟨rfl, rfl, _, execMul.eq_1 ..⟩)
  | slt _ _ _ _ => exact .inr (.inr ⟨rfl, rfl, _, execSlt.eq_1 ..⟩)
  | sltu _ _ _ _ => exact .inr (.inr ⟨rfl, rfl, _, execSltu.eq_1 ..⟩)
  | min _ _ _ _ => exact .inr (.inr ⟨rfl, rfl, _, execMin.eq_1 ..⟩)
  | max _ _ _ _ => exact .inr (.inr ⟨rfl, rfl, _, execMax.eq_1 ..⟩)
  | addi _ _ _ _ => exact .inr (.inr ⟨rfl, rfl, _, execAddi.eq_1 ..⟩)
  | andi _ _ _ _ => exact .inr (.inr ⟨rfl, rfl, _, execAndi.eq_1 ..⟩)
  | ori _ _ _ _ => exact .inr (.inr ⟨rfl, rfl, _, execOri.eq_1 ..⟩)
  | xori _ _ _ _ => exact .inr (.inr ⟨rfl, rfl, _, execXori.eq_1 ..⟩)
  | shli _ _ _ _ => exact .inr (.inr ⟨rfl, rfl, _, execShli.eq_1 ..⟩)
  | shri _ _ _ _ => exact .inr (.inr ⟨rfl, rfl, _, execShri.eq_1 ..⟩)
  | srai _ _ _ _ => exact .inr (.inr ⟨rfl, rfl, _, execSrai.eq_1 ..⟩)
  | li _ _ _ => exact .inr (.inr ⟨rfl, rfl, _, execLi.eq_1 ..⟩)
  | lih _ _ _ => exact .inr (.inr ⟨rfl, rfl, _, execLih.eq_1 ..⟩)
  | beq _ _ _ _ => exact .inr (.inr ⟨rfl, rfl, _, execBeq.eq_1 ..⟩)
  | bne _ _ _ _ => exact .inr (.inr ⟨rfl, rfl, _, execBne.eq_1 ..⟩)
  | blt _ _ _ _ => exact .inr (.inr ⟨rfl, rfl, _, execBlt.eq_1 ..⟩)
  | bge _ _ _ _ => exact .inr (.inr ⟨rfl, rfl, _, execBge.eq_1 ..⟩)
  | jmp _ _ => exact .inr (.inr ⟨rfl, rfl, _, execJmp.eq_1 ..⟩)
  | coreEnd _ => exact .inr (.inr ⟨rfl, rfl, _, execCoreEnd.eq_1 ..⟩)
  | rdsp _ _ _ => exact .inr (.inr ⟨rfl, rfl, _, execRdsp.eq_1 ..⟩)
  | vld _ _ _ _ => exact .inr (.inr ⟨rfl, rfl, _, execVld.eq_1 ..⟩)
  | vst _ _ _ _ => exact .inr (.inr ⟨rfl, rfl, _, execVst.eq_1 ..⟩)
  | sld _ _ _ _ => exact .inr (.inr ⟨rfl, rfl, _, execSld.eq_1 ..⟩)
  | sst _ _ _ _ => exact .inr (.inr ⟨rfl, rfl, _, execSst.eq_1 ..⟩)
  | send _ _ _ => exact .inr (.inr ⟨rfl, rfl, _, execSend.eq_1 ..⟩)
  | sende _ _ _ => exact .inr (.inr ⟨rfl, rfl, _, execSende.eq_1 ..⟩)
  | dreq _ _ _ => exact .inr (.inr ⟨rfl, rfl, _, execDreq.eq_1 ..⟩)
  | dld _ _ _ _ => exact .inr (.inr ⟨rfl, rfl, _, execDld.eq_1 ..⟩)
  | waitc _ _ _ => exact .inr (.inr ⟨rfl, rfl, _, execWaitc.eq_1 ..⟩)
  | rdc _ _ _ => exact .inr (.inr ⟨rfl, rfl, _, execRdc.eq_1 ..⟩)
  | clrc _ _ _ => exact .inr (.inr ⟨rfl, rfl, _, execClrc.eq_1 ..⟩)
  | vfma _ _ _ _ _ => exact .inr (.inr ⟨rfl, rfl, _, execVfma.eq_1 ..⟩)
  | vfmaH _ _ _ _ _ _ _ _ => exact .inr (.inr ⟨rfl, rfl, _, execVfmaH.eq_1 ..⟩)
  | vdot8 _ _ _ _ _ _ _ _ _ _ _ => exact .inr (.inr ⟨rfl, rfl, _, execVdot8.eq_1 ..⟩)
  | vdot4 _ _ _ _ _ _ _ _ _ _ _ => exact .inr (.inr ⟨rfl, rfl, _, execVdot4.eq_1 ..⟩)
  | vadd _ _ _ _ _ => exact .inr (.inr ⟨rfl, rfl, _, execVadd.eq_1 ..⟩)
  | vsub _ _ _ _ _ => exact .inr (.inr ⟨rfl, rfl, _, execVsub.eq_1 ..⟩)
  | vmul _ _ _ _ _ => exact .inr (.inr ⟨rfl, rfl, _, execVmul.eq_1 ..⟩)
  | vmax _ _ _ _ => exact .inr (.inr ⟨rfl, rfl, _, execVmax.eq_1 ..⟩)
  | vmin _ _ _ _ => exact .inr (.inr ⟨rfl, rfl, _, execVmin.eq_1 ..⟩)
  | vcmp _ _ _ _ _ => exact .inr (.inr ⟨rfl, rfl, _, execVcmp.eq_1 ..⟩)
  | vred _ _ _ => exact .inr (.inr ⟨rfl, rfl, _, execVred.eq_1 ..⟩)
  | accz _ _ _ => exact .inr (.inr ⟨rfl, rfl, _, execAccz.eq_1 ..⟩)
  | acci _ _ _ _ => exact .inr (.inr ⟨rfl, rfl, _, execAcci.eq_1 ..⟩)
  | vmov _ _ _ => exact .inr (.inr ⟨rfl, rfl, _, execVmov.eq_1 ..⟩)
  | vbc _ _ _ => exact .inr (.inr ⟨rfl, rfl, _, execVbc.eq_1 ..⟩)
  | exp _ _ _ => exact .inr (.inr ⟨rfl, rfl, _, execExp.eq_1 ..⟩)
  | exp2 _ _ _ => exact .inr (.inr ⟨rfl, rfl, _, execExp2.eq_1 ..⟩)
  | log _ _ _ => exact .inr (.inr ⟨rfl, rfl, _, execLog.eq_1 ..⟩)
  | log2 _ _ _ => exact .inr (.inr ⟨rfl, rfl, _, execLog2.eq_1 ..⟩)
  | rcp _ _ _ => exact .inr (.inr ⟨rfl, rfl, _, execRcp.eq_1 ..⟩)
  | rsqrt _ _ _ => exact .inr (.inr ⟨rfl, rfl, _, execRsqrt.eq_1 ..⟩)
  | lsem _ _ _ => exact .inr (.inr ⟨rfl, rfl, _, execLsem.eq_1 ..⟩)
  | cvt _ _ _ _ _ _ _ _ _ => exact .inr (.inr ⟨rfl, rfl, _, execCvt.eq_1 ..⟩)
  | cvtw _ _ _ _ _ => exact .inr (.inr ⟨rfl, rfl, _, execCvtw.eq_1 ..⟩)
  | xst _ _ _ _ _ _ _ _ => exact .inr (.inr ⟨rfl, rfl, _, execXst.eq_1 ..⟩)
  | unpk6 _ _ _ _ => exact .inr (.inr ⟨rfl, rfl, _, execUnpk6.eq_1 ..⟩)
  | pack6 _ _ _ _ => exact .inr (.inr ⟨rfl, rfl, _, execPack6.eq_1 ..⟩)
  | mxenc _ _ _ _ _ _ _ => exact .inr (.inr ⟨rfl, rfl, _, execMxenc.eq_1 ..⟩)
  | accx _ _ _ _ => exact .inr (.inr ⟨rfl, rfl, _, execAccx.eq_1 ..⟩)
  | acc2f _ _ _ _ _ => exact .inr (.inr ⟨rfl, rfl, _, execAcc2f.eq_1 ..⟩)
  | acc2i _ _ _ _ _ => exact .inr (.inr ⟨rfl, rfl, _, execAcc2i.eq_1 ..⟩)
  | rd _ => exact .inr (.inr ⟨rfl, rfl, _, execRd.eq_1 ..⟩)
  | rdv _ => exact .inr (.inr ⟨rfl, rfl, _, execRdv.eq_1 ..⟩)
  | wr _ => exact .inr (.inr ⟨rfl, rfl, _, execWr.eq_1 ..⟩)
  | walk _ => exact .inr (.inr ⟨rfl, rfl, _, execWalk.eq_1 ..⟩)
  | msg _ => exact .inr (.inr ⟨rfl, rfl, _, execMsg.eq_1 ..⟩)
  | desc _ => exact .inr (.inr ⟨rfl, rfl, _, execDesc.eq_1 ..⟩)
  | load _ => exact .inr (.inr ⟨rfl, rfl, _, execLoad.eq_1 ..⟩)
  | result _ => exact .inr (.inr ⟨rfl, rfl, _, execResult.eq_1 ..⟩)
  | done _ => exact .inr (.inr ⟨rfl, rfl, _, execDone.eq_1 ..⟩)
  | dynamicResponse _ => exact .inr (.inr ⟨rfl, rfl, _, execDynamicResponse.eq_1 ..⟩)
  | meshPlanTakeover => exact .inr (.inr ⟨rfl, rfl, _, execMeshPlanTakeover.eq_1 ..⟩)
  | tileFault _ _ => exact .inr (.inr ⟨rfl, rfl, _, execTileFault.eq_1 ..⟩)
  | tileRetire _ _ => exact .inr (.inr ⟨rfl, rfl, _, execTileRetire.eq_1 ..⟩)
  | spareLoadComplete _ => exact .inr (.inr ⟨rfl, rfl, _, execSpareLoadComplete.eq_1 ..⟩)
  | spareTakeover _ => exact .inr (.inr ⟨rfl, rfl, _, execSpareTakeover.eq_1 ..⟩)
  | tileReturn _ _ => exact .inr (.inr ⟨rfl, rfl, _, execTileReturn.eq_1 ..⟩)
  | tileSelfTestDone _ _ => exact .inr (.inr ⟨rfl, rfl, _, execTileSelfTestDone.eq_1 ..⟩)
  | spareSelfTest _ => exact .inr (.inr ⟨rfl, rfl, _, execSpareSelfTest.eq_1 ..⟩)
  | gateBar _ => exact .inr (.inr ⟨rfl, rfl, _, execGateBar.eq_1 ..⟩)
  | phaseEnd _ => exact .inr (.inr ⟨rfl, rfl, _, execPhaseEnd.eq_1 ..⟩)
  | patternLoad _ _ => exact .inr (.inr ⟨rfl, rfl, _, execPatternLoad.eq_1 ..⟩)
  | patternUnload _ _ => exact .inr (.inr ⟨rfl, rfl, _, execPatternUnload.eq_1 ..⟩)
  | unloadComplete _ => exact .inr (.inr ⟨rfl, rfl, _, execUnloadComplete.eq_1 ..⟩)
  | invoke _ => exact .inr (.inr ⟨rfl, rfl, _, execInvoke.eq_1 ..⟩)
  | cancel _ => exact .inr (.inr ⟨rfl, rfl, _, execCancel.eq_1 ..⟩)
  | jobKill _ _ _ => exact .inr (.inr ⟨rfl, rfl, _, execJobKill.eq_1 ..⟩)
  | gatherReduce => exact .inr (.inr ⟨rfl, rfl, _, execGatherReduce.eq_1 ..⟩)
  | scatterAccumulate => exact .inr (.inr ⟨rfl, rfl, _, execScatterAccumulate.eq_1 ..⟩)
  | prefixAttend => exact .inr (.inr ⟨rfl, rfl, _, execPrefixAttend.eq_1 ..⟩)
  | kvAppend => exact .inr (.inr ⟨rfl, rfl, _, execKvAppend.eq_1 ..⟩)
  | copy => exact .inr (.inr ⟨rfl, rfl, _, execCopy.eq_1 ..⟩)
  | fill => exact .inr (.inr ⟨rfl, rfl, _, execFill.eq_1 ..⟩)
  | checksum => exact .inr (.inr ⟨rfl, rfl, _, execChecksum.eq_1 ..⟩)
  | imageOperator _ => exact .inr (.inr ⟨rfl, rfl, _, execImageOperator.eq_1 ..⟩)
  | instanceComplete _ => exact .inr (.inr ⟨rfl, rfl, _, execInstanceComplete.eq_1 ..⟩)
  | opdoneSend _ => exact .inr (.inr ⟨rfl, rfl, _, execOpdoneSend.eq_1 ..⟩)
  | laneLoss _ _ _ => exact .inr (.inr ⟨rfl, rfl, _, execLaneLoss.eq_1 ..⟩)
  | laneRejoin _ _ => exact .inr (.inr ⟨rfl, rfl, _, execLaneRejoin.eq_1 ..⟩)
  | allLanesLost _ => exact .inr (.inr ⟨rfl, rfl, _, execAllLanesLost.eq_1 ..⟩)
  | flitReceive _ _ => exact .inr (.inr ⟨rfl, rfl, _, execFlitReceive.eq_1 ..⟩)
  | rollTimeout _ => exact .inr (.inr ⟨rfl, rfl, _, execRollTimeout.eq_1 ..⟩)
  | noGoodFlit _ => exact .inr (.inr ⟨rfl, rfl, _, execNoGoodFlit.eq_1 ..⟩)
  | laserFault _ _ _ _ => exact .inr (.inr ⟨rfl, rfl, _, execLaserFault.eq_1 ..⟩)
  | laserSwap _ _ => exact .inr (.inr ⟨rfl, rfl, _, execLaserSwap.eq_1 ..⟩)
  | widthChangeStart _ _ _ => exact .inr (.inr ⟨rfl, rfl, _, execWidthChangeStart.eq_1 ..⟩)
  | autoWiden _ => exact .inr (.inr ⟨rfl, rfl, _, execAutoWiden.eq_1 ..⟩)
  | wreqTimeout _ => exact .inr (.inr ⟨rfl, rfl, _, execWreqTimeout.eq_1 ..⟩)
  | wreq _ _ _ _ => exact .inr (.inr ⟨rfl, rfl, _, execWreq.eq_1 ..⟩)
  | wack _ _ _ => exact .inr (.inr ⟨rfl, rfl, _, execWack.eq_1 ..⟩)
  | wgo _ _ _ => exact .inr (.inr ⟨rfl, rfl, _, execWgo.eq_1 ..⟩)
  | rtreq _ _ _ => exact .inr (.inr ⟨rfl, rfl, _, execRtreq.eq_1 ..⟩)
  | rtack _ _ => exact .inr (.inr ⟨rfl, rfl, _, execRtack.eq_1 ..⟩)
  | withdraw _ _ => exact .inr (.inr ⟨rfl, rfl, _, execWithdraw.eq_1 ..⟩)
  | ldown _ _ => exact .inr (.inr ⟨rfl, rfl, _, execLdown.eq_1 ..⟩)
  | resume _ _ => exact .inr (.inr ⟨rfl, rfl, _, execResume.eq_1 ..⟩)
  | creditInit _ _ => exact .inr (.inr ⟨rfl, rfl, _, execCreditInit.eq_1 ..⟩)
  | disable _ => exact .inr (.inr ⟨rfl, rfl, _, execDisable.eq_1 ..⟩)
  | linkRetrain _ _ => exact .inr (.inr ⟨rfl, rfl, _, execLinkRetrain.eq_1 ..⟩)
  | csymRetrain _ _ _ => exact .inr (.inr ⟨rfl, rfl, _, execCsymRetrain.eq_1 ..⟩)
  | linkDisable _ _ => exact .inr (.inr ⟨rfl, rfl, _, execLinkDisable.eq_1 ..⟩)
  | linkEnable _ _ => exact .inr (.inr ⟨rfl, rfl, _, execLinkEnable.eq_1 ..⟩)
  | trainingStart _ => exact .inr (.inr ⟨rfl, rfl, _, execTrainingStart.eq_1 ..⟩)
  | trainingComplete _ _ _ _ _ _ _ => exact .inr (.inr ⟨rfl, rfl, _, execTrainingComplete.eq_1 ..⟩)
  | trainingTimeout _ _ _ => exact .inr (.inr ⟨rfl, rfl, _, execTrainingTimeout.eq_1 ..⟩)
  | retrainTimeout _ => exact .inr (.inr ⟨rfl, rfl, _, execRetrainTimeout.eq_1 ..⟩)
  | graceExpiry _ => exact .inr (.inr ⟨rfl, rfl, _, execGraceExpiry.eq_1 ..⟩)
  | leaseOpen _ => exact .inr (.inr ⟨rfl, rfl, _, execLeaseOpen.eq_1 ..⟩)
  | heartbeat _ => exact .inr (.inr ⟨rfl, rfl, _, execHeartbeat.eq_1 ..⟩)
  | leaseClose _ => exact .inr (.inr ⟨rfl, rfl, _, execLeaseClose.eq_1 ..⟩)
  | knell _ => exact .inr (.inr ⟨rfl, rfl, _, execKnell.eq_1 ..⟩)
  | peerResponse _ => exact .inr (.inr ⟨rfl, rfl, _, execPeerResponse.eq_1 ..⟩)
  | hostPin _ _ _ => exact .inr (.inr ⟨rfl, rfl, _, execHostPin.eq_1 ..⟩)
  | hostUnpin _ _ => exact .inr (.inr ⟨rfl, rfl, _, execHostUnpin.eq_1 ..⟩)
  | refillTick => exact .inr (.inr ⟨rfl, rfl, _, execRefillTick.eq_1 ..⟩)
  | congestionMark _ => exact .inr (.inr ⟨rfl, rfl, _, execCongestionMark.eq_1 ..⟩)
  | slowdownDecay _ => exact .inr (.inr ⟨rfl, rfl, _, execSlowdownDecay.eq_1 ..⟩)
  | polWrite _ _ => exact .inr (.inr ⟨rfl, rfl, _, execPolWrite.eq_1 ..⟩)
  | polRead _ _ => exact .inr (.inr ⟨rfl, rfl, _, execPolRead.eq_1 ..⟩)
  | polWriteFill _ _ => exact .inr (.inr ⟨rfl, rfl, _, execPolWriteFill.eq_1 ..⟩)
  | shapeWrite _ _ _ _ _ => exact .inr (.inr ⟨rfl, rfl, _, execShapeWrite.eq_1 ..⟩)
  | gateArm _ _ => exact .inr (.inr ⟨rfl, rfl, _, execGateArm.eq_1 ..⟩)
  | gateTakeover _ => exact .inr (.inr ⟨rfl, rfl, _, execGateTakeover.eq_1 ..⟩)
  | dchReadReturn _ _ _ _ _ _ => exact .inr (.inr ⟨rfl, rfl, _, execDchReadReturn.eq_1 ..⟩)
  | reconstruction _ _ => exact .inr (.inr ⟨rfl, rfl, _, execReconstruction.eq_1 ..⟩)
  | parityDelta _ _ _ _ => exact .inr (.inr ⟨rfl, rfl, _, execParityDelta.eq_1 ..⟩)
  | recompute _ _ => exact .inr (.inr ⟨rfl, rfl, _, execRecompute.eq_1 ..⟩)
  | brushWalkRead _ _ => exact .inr (.inr ⟨rfl, rfl, _, execBrushWalkRead.eq_1 ..⟩)
  | brushCorrection _ _ => exact .inr (.inr ⟨rfl, rfl, _, execBrushCorrection.eq_1 ..⟩)
  | zeroFrame _ _ _ => exact .inr (.inr ⟨rfl, rfl, _, execZeroFrame.eq_1 ..⟩)
  | zeroComplete => exact .inr (.inr ⟨rfl, rfl, _, execZeroComplete.eq_1 ..⟩)
  | homeSliceFault _ => exact .inr (.inr ⟨rfl, rfl, _, execHomeSliceFault.eq_1 ..⟩)
  | havlFail _ _ => exact .inr (.inr ⟨rfl, rfl, _, execHavlFail.eq_1 ..⟩)
  | havlReturn _ _ => exact .inr (.inr ⟨rfl, rfl, _, execHavlReturn.eq_1 ..⟩)
  | homeSelfTestDone _ _ => exact .inr (.inr ⟨rfl, rfl, _, execHomeSelfTestDone.eq_1 ..⟩)
  | homeHandback _ => exact .inr (.inr ⟨rfl, rfl, _, execHomeHandback.eq_1 ..⟩)
  | fatalError _ => exact .inr (.inl ⟨rfl, rfl, _, execFatalError.eq_1 ..⟩)
  | pairMismatch _ _ => exact .inr (.inr ⟨rfl, rfl, _, execPairMismatch.eq_1 ..⟩)
  | claimGrant _ _ => exact .inr (.inr ⟨rfl, rfl, _, execClaimGrant.eq_1 ..⟩)
  | takeover _ => exact .inr (.inr ⟨rfl, rfl, _, execTakeover.eq_1 ..⟩)
  | checkpoint => exact .inr (.inr ⟨rfl, rfl, _, execCheckpoint.eq_1 ..⟩)
  | cuppingCycle _ _ => exact .inr (.inr ⟨rfl, rfl, _, execCuppingCycle.eq_1 ..⟩)
  | rotate _ => exact .inr (.inr ⟨rfl, rfl, _, execRotate.eq_1 ..⟩)
  | stbyReload _ => exact .inr (.inr ⟨rfl, rfl, _, execStbyReload.eq_1 ..⟩)
  | pairReload _ => exact .inr (.inr ⟨rfl, rfl, _, execPairReload.eq_1 ..⟩)
  | reloadSelfTestDone _ _ => exact .inr (.inr ⟨rfl, rfl, _, execReloadSelfTestDone.eq_1 ..⟩)
  | wdogKick _ => exact .inr (.inr ⟨rfl, rfl, _, execWdogKick.eq_1 ..⟩)
  | wdogExpiry => exact .inr (.inr ⟨rfl, rfl, _, execWdogExpiry.eq_1 ..⟩)
  | powerOnReset _ => exact .inl ⟨rfl, _, execPowerOnReset.eq_1 ..⟩
  | coldResetPin _ => exact .inr (.inl ⟨rfl, rfl, _, execColdResetPin.eq_1 ..⟩)
  | warm _ => exact .inr (.inl ⟨rfl, rfl, _, execWarm.eq_1 ..⟩)
  | restart _ => exact .inr (.inl ⟨rfl, rfl, _, execRestart.eq_1 ..⟩)
  | autoRestart => exact .inr (.inl ⟨rfl, rfl, _, execAutoRestart.eq_1 ..⟩)
  | resetEnd => exact .inr (.inl ⟨rfl, rfl, _, execResetEnd.eq_1 ..⟩)
  | stageAdvance _ _ => exact .inr (.inr ⟨rfl, rfl, _, execStageAdvance.eq_1 ..⟩)
  | bootOk _ => exact .inr (.inr ⟨rfl, rfl, _, execBootOk.eq_1 ..⟩)
  | bootConfirmExpiry => exact .inr (.inr ⟨rfl, rfl, _, execBootConfirmExpiry.eq_1 ..⟩)
  | readState _ _ => exact .inr (.inl ⟨rfl, rfl, _, execReadState.eq_1 ..⟩)
  | writeImage _ _ _ _ => exact .inr (.inl ⟨rfl, rfl, _, execWriteImage.eq_1 ..⟩)
  | writeRecord _ _ _ => exact .inr (.inl ⟨rfl, rfl, _, execWriteRecord.eq_1 ..⟩)
  | attest _ _ _ => exact .inr (.inl ⟨rfl, rfl, _, execAttest.eq_1 ..⟩)
  | reboot _ _ _ => exact .inr (.inl ⟨rfl, rfl, _, execReboot.eq_1 ..⟩)
  | blockReset _ _ => exact .inr (.inr ⟨rfl, rfl, _, execBlockReset.eq_1 ..⟩)
  | blockResetEnter => exact .inr (.inr ⟨rfl, rfl, _, execBlockResetEnter.eq_1 ..⟩)
  | blockResetEnd => exact .inr (.inr ⟨rfl, rfl, _, execBlockResetEnd.eq_1 ..⟩)
  | phaseHang _ => exact .inr (.inr ⟨rfl, rfl, _, execPhaseHang.eq_1 ..⟩)
  | gateHang _ => exact .inr (.inr ⟨rfl, rfl, _, execGateHang.eq_1 ..⟩)
  | waitHang _ => exact .inr (.inr ⟨rfl, rfl, _, execWaitHang.eq_1 ..⟩)
  | homeTransactionHang _ _ => exact .inr (.inr ⟨rfl, rfl, _, execHomeTransactionHang.eq_1 ..⟩)
  | linkHang _ => exact .inr (.inr ⟨rfl, rfl, _, execLinkHang.eq_1 ..⟩)
  | hungLinkReenable _ => exact .inr (.inr ⟨rfl, rfl, _, execHungLinkReenable.eq_1 ..⟩)
  | dumpCaptureComplete _ _ => exact .inr (.inr ⟨rfl, rfl, _, execDumpCaptureComplete.eq_1 ..⟩)
  | dumpFree _ => exact .inr (.inr ⟨rfl, rfl, _, execDumpFree.eq_1 ..⟩)
  | tenActivate _ _ => exact .inr (.inr ⟨rfl, rfl, _, execTenActivate.eq_1 ..⟩)
  | tenTeardown _ _ => exact .inr (.inr ⟨rfl, rfl, _, execTenTeardown.eq_1 ..⟩)
  | teardownComplete _ => exact .inr (.inr ⟨rfl, rfl, _, execTeardownComplete.eq_1 ..⟩)
  | tileScrub _ => exact .inr (.inr ⟨rfl, rfl, _, execTileScrub.eq_1 ..⟩)
  | partitionEnable _ => exact .inr (.inr ⟨rfl, rfl, _, execPartitionEnable.eq_1 ..⟩)
  | hello _ _ _ => exact .inr (.inl ⟨rfl, rfl, _, execHello.eq_1 ..⟩)
  | auth _ _ _ _ => exact .inr (.inl ⟨rfl, rfl, _, execAuth.eq_1 ..⟩)
  | sessionCommand _ _ _ => exact .inr (.inl ⟨rfl, rfl, _, execSessionCommand.eq_1 ..⟩)
  | sessionIdleTimeout _ => exact .inr (.inl ⟨rfl, rfl, _, execSessionIdleTimeout.eq_1 ..⟩)
  | installRecord _ _ _ => exact .inr (.inl ⟨rfl, rfl, _, execInstallRecord.eq_1 ..⟩)
  | installMinver _ _ _ => exact .inr (.inl ⟨rfl, rfl, _, execInstallMinver.eq_1 ..⟩)
  | endorsementSigned => exact .inr (.inl ⟨rfl, rfl, _, execEndorsementSigned.eq_1 ..⟩)
  | attestationRequest _ _ _ _ => exact .inr (.inl ⟨rfl, rfl, _, execAttestationRequest.eq_1 ..⟩)
  | measureMark _ _ => exact .inr (.inr ⟨rfl, rfl, _, execMeasureMark.eq_1 ..⟩)
  | measureUnmark _ _ => exact .inr (.inr ⟨rfl, rfl, _, execMeasureUnmark.eq_1 ..⟩)
  | measureAgain _ _ => exact .inr (.inr ⟨rfl, rfl, _, execMeasureAgain.eq_1 ..⟩)
  | measurementDone => exact .inr (.inr ⟨rfl, rfl, _, execMeasurementDone.eq_1 ..⟩)
  | counterOverflow _ _ _ => exact .inr (.inr ⟨rfl, rfl, _, execCounterOverflow.eq_1 ..⟩)
  | counterFreeze => exact .inr (.inr ⟨rfl, rfl, _, execCounterFreeze.eq_1 ..⟩)
  | tpageUpdate _ => exact .inr (.inr ⟨rfl, rfl, _, execTpageUpdate.eq_1 ..⟩)
  | sampleRecord _ _ => exact .inr (.inr ⟨rfl, rfl, _, execSampleRecord.eq_1 ..⟩)
  | railFault _ => exact .inr (.inl ⟨rfl, rfl, _, execRailFault.eq_1 ..⟩)
  | rideThroughExpiry _ => exact .inr (.inl ⟨rfl, rfl, _, execRideThroughExpiry.eq_1 ..⟩)
  | avsbusFrame _ _ _ _ => exact .inr (.inl ⟨rfl, rfl, _, execAvsbusFrame.eq_1 ..⟩)
  | vcoreAdjust _ _ => exact .inr (.inl ⟨rfl, rfl, _, execVcoreAdjust.eq_1 ..⟩)
  | voltageConfirm _ => exact .inr (.inl ⟨rfl, rfl, _, execVoltageConfirm.eq_1 ..⟩)
  | raiseAbandon => exact .inr (.inl ⟨rfl, rfl, _, execRaiseAbandon.eq_1 ..⟩)
  | currentCeiling _ _ _ => exact .inr (.inl ⟨rfl, rfl, _, execCurrentCeiling.eq_1 ..⟩)
  | referenceClockLost _ => exact .inr (.inl ⟨rfl, rfl, _, execReferenceClockLost.eq_1 ..⟩)
  | thermalThreshold _ => exact .inr (.inl ⟨rfl, rfl, _, execThermalThreshold.eq_1 ..⟩)
  | thermalTrip _ => exact .inr (.inl ⟨rfl, rfl, _, execThermalTrip.eq_1 ..⟩)
  | i3cPrivateRead _ _ => exact .inr (.inl ⟨rfl, rfl, _, execI3cPrivateRead.eq_1 ..⟩)
  | dramPosition _ _ _ => exact .inr (.inr ⟨rfl, rfl, _, execDramPosition.eq_1 ..⟩)
  | meshBarBoundary => exact .inr (.inr ⟨rfl, rfl, _, execMeshBarBoundary.eq_1 ..⟩)
  | railReturn _ => exact .inr (.inl ⟨rfl, rfl, _, execRailReturn.eq_1 ..⟩)
  | coldResetRail _ => exact .inr (.inl ⟨rfl, rfl, _, execColdResetRail.eq_1 ..⟩)
  | vaonLoss => exact .inl ⟨rfl, _, execVaonLoss.eq_1 ..⟩
  | thermtripRelease _ => exact .inr (.inl ⟨rfl, rfl, _, execThermtripRelease.eq_1 ..⟩)

end Sys2Proof.Machine
end

