-- ==== Sys2Proof/Laws/Memory.lean ====
section
/-! SUPPORT. Laws of device memory: what a write leaves in every byte, and that every write keeps the canonical form. -/

namespace Sys2Proof

/-! ## Lists in key order -/

theorem SMap.get_append {α : Type} (d : α) (l m : SMap α) (k : Nat) :
    get d (l ++ m) k = if l.any (fun e => e.1 == k) then get d l k else get d m k := by
  induction l with
  | nil => rfl
  | cons e t ih =>
    obtain ⟨j, v⟩ := e
    by_cases h : j = k
    · simp [get, h]
    · have hb : (j == k) = false := by simpa using h
      simp only [List.cons_append, get, h, if_false, ih, List.any_cons, hb, Bool.false_or]

/-- A filter by key leaves the keys it keeps as they were, and the others at the default. -/
theorem SMap.get_filter {α : Type} (d : α) (p : Nat → Bool) (m : SMap α) (k : Nat) :
    get d (m.filter fun e => p e.1) k = if p k = true then get d m k else d := by
  induction m with
  | nil => simp [get]
  | cons e t ih =>
    obtain ⟨j, v⟩ := e
    by_cases h : j = k
    · subst h; cases hp : p j <;> simp_all [get]
    · cases hp : p j <;> simp_all [get]

theorem SMap.wf_filter {α : Type} [DecidableEq α] (d : Nat → α) (p : Nat × α → Bool) (m : SMap α) (h : wf d m = true) :
    wf d (m.filter p) = true := by
  induction m with
  | nil => rfl
  | cons e t ih =>
    obtain ⟨j, v⟩ := e
    simp only [wf, Bool.and_eq_true, decide_eq_true_eq] at h
    have ht := ih h.2
    cases hp : p (j, v)
    · simpa [hp] using ht
    · simp only [List.filter_cons, hp, if_true, wf, Bool.and_eq_true, decide_eq_true_eq]
      refine ⟨⟨h.1.1, ?_⟩, ht⟩
      exact List.all_eq_true.2 fun x hx => List.all_eq_true.1 h.1.2 x (List.mem_filter.1 hx).1

theorem SMap.wf_append {α : Type} [DecidableEq α] (d : Nat → α) (l m : SMap α) (hl : wf d l = true) (hm : wf d m = true)
    (h : ∀ e ∈ l, ∀ f ∈ m, e.1 < f.1) : wf d (l ++ m) = true := by
  induction l with
  | nil => exact hm
  | cons e t ih =>
    obtain ⟨j, v⟩ := e
    simp only [wf, Bool.and_eq_true, decide_eq_true_eq] at hl
    simp only [List.cons_append, wf, Bool.and_eq_true, decide_eq_true_eq, List.all_append]
    refine ⟨⟨hl.1.1, hl.1.2, ?_⟩, ih hl.2 fun e he f hf => h e (List.mem_cons_of_mem _ he) f hf⟩
    exact List.all_eq_true.2 fun f hf => decide_eq_true (h (j, v) List.mem_cons_self f hf)

namespace Machine

/-! ## Writing bytes -/

/-- The cell that a write lists for its byte `i`, none where that byte is zero. -/
def newCell (base : Nat) (bs : List Byte) (i : Nat) : Option Host.Cell :=
  if bs.getD i 0#8 = 0#8 then none else some (base + i, bs.getD i 0#8)

theorem newCell_some {base : Nat} {bs : List Byte} {i : Nat} {c : Host.Cell} :
    newCell base bs i = some c ↔ c.1 = base + i ∧ c.2 = bs.getD i 0#8 ∧ c.2 ≠ 0#8 := by
  unfold newCell
  split
  · rename_i h
    exact ⟨fun x => (nomatch x), fun ⟨_, h2, h3⟩ => absurd (h2.trans h) h3⟩
  · rename_i h
    constructor
    · intro x; cases x; exact ⟨rfl, rfl, h⟩
    · obtain ⟨a, b⟩ := c
      rintro ⟨h1, h2, _⟩
      simp only at h1 h2
      rw [h1, h2]

/-- The cells that a write of `n` bytes lists. -/
def newCells (base : Nat) (bs : List Byte) (n : Nat) : List Host.Cell := (List.range n).filterMap (newCell base bs)

theorem mem_newCells {base : Nat} {bs : List Byte} {n : Nat} {c : Host.Cell} :
    c ∈ newCells base bs n ↔ ∃ i, i < n ∧ c.1 = base + i ∧ c.2 = bs.getD i 0#8 ∧ c.2 ≠ 0#8 := by
  simp only [newCells, List.mem_filterMap, List.mem_range, newCell_some]

theorem newCells_succ (base : Nat) (bs : List Byte) (n : Nat) :
    newCells base bs (n + 1) = newCells base bs n ++ (newCell base bs n).toList := by
  unfold newCells
  rw [List.range_succ, List.filterMap_append]
  cases h : newCell base bs n <;> simp [h]

theorem memWrite_eq (m : List Host.Cell) (base : Nat) (bs : List Byte) :
    memWrite m base bs = (m.filter fun c => decide (c.1 < base)) ++
      (newCells base bs bs.length ++ m.filter fun c => decide (base + bs.length ≤ c.1)) := by
  unfold memWrite
  rw [List.append_assoc]; rfl

theorem wf_newCells (base : Nat) (bs : List Byte) (n : Nat) : SMap.wf (fun _ => 0#8) (newCells base bs n) = true := by
  induction n with
  | zero => rfl
  | succ n ih =>
    rw [newCells_succ]
    refine SMap.wf_append _ _ _ ih ?_ ?_
    · cases h : newCell base bs n with
      | none => rfl
      | some c => simp [SMap.wf, (newCell_some.1 h).2.2]
    · intro e he f hf
      obtain ⟨i, hi, h1, _⟩ := mem_newCells.1 he
      have := newCell_some.1 (Option.mem_toList.1 hf)
      omega

/-- A write keeps the canonical form. -/
theorem wf_memWrite (m : List Host.Cell) (base : Nat) (bs : List Byte) (h : Memory.wf m = true) :
    Memory.wf (memWrite m base bs) = true := by
  unfold Memory.wf at *
  rw [memWrite_eq]
  refine SMap.wf_append _ _ _ (SMap.wf_filter _ _ _ h)
    (SMap.wf_append _ _ _ (wf_newCells base bs _) (SMap.wf_filter _ _ _ h) ?_) ?_
  · intro e he f hf
    obtain ⟨i, hi, h1, _⟩ := mem_newCells.1 he
    have := of_decide_eq_true (List.mem_filter.1 hf).2
    omega
  · intro e he f hf
    have h0 := of_decide_eq_true (List.mem_filter.1 he).2
    rcases List.mem_append.1 hf with hf | hf
    · obtain ⟨i, hi, h1, _⟩ := mem_newCells.1 hf; omega
    · have := of_decide_eq_true (List.mem_filter.1 hf).2; omega

theorem get_of_not_any {l : List Host.Cell} {a : Nat} (h : ¬ l.any (fun e => e.1 == a) = true) : SMap.get 0#8 l a = 0#8 := by
  have := SMap.get_append 0#8 l [] a
  rwa [List.append_nil, if_neg h] at this

theorem get_newCells (base : Nat) (bs : List Byte) (n a : Nat) :
    SMap.get 0#8 (newCells base bs n) a = if base ≤ a ∧ a < base + n then bs.getD (a - base) 0#8 else 0#8 := by
  induction n with
  | zero => rw [if_neg (by omega)]; rfl
  | succ n ih =>
    rw [newCells_succ, SMap.get_append, ih]
    split
    · rename_i hany
      obtain ⟨e, he, hk⟩ := List.any_eq_true.1 hany
      obtain ⟨i, hi, h1, _⟩ := mem_newCells.1 he
      have hk : e.1 = a := by simpa using hk
      rw [if_pos (by omega), if_pos (by omega)]
    · rename_i hany
      have h0 := get_of_not_any hany
      rw [ih] at h0
      by_cases hl : a = base + n
      · subst hl
        rw [if_pos (by omega), Nat.add_sub_cancel_left]
        unfold newCell
        split
        · rename_i hz; rw [hz]; rfl
        · simp [SMap.get]
      · have hn : SMap.get 0#8 (newCell base bs n).toList a = 0#8 := by
          unfold newCell
          split
          · rfl
          · simp [SMap.get, Ne.symm hl]
        rw [hn]
        by_cases hr : base ≤ a ∧ a < base + n
        · rw [if_pos hr] at h0; rw [if_pos (by omega), h0]
        · rw [if_neg (by omega)]

/-- After a write the written bytes read as written, every other byte as before. -/
theorem memByte_memWrite (m : List Host.Cell) (base : Nat) (bs : List Byte) (a : Nat) :
    memByte (memWrite m base bs) a = if base ≤ a ∧ a < base + bs.length then bs.getD (a - base) 0#8 else memByte m a := by
  have hf (p : Nat → Bool) (k : Nat) : SMap.get 0#8 (m.filter fun c => p c.1) k = if p k = true then SMap.get 0#8 m k else 0#8 :=
    SMap.get_filter 0#8 p m k
  unfold memByte
  rw [memWrite_eq, SMap.get_append, SMap.get_append, hf (fun k => decide (k < base)), get_newCells,
    hf (fun k => decide (base + bs.length ≤ k))]
  simp only [decide_eq_true_eq]
  split
  · rename_i hany
    obtain ⟨e, he, hk⟩ := List.any_eq_true.1 hany
    have hlt := of_decide_eq_true (List.mem_filter.1 he).2
    have hk : e.1 = a := by simpa using hk
    rw [if_pos (by omega), if_neg (by omega)]
  · rename_i hlow
    have h1 := get_of_not_any hlow
    rw [hf (fun k => decide (k < base))] at h1
    simp only [decide_eq_true_eq] at h1
    split
    · rename_i hany
      obtain ⟨e, he, hk⟩ := List.any_eq_true.1 hany
      obtain ⟨i, hi, h1, _⟩ := mem_newCells.1 he
      have hk : e.1 = a := by simpa using hk
      rw [if_pos (by omega), if_pos (by omega)]
    · rename_i hmid
      have h2 := get_of_not_any hmid
      rw [get_newCells] at h2
      by_cases hr : base ≤ a ∧ a < base + bs.length
      · rw [if_pos hr] at h2
        rw [if_pos hr, if_neg (by omega), h2]
      · rw [if_neg hr]
        by_cases hb : base + bs.length ≤ a
        · rw [if_pos hb]
        · rw [if_pos (by omega)] at h1; rw [if_neg hb, h1]

/-! ## Lines -/

theorem length_lineBytes (l : Line) : (lineBytes l).length = 128 := by simp [lineBytes]

/-- Storing a line keeps the canonical form. -/
theorem wf_storeLine (s : State) (dpa : Nat) (l : Line) (h : Memory.wf s.mem.dram = true) :
    Memory.wf (s.storeLine dpa l).mem.dram = true := wf_memWrite _ _ _ h

/-- Storing a line changes its 128 bytes and no other byte of device memory. -/
theorem memByte_storeLine (s : State) (dpa : Nat) (l : Line) (a : Nat) :
    memByte (s.storeLine dpa l).mem.dram a =
      if dpa ≤ a ∧ a < dpa + 128 then (lineBytes l).getD (a - dpa) 0#8 else memByte s.mem.dram a := by
  simp only [State.storeLine, memByte_memWrite, length_lineBytes]

/-- The sum that `storedLine` takes over cells of a line. -/
def cellSum (dpa : Nat) (l : List Host.Cell) : Nat := l.foldl (fun acc c => acc + c.2.toNat * 2 ^ (8 * (c.1 - dpa))) 0

theorem cellSum_newCells (dpa : Nat) (l : Line) (n : Nat) (hn : n ≤ 128) :
    cellSum dpa (newCells dpa (lineBytes l) n) = l.toNat % 2 ^ (8 * n) := by
  induction n with
  | zero => simp [newCells, cellSum, Nat.mod_one]
  | succ n ih =>
    have hb : (lineBytes l).getD n 0#8 = lineByte l n := by
      have hl : n < (lineBytes l).length := by rw [length_lineBytes]; omega
      rw [List.getD_eq_getElem?_getD, List.getElem?_eq_getElem hl]
      simp [lineBytes]
    have hv : (lineByte l n).toNat = l.toNat / 2 ^ (8 * n) % 2 ^ 8 := by
      simp [lineByte, BitVec.extractLsb'_toNat, Nat.shiftRight_eq_div_pow]
    have step : cellSum dpa (newCells dpa (lineBytes l) (n + 1)) =
        cellSum dpa (newCells dpa (lineBytes l) n) + (lineByte l n).toNat * 2 ^ (8 * n) := by
      rw [newCells_succ]
      unfold cellSum
      rw [List.foldl_append]
      unfold newCell
      rw [hb]
      split
      · rename_i hz; simp [hz]
      · simp
    rw [step, ih (by omega), hv, Nat.mul_succ, Nat.pow_add, Nat.mod_mul, Nat.mul_comm (2 ^ (8 * n))]

/-- A line reads back as it was stored. -/
theorem storedLine_storeLine (s : State) (dpa : Nat) (l : Line) : (s.storeLine dpa l).storedLine dpa = l := by
  have hfilter : ((s.storeLine dpa l).mem.dram.filter fun c => dpa ≤ c.1 && c.1 < dpa + 128) = newCells dpa (lineBytes l) 128 := by
    simp only [State.storeLine, memWrite_eq, List.filter_append, length_lineBytes]
    have h1 : ((s.mem.dram.filter fun c => decide (c.1 < dpa)).filter fun c => decide (dpa ≤ c.1) && decide (c.1 < dpa + 128)) = [] :=
      List.filter_eq_nil_iff.2 fun c hc => by
        have := of_decide_eq_true (List.mem_filter.1 hc).2
        simp only [Bool.and_eq_true, decide_eq_true_eq]; omega
    have h2 : ((s.mem.dram.filter fun c => decide (dpa + 128 ≤ c.1)).filter
        fun c => decide (dpa ≤ c.1) && decide (c.1 < dpa + 128)) = [] :=
      List.filter_eq_nil_iff.2 fun c hc => by
        have := of_decide_eq_true (List.mem_filter.1 hc).2
        simp only [Bool.and_eq_true, decide_eq_true_eq]; omega
    have h3 : ((newCells dpa (lineBytes l) 128).filter fun c => decide (dpa ≤ c.1) && decide (c.1 < dpa + 128)) =
        newCells dpa (lineBytes l) 128 :=
      List.filter_eq_self.2 fun c hc => by
        obtain ⟨i, hi, h, _⟩ := mem_newCells.1 hc
        simp only [Bool.and_eq_true, decide_eq_true_eq]; omega
    rw [h1, h2, h3]; simp
  have hs := cellSum_newCells dpa l 128 (by omega)
  unfold State.storedLine
  rw [hfilter]
  unfold cellSum at hs
  rw [hs]
  apply BitVec.eq_of_toNat_eq
  rw [BitVec.toNat_ofNat, Nat.mod_mod]
  have h := l.isLt
  simp only [show 8 * 128 = 1024 from rfl]
  exact Nat.mod_eq_of_lt h

/-- Storing a line leaves every line that does not meet it as it was. -/
theorem storedLine_storeLine_ne (s : State) (dpa a : Nat) (l : Line) (h : a + 128 ≤ dpa ∨ dpa + 128 ≤ a) :
    (s.storeLine dpa l).storedLine a = s.storedLine a := by
  have hfilter : ((s.storeLine dpa l).mem.dram.filter fun c => decide (a ≤ c.1) && decide (c.1 < a + 128)) =
      (s.mem.dram.filter fun c => decide (a ≤ c.1) && decide (c.1 < a + 128)) := by
    simp only [State.storeLine, memWrite_eq, List.filter_append, length_lineBytes, List.filter_filter]
    have h3 : ((newCells dpa (lineBytes l) 128).filter fun c => decide (a ≤ c.1) && decide (c.1 < a + 128)) = [] :=
      List.filter_eq_nil_iff.2 fun c hc => by
        obtain ⟨i, hi, h, _⟩ := mem_newCells.1 hc
        simp only [Bool.and_eq_true, decide_eq_true_eq]; omega
    rw [h3, List.nil_append]
    rcases h with h | h
    · have h2 : (s.mem.dram.filter fun c => (decide (a ≤ c.1) && decide (c.1 < a + 128)) && decide (dpa + 128 ≤ c.1)) = [] :=
        List.filter_eq_nil_iff.2 fun c _ => by
          simp only [Bool.and_eq_true, decide_eq_true_eq]; omega
      rw [h2, List.append_nil]
      exact List.filter_congr fun c _ => by
        rw [Bool.eq_iff_iff]; simp only [Bool.and_eq_true, decide_eq_true_eq]; omega
    · have h1 : (s.mem.dram.filter fun c => (decide (a ≤ c.1) && decide (c.1 < a + 128)) && decide (c.1 < dpa)) = [] :=
        List.filter_eq_nil_iff.2 fun c _ => by
          simp only [Bool.and_eq_true, decide_eq_true_eq]; omega
      rw [h1, List.nil_append]
      exact List.filter_congr fun c _ => by
        rw [Bool.eq_iff_iff]; simp only [Bool.and_eq_true, decide_eq_true_eq]; omega
  unfold State.storedLine
  rw [hfilter]

/-- Dropping cells, as zeroing a frame does, keeps the canonical form. -/
theorem wf_memFilter (m : List Host.Cell) (p : Host.Cell → Bool) (h : Memory.wf m = true) : Memory.wf (m.filter p) = true :=
  SMap.wf_filter _ _ _ h

theorem reset_memory_wf : Memory.wf State.reset.mem.dram = true := rfl

end Machine
end Sys2Proof
end

