-- ==== Sys2Proof/Tests/Slice0.lean ====
section
/-! SUPPORT. Small tests: a term that each well-formedness check refuses, worked examples of the spec, one step of some commands; and
for every obligation the witnesses of its clauses: operands and a state that meet all hypotheses of the clause together. -/

open Sys2Proof.Machine

namespace Sys2Proof.Tests

-- one theorem after the other: a kernel evaluation takes memory
set_option Elab.async false

/-- The next state of an outcome. -/
def nx (o : Host.Outcome State Fault Refusal) : State :=
  match o with
  | .next t => t
  | _ => State.reset

/-- A control-space write of the claim in force, with a fresh sequence number. -/
def cm : Cmd := ⟨1, 1, 0⟩

/-- The state after reset, and the same at a beat. -/
def s0 : State := State.reset
def sAt (n : Nat) : State := { State.reset with beat := n }

/-- A packet, a dynamic packet, a home's request, an instance and a placement with every field zero. -/
def pk : Pkt := {
  port := 0, opc := 0, len := 0, host := 0, tag := 0, ccx := 0, lf := 0, poison := false, status := 0, seq := 0, addr := 0,
  snpid := 0, way := 0, binv := false, data := false, loc := false, vsel := false, aop := 0, size := 0, fwdhost := 0,
  fwdtag := 0, set := 0, body := 0 }
def mp : MPkt := {
  dx := 0, dy := 0, sx := 0, sy := 0, vn := false, cls := false, mc := 0, mlo := 0, mhi := 0, len := 0, ce := false,
  cee := false, cc := 0, seq := 0, op := 0, size := 0, addr := 0, job := 0, status := 0, raddr := 0, inl := 0,
  inlPoison := false, flits := [] }
def rq : HomeReq := {
  op := 0, host := 0, tag := 0, seq := 0, ccx := 0, epoch := 0, addr := 0, way := 0, aop := 0, size := 0, vsel := false,
  version := 0, mask := 0, data := 0, poison := false, operands := 0, atts := [], arrive := 0, port := 0, lf := 0,
  rewalk := false, prio := false, tile := none, tenant := 0, drop := false, peerOk := false, job := 0, marked := false }
def ins : Inst := {
  idx := 0, host := 0, tag := 0, seq := 0, port := 0, opid := 0, job := 0, tenant := 0, cform := 0, rpkt := false, cptr := 0,
  desc := [], streams := [], pos := [], accBeat := 0, state := 0, place := none, round := 0, phase := 0, bodyAt := none, ran := none,
  again := false, readErr := false, errRuns := 0, dones := [], done := false, status := 0, stopping := none, recon := [],
  descAt := 0, mute := false, flags := 0, depthRed := false, dyn := false, ndata := 0, poisoned := 0, skipped := 0,
  slips := 0, repeats := 0, endBeat := 0, result := 0, since := 0 }
def plc : Placement := {
  num := 0, opid := 0, digest := 0, image := [], maxstep := 3, strip := 0, height := 1, sites := [], groups := [],
  phases := [], mesh := [], landing := [], ports := [], dram := [], home := [], ready := 0, unloading := false, tenant := none }

/-- DRAM in service: 2 GiB of unprotected lines and 2 GiB in each stronger zone, every channel serving. Its words are written out (an
evaluation that would build them from the fields each time takes long). -/
def sDram : State :=
  { s0 with
    beat := 1000
    mem := { s0.mem with mapFixed := true, up := true }
    regs := (blkDch 0 * 0x100000 + 0x100, 0x6000) :: (blkDch 0 * 0x100000 + 0x400, 0x0004000600080008) ::
      (List.range 31).map fun k => (blkDch (k + 1) * 0x100000 + 0x100, 0x6000) }
theorem sDram_regs : sDram.regs =
    (each (List.range 32) (fun k s => (s.wr (F.dchFenceState k) 0).wr (F.dchFenceEn k) 0)
      ((((s0.wr F.dchMapTop 8).wr F.dchMapZb1 2).wr F.dchMapZb2 4).wr F.dchMapZb3 6)).regs := by decide +kernel

/-- A request that a sample follows, and a line transaction with every field zero. -/
def smp : Track := {
  die := 0, beat0 := 0, host := 0, tag := 0, opc := 0, port := 0, unit := 0, tenant := 0, status := 0, flags := 0, stamps := [] }
def tx : Txn := {
  home := 0, idx := 0, line := 0, dpa := 0, req := rq, stage := .snoop, snoops := [], absent := [], gotDirty := false, fwd := false,
  ownerSnooped := false, grant := none, plan := (0, false), inCache := false, opened := 0, reply := [], done := (0, 0, 0) }

/-- Space 1, offset 0; a region of it, number 7 of 16 pages, in a mode; the leaf of its page, in frame 0x8000, at a place; and its
first line. -/
def p1 : Nat := 2 ^ 54
def rgn7 (mode : Nat) : Nat := 1 + 2 * mode + 128 + 2 ^ 24 + 16 * 2 ^ 96
def leaf1 (place : Nat) : Tlb := ⟨place, 1, 0, 16, 0x80000000 + 7 * 2 ^ 64, none⟩
def line1 : LcLine := ⟨p1, 0x3F800000, false, false⟩

/-- Host 5 on port 3 with a live lease and slot 9, admitted to everything of tenant 0, and region 7, whose first line stands in the
home line cache. -/
def att5 : Attach := attachOf 0 (1 + 5 * 2 + 5 * 2 ^ 13 + 1023 * 2 ^ 35 + 63 * 2 ^ 53 + 0xFFFF * 2 ^ 80)
def sHost (mode : Nat) : State :=
  let s := sDram.wr (F.fportLstatState 3) 3
  { s with
    hosts := { s.hosts with
      adm := [(0, BitVec.ofNat 256 (1 + 5 * 2 + 5 * 2 ^ 13 + 1023 * 2 ^ 35 + 63 * 2 ^ 53 + 0xFFFF * 2 ^ 80))],
      lease := [(5, ⟨1, 3, 990, some 9⟩)], rport := [(5, 3)], slots := [(9, 5)] }
    homes := { s.homes with
      regions := [(7, BitVec.ofNat 320 (rgn7 mode))], tlb := [leaf1 (homeOfPtr p1)], lc := [(0x80000000 / 128, line1)] } }
def noSlot (s : State) : State := s.setLease 5 ⟨1, 3, 990, none⟩
def pk5 : Pkt := { pk with port := 3, host := 5, tag := 77, addr := BitVec.ofNat 64 p1, len := 2 }

/-- A page fault, and a fault record that a request has opened. -/
def pf : PageFault := ⟨63, 1, 0, 0, 0, 7, .inst 3, 1⟩
def fr : FaultRec := ⟨63, 255, 1, 0, 0, 0, 900, 7, 1, [.inst 2], false⟩

/-- Host 6 holds the line in a state, in slot 11; transactions that wait for its answer, or for host 5's acknowledgement. -/
def key6 : Nat := fKey (homeOfPtr p1) 11 0 1
def sHold (st : Nat) : State :=
  let s := (sHost 0).setLease 6 ⟨1, 0, 990, some 11⟩
  { s with hosts := { s.hosts with slots := [(9, 5), (11, 6)] }, homes := { s.homes with filter := [(key6, ⟨st, 0, p1, none⟩)] } }
def txA : Txn := { tx with home := homeOfPtr p1, line := p1, dpa := 0x80000000, req := { rq with op := 1, host := 5, tag := 77, addr := p1 }, stage := .ack }
def txB : Txn := { tx with home := homeOfPtr p1, idx := 2, line := p1, dpa := 0x80000000, req := { rq with op := 0x200, job := 1, addr := p1 }, snoops := [⟨6, 11, 0x10, 900⟩] }
def txC : Txn := { tx with home := homeOfPtr p1, idx := 2, line := p1, dpa := 0x80000000, req := { rq with op := 1, host := 5, addr := p1, epoch := 3 }, plan := (0x21, false), snoops := [⟨6, 11, 0x11, 900⟩] }

/-- Space 1 with its tables in the home line cache, the leaf of page 0 as given and its page record with FCOPY; region 7 is tiered. -/
def lcData (a : Nat) (d : Nat) : Nat × LcLine := (a / 128, ⟨0, BitVec.ofNat 1024 d, false, false⟩)
def rgnT : Nat := rgn7 1 + 128
def sFlash (leaf : Nat) : State :=
  let s := (((sDram.wr F.homeXltBaseSpt 0x20).wr F.homeXltBaseRgt 0x10).wr F.percAreaRecBase 0x40).wr F.percAreaRecLen 1
  { s with homes := { s.homes with
    regions := [(7, BitVec.ofNat 320 rgnT)]
    lc := [lcData 0x200000 ((1 + 0x21 * 2 ^ 16 + 2 ^ 64) * 2 ^ 128), lcData 0x210000 (1 + 0x22 * 2 ^ 16),
      lcData 0x220000 (1 + 0x23 * 2 ^ 16), lcData 0x230000 leaf, lcData 0x400000 (2 ^ 41)] } }
def sWarm : State :=
  let s := (((sFlash (3 + 0x8000 * 2 ^ 16)).wr (F.percWmLowWm (percOf 0)) 1).wr (F.percCtlEn (percOf 0)) 1)
  { s with beat := 2 ^ 30, homes := { s.homes with lc := lcData 0x100180 (2 ^ 0x380) :: s.homes.lc } }
def cold1 : Nat := 1 + 2 + 2 * 4 + 7 * 2 ^ 16
def mv (demote : Bool) (stage : Nat) : FMove := ⟨percOf 0, 7, 1, 0, demote, 0x8001, 7, 900, stage, false, 0, []⟩
def fr0 : FaultRec := ⟨63, 255, 1, 0, 0, 1, 900, 7, 1, [], false⟩
def stg : Staging := ⟨7, 5, [(0, 0x9000)]⟩
def cmt : Commit := ⟨7, 5, 1, 1000, [], { rq with op := 0x30, host := 5, epoch := 3 }, []⟩
def mw : MirWait := ⟨3, { rq with op := 4, host := 5, tag := 77, epoch := 3 }, [{ pk with opc := 0x26, status := 0 }], (0, 0, 0)⟩

/-- Core 3 of tile 671 at cycle 100, with values in its registers. -/
def at3 : CoreAt := ⟨671, 3, 100⟩
def sCore : State := { s0 with tiles := { s0.tiles with
  cores := [(128 * 671 + 3, { CoreSt.reset with
    sregs := [(1, ⟨0xFFFFFFFFFFFFFFF9, false⟩), (2, ⟨0x100, false⟩), (3, ⟨2 ^ 54, true⟩)]
    vregs := [(4, ⟨0x3F800000400000003F0000004080000041200000BF800000FF80000000000001, 0⟩),
      (5, ⟨0x40000000C00000003DCCCCCD7F8000007FC000003F8000014B00000000800000, 0⟩)]
    accs := [(8, ⟨0, 0, false, false, false, 0, true⟩)] })]
  spad := [(671 * 2 ^ 20 + 0x100, 0xAB), (671 * 2 ^ 20 + 0x109, 0x40)] } }
def sDreq : State := { sCore with tiles := { sCore.tiles with
  spad := (List.range 32).filterMap fun i =>
    let b := (0x20 * 2 ^ 65 + 2 ^ 54 * 2 ^ 80) / 2 ^ (8 * i) % 256
    if b = 0 then none else some (671 * 2 ^ 20 + 0x100 + i, BitVec.ofNat 8 b) } }

/-- The core in a phase of kind `k` (0: in the body of a pattern phase), with an operation already under way where given. -/
def insX (k : Nat) : Inst := { ins with state := 1, place := some 0, bodyAt := if k = 0 then some 0 else none }
def plcX (k : Nat) : Placement := { plc with sites := [(671, [3, 4])], phases := [⟨k, 0, 0, 0, 0, 0, 0⟩] }
def sRun (k : Nat) : State := { sCore with disp := { s0.disp with places := [plcX k], insts := [insX k] } }
def sPend (e : List Pend) : State := { sCore with tiles := { sCore.tiles with pend := e } }
def at4 : CoreAt := ⟨671, 4, 100⟩

/-- Forty junction readings, the hottest `t`; a module and a drive as they show themselves. -/
def hot (t : Nat) : BitVec 360 := BitVec.ofNat 360 t
def spd : Spd := ⟨64, true, 12800, true, 120, 50, true⟩
def lnk : DriveLink := ⟨6, 4, true⟩
def drv : DriveInfo := ⟨0x200, true, 1, 128, true, true, 100, 32, 4, 64, true⟩

/-- A tile's request for the line, a message to tile 0, phases, and a placement there with a running instance. -/
def mq : MPkt := { mp with addr := BitVec.ofNat 64 p1, sx := 3, sy := 2, seq := 5, raddr := 0x40 }
def mOne : MPkt := { mp with dx := 0, dy := 0, sx := 3, sy := 2, len := 1, addr := 0x100, inl := 0x1234, flits := [(0xABCD, 0)] }
def phs (k : Nat) : Phase := ⟨k, 1, 4, 0, 0, 0, 0⟩
def plcA (ps : List Phase) : Placement := { plc with sites := [(0, [3])], phases := ps }
def insA : Inst := { ins with state := 1, place := some 0 }
def sPl (p : Placement) (i : Inst) : State := { s0 with disp := { s0.disp with places := [p], insts := [i] } }
def sEnd (p : Placement) (i : Inst) : State := (sPl p i).setCore 3 fun c => { c with ended := true }
def mResult : MPkt := { mp with sx := 0, sy := 0, len := 2, addr := BitVec.ofNat 64 (p1 + 128), flits := [(7, 0), (9, 0)] }
def insR : Inst := { insA with rpkt := true, tag := 77, streams := [⟨p1, 512, true, false, false, 1⟩] }

/-- Spare 34 loading for site 0. -/
def sSpare : State := (s0.wr (F.tileStateState 34) 2).wr (F.tileStateSite 34) 0

/-- An image of one dynamic phase without sites, as lines of a pool: `imgA` is sound, `imgB` has another magic number, `imgS` names a
size below 256; and a state whose pool holds such lines at `p1`. -/
def imgLine0 (size magic : Nat) : Nat :=
  0x120000000080000012000000007000001200000000600000120000000050000012000000004000001200000000300000120000000020000010000000001 *
    2 ^ 512 + 0x80101010301 * 2 ^ 104 + size * 2 ^ 64 + 3 * 2 ^ 32 + magic
def imgA : List Nat := [imgLine0 288 0x33544150,
  0x7c6477ab5c4a7c8ecf31c58c5f396e50b99eb900d2084112d62d4b35f8dbb64950787e442340b1b09c544652eae2f126f54438770d8757cbbf6efc4b938b130a *
    2 ^ 512, 0x41]
def imgB : List Nat := [imgLine0 288 0x33544100,
  0x4faec51996514f669b1bec0d287ba23ff68bc1cc55a725d704a038f078a1e2c838bda4caf8e119c6a32fdfa798bc9083f0e0da0d7e1da7e711d4249735fad3a5 *
    2 ^ 512, 0x41]
def imgS : List Nat := [imgLine0 100 0x33544150, 0, 0x41]
def imgBytes (ls : List Nat) : List Byte := (ls.flatMap (natLe 128)).take 288
def sImg (ls : List Nat) : State :=
  let s := (sHost 1).wr F.dispPatImgPtr p1
  { s with homes := { s.homes with
    tlb := (List.range 3).map fun k => leaf1 (homeOfPtr (p1 + 128 * k))
    lc := ls.zipIdx.map fun e => (0x80000000 / 128 + e.2, ⟨p1 + 128 * e.2, BitVec.ofNat 1024 e.1, false, false⟩) } }
def uImg (ls : List Nat) : State := (((sImg ls).atLoad 0 cm).poolBytes ((sImg ls).rd F.dispPatImgPtr) 256).2
def vImg (ls : List Nat) : State := ((uImg ls).poolBytes ((sImg ls).rd F.dispPatImgPtr) (dN ((imgBytes ls).take 256) 8 4)).2

/-- A state whose unprotected line at the start of frame 0x8000 is held for its fenced channel. -/
def heldLine (s : State) : State :=
  let k := chanOf 0x80000000
  let s := ((s.wr F.dchMapZb1 8).wr (F.dchFenceState k) 2).wr (F.dchFenceCause k) 1
  { s with homes := { s.homes with lc := [] } }

/-- An Invoke of operator 0x100 with one read stream, its descriptor inline or in the line, and states that serve it. -/
def desc1 : Nat := 1 + (p1 + 128 * 2 ^ 64) * 2 ^ 128
def pkI : Pkt := { pk5 with body := BitVec.ofNat 2048 (0x100 + 32 * 2 ^ 48 + desc1 * 2 ^ 256) }
def pkD : Pkt := { pk5 with body := BitVec.ofNat 2048 (0x100 + 2 ^ 35 + 32 * 2 ^ 48 + p1 * 2 ^ 128) }
def sInv : State :=
  let s := (sHost 1).wr F.dispOpsCtlEn 1
  { s with disp := { s.disp with places := [{ plc with opid := 0x100 }] } }
def lineD : LcLine := ⟨p1, BitVec.ofNat 1024 desc1, false, false⟩
def sInvD : State := { sInv with homes := { sInv.homes with lc := [(0x80000000 / 128, lineD)] } }
def ins5 (st : Nat) : Inst := { ins with host := 5, tag := 8, job := 3, state := st }
def sIns (i : Inst) : State := let s := sHost 1; { s with disp := { s.disp with insts := [i] } }

/-- An instance of an operator that a placement on tile 0 can serve, with lines of region 7 in the home line cache. -/
def stm (line len : Nat) (wr gath : Bool) : Strm := ⟨p1 + 128 * line, len, wr, gath, false, 1⟩
def no : Strm := ⟨0, 0, false, false, false, 0⟩
def descOf (l : List (Nat × Nat)) : List Byte := natLe 144 (l.foldl (fun n e => n + e.2 * 2 ^ (8 * e.1)) 0)
def insO (o : Nat) (ss : List Strm) (d : List (Nat × Nat)) (rpkt : Bool) : Inst :=
  { ins with host := 5, tag := 77, port := 3, opid := o, streams := ss, desc := descOf d, rpkt := rpkt }
def plcO (o : Nat) : Placement := { plcA [phs 1] with opid := o }
def lineN (k d : Nat) : LcLine := ⟨p1 + 128 * k, BitVec.ofNat 1024 d, false, false⟩
def sOp (i : Inst) (ls : List Nat) : State :=
  let s := sHost 1
  { s with
    disp := { s.disp with places := [plcO i.opid], insts := [i] }
    homes := { s.homes with tlb := [leaf1 64], lc := ls.zipIdx.map fun e => (0x1000000 + e.2, lineN e.2 e.1) } }
def insG (o : Nat) : Inst := insO 1 [stm 2 256 false true, stm 0 4 false false, no, no, stm 1 128 true false, no]
  [(112, o), (116, 1), (120, 32), (122, 1), (125, 0x30), (128, 128)] true
def insS : Inst := insO 2 [stm 2 256 true true, stm 0 4 false false, stm 1 128 false false, no]
  [(80, 2), (84, 1), (88, 32), (92, 128)] false
def insP : Inst := insO 3 [no, no, stm 0 128 false false, stm 1 256 true false, stm 3 4 true false]
  [(100, 1), (104, 1), (105, 1), (106, 1), (109, 0x22), (110, 2)] true
def insK : Inst := insO 4 [stm 0 256 true false, stm 2 256 true false, stm 4 128 false false, stm 5 128 false false]
  [(80, 1), (84, 1), (86, 1), (88, 0x22), (89, 2), (92, 4), (96, 0x3F800000), (100, 0x40000000)] true

/-- Port 3 ACTIVE on all lanes; its link; and a flit that a peer may send it. -/
def onL (f : Link → Link) (s : State) : State := s.setLink 3 f
def sL : State :=
  onL (fun l => { l with lit := 0xF, rxSlot := 1, credit := [100, 100, 100, 100, 100, 100] })
    ((((({ s0 with beat := 4000000 } : State).wr (F.fportLstatState 3) 3).wr (F.fportLstatTxmask 3) 0xF).wr (F.fportLstatRxmask 3) 0xF).wr (F.fportLctlWmask 3) 0xF)
def sSt (n : Nat) : State := sL.wr (F.fportLstatState 3) n
def peerFlit (ft fseq vc : Nat) (us : List (BitVec 128)) : LaneFlit :=
  ⟨0, [rsEncode ((linkFlit { Link.reset with report := 6 } ft fseq vc 0 us).toNat * 2 ^ 2048)]⟩
def units (us : List (BitVec 128)) : List (BitVec 128) := us ++ List.replicate (15 - us.length) 0
def pkS : Pkt := { pk with port := 3, opc := 0x10, len := 2, host := 5, addr := 0x80 }

/-- A session of a role with the owner's key, its records and frames, in service and in recovery; a firmware image. -/
def who (r : Role) : Cred := ⟨0xAB, r, 3⟩
def ses (w : Option Cred) : Session := ⟨4, 9, 1, 2, 3, 4, 1, 1, 900, 0, w⟩
def cfgR (n : Nat) : CfgRecord := ⟨BitVec.ofNat 32 n, 0xAB, [], [], [1]⟩
def minR (n : Nat) : MinRecord := ⟨BitVec.ofNat 32 n, 0, 0, 0, [1]⟩
def sSes (w : Option Cred) (cfg : Option CfgRecord) : State :=
  { sAt 1000 with sec := { s0.sec with endorsed := true, sessions := [ses w], flash := [⟨[], cfg, none⟩, ⟨[], cfg, none⟩] } }
def sRec (w : Option Cred) (cfg : Option CfgRecord) : State := ((sSes w cfg).wr F.rstCtlStage 3).wr F.rstBootFail 1
def fm : Frame := ⟨7, [2]⟩
def fwImg : List Byte := natLe 64 (0x57463754 + 1 * 2 ^ 32 + 0x07A1 * 2 ^ 48) ++ 1 :: List.replicate 29791 0

/-- Region 7 marked for measurement, with a CHECKSUM placement. -/
def sMeas (mode : Nat) : State :=
  let s := sHost mode
  { s with disp := { s.disp with places := [plcO 7] }, sec := { s.sec with meas := [⟨7, none, 0, 0, 0, 0, 0⟩], measRun := some 7 } }
def sPage : State :=
  let s := sMeas 1
  { s with
    mem := { s.mem with mapFixed := true }
    homes := { s.homes with
      regions := [(7, BitVec.ofNat 320 (rgn7 1 - 15 * 2 ^ 96))]
      tlb := (List.range 64).map leaf1
      lc := (List.range 512).map fun k => (0x1000000 + k, lineN k (k % 3)) } }

/-- PARTITIONED order, and active DRAM plans of BRUSH entries only; the state in which strict partition is judged. -/
def brushes : SMap Word :=
  (List.range 32).flatMap fun k => (List.range 64).map fun j => (blkDch k * 0x100000 + 0xA00 + 8 * j, BitVec.ofNat 64 (3 + 3 * 2 ^ 32))
def sStrict : State :=
  let s := s0.wr F.dchMapOrder 1
  { s with regs := s.regs ++ brushes }
def uStrict : State := sStrict.atHook F.secPartCtlEn.csa (sStrict.compose F.secPartCtlEn.csa [(F.secPartCtlEn, 1)]) cm

/-- A register word as it stands, without the canonical form of the register map. -/
def raw (s : State) (csa : Nat) (v : Word) : State := { s with regs := s.regs ++ [(csa, v)] }

/-- A shadow plan of channel 31 with the REFRESH and BRUSH entries of the default plan, OPEN everywhere else. -/
def sPlan : State :=
  let e (p : Nat) : Nat := let q := p % 64; if q % 2 = 0 then 0 else defaultPlanEntry q
  { sAt 1000 with regs := (List.range 64).map fun j =>
      (blkDch 31 * 0x100000 + 0x800 + 8 * j, BitVec.ofNat 64 (e (2 * j) + e (2 * j + 1) * 2 ^ 32)) }

/-- The leaves that a measurement has got. -/
def isGot {α : Type} : MeasRd α → Bool
  | .got _ => true
  | _ => false
def gotOf {α : Type} : MeasRd (List α) → List α
  | .got a => a
  | _ => []

theorem pair_of {α β : Type} {x : α × β} {a : α} (h : x.1 = a) : x = (a, x.2) := by cases h; rfl

theorem pair_eta {α β : Type} {x : α × β} : (x.1, x.2) = x := rfl

theorem some_getD {α : Type} {o : Option α} {d : α} (h : o.isSome = true) : o = some (o.getD d) := by
  cases o with
  | none => cases h
  | some => rfl

theorem got_of {α : Type} {x : MeasRd (List α)} (h : isGot x = true) : x = .got (gotOf x) := by
  cases x <;> first | rfl | cases h

/-! ## Strict partition: the DRAM plans of `sStrict` hold BRUSH entries only -/

theorem get_same {l m : SMap Word} {d v : Word} {k : Nat} (h : ∀ e ∈ l, e.2 = v) (hk : ∃ e ∈ l, e.1 = k) :
    SMap.get d (l ++ m) k = v := by
  induction l with
  | nil => simp at hk
  | cons a t ih =>
    obtain ⟨j, x⟩ := a
    by_cases hj : j = k
    · simpa [SMap.get, hj] using h (j, x) (by simp)
    · simp only [List.cons_append, SMap.get, hj, if_false]
      refine ih (fun e he => h e (by simp [he])) ?_
      obtain ⟨e, he, hek⟩ := hk
      rcases List.mem_cons.1 he with rfl | he
      · exact absurd hek hj
      · exact ⟨e, he, hek⟩

theorem get_skip {l m : SMap Word} {d : Word} {k : Nat} (h : ∀ e ∈ l, e.1 ≠ k) : SMap.get d (l ++ m) k = SMap.get d m k := by
  induction l with
  | nil => rfl
  | cons a t ih =>
    obtain ⟨j, x⟩ := a
    simp only [List.cons_append, SMap.get, h (j, x) (by simp), if_false]
    exact ih fun e he => h e (by simp [he])

theorem strict_regs : uStrict.regs = (s0.wr F.dchMapOrder 1).regs ++ (brushes ++ uStrict.regs.drop 2049) := by decide +kernel

theorem strict_brush (k i : Nat) (hk : k < 32) (hi : i < 128) : uStrict.planEntry k true i = 3 := by
  have hm : (s0.wr F.dchMapOrder 1).regs.all (fun e => e.1 % 0x100000 < 0xA00) = true := by decide +kernel
  have : uStrict.reg (blkDch k * 0x100000 + 0xA00 + 8 * (i / 2)) = 3 + 3 * 2 ^ 32 := by
    unfold State.reg
    rw [strict_regs, get_skip, get_same (v := BitVec.ofNat 64 (3 + 3 * 2 ^ 32))]
    · rfl
    · simp +contextual [brushes]
    · exact ⟨(blkDch k * 0x100000 + 0xA00 + 8 * (i / 2), BitVec.ofNat 64 (3 + 3 * 2 ^ 32)),
        List.mem_flatMap.2 ⟨k, by simpa using hk, List.mem_map.2 ⟨i / 2, by simp; omega, rfl⟩⟩, rfl⟩
    · intro e he
      have := List.all_eq_true.1 hm e he
      simp only [decide_eq_true_eq] at this
      omega
  unfold State.planEntry
  simp only [if_true, this]
  rcases Nat.mod_two_eq_zero_or_one i with h | h <;> rw [h] <;> decide

theorem strict_holds : uStrict.partFails = none := by
  have hs : ((List.range 8).filter fun g => uStrict.on (F.secPartEn g)) = [] := by decide +kernel
  have h2 : uStrict.partHolds 2 = true := by
    simp only [State.partHolds, hs, List.all_nil, Bool.and_true, List.all_eq_true, List.mem_range]
    intro k hk i hi
    rw [strict_brush k i hk hi]; decide
  have h6 : uStrict.partHolds 6 = true := by
    simp only [State.partHolds, List.all_eq_true, List.mem_range]
    intro t _
    have hg : uStrict.gateOf t < 8 := by
      unfold State.gateOf
      exact Nat.lt_of_lt_of_le (bits_lt _ _ _) (Nat.pow_le_pow_right (by decide : 2 > 0) (by omega : _ ≤ 3))
    have := List.filter_eq_nil_iff.1 hs (uStrict.gateOf t) (by simpa using hg)
    simp [State.strictIn, this]
  have h1 : ([1, 3, 4, 5].all fun c => uStrict.partHolds c) = true := by decide +kernel
  simp only [List.all_cons, List.all_nil, Bool.and_true, Bool.and_eq_true] at h1
  simp [State.partFails, h1, h2, h6]

/-! ## Well-formed commands: a term that each check refuses -/

theorem test_wf_lane_twice : (Instr.flitReceive 3 [⟨0, []⟩, ⟨0, [0]⟩]).wf = false := by decide +kernel
theorem test_wf_class_twice : (Instr.dramPosition 3 1 [⟨0, 5, true⟩, ⟨0, 6, true⟩]).wf = false := by decide +kernel
theorem test_wf_island_twice : (Instr.stageAdvance [4, 4] []).wf = false := by decide +kernel
theorem test_wf_tile_twice : (Instr.stageAdvance [4] [7, 7]).wf = false := by decide +kernel
theorem test_wf_flits : (Instr.rd { mp with len := 1 }).wf = false ∧ (Instr.faddI (.tile { mp with len := 3 })).wf = false := by
  decide +kernel
theorem test_wf_seventeen_flits : (Instr.msg { mp with len := 17, flits := List.replicate 17 (0, 0) }).wf = false := by
  decide +kernel
theorem test_wf_hello_length (body : List Byte) (h : 2 ^ 32 ≤ body.length) : (Instr.hello 4 9 body).wf = false := by
  simp [Instr.wf]; omega
theorem test_wf_frame_length (body : List Byte) (h : 2 ^ 32 ≤ body.length) : (Instr.reboot 4 ⟨7, body⟩ true).wf = false := by
  simp [Instr.wf, Frame.wf]; omega
theorem test_wf_holds : (Instr.flitReceive 3 [⟨0, []⟩, ⟨1, []⟩]).wf = true ∧ (Instr.rd mp).wf = true ∧
    (Instr.stageAdvance [4, 5] [7, 8]).wf = true := by decide +kernel

/-! ## The spec's worked examples -/

/-- 02, "Home slices": the line at pool pointer 0x0540_0002_0000_0380 has home 55, its page's faults go to home 52. -/
theorem test_home : homeOfPtr 0x0540000200000380 = 55 ∧ faultHome 0x15 0x000200000000 = 52 ∧ homeOf 0x15 0x000200000000 = 20 := by
  decide +kernel

/-- 05, "Address mapping": DPA 0x0012_3456_7B80 is on channel 16, subchannel 1, at line 0x91A2B3. -/
theorem test_place : placeOf 0x001234567B80 = (16, 1, 0x91A2B3) := by decide +kernel

/-- 05, Table DRM-6: position 0 is PATTERN, read, LEND 1; 1 BRUSH; 3 OPEN; 7 and 15 REFRESH of bank sets 7 and 0. -/
theorem test_default_plan : (planKind (defaultPlanEntry 0), planLend (defaultPlanEntry 0), planKind (defaultPlanEntry 1),
    planKind (defaultPlanEntry 3), planKind (defaultPlanEntry 7), planSet (defaultPlanEntry 7), planSet (defaultPlanEntry 15)) =
    (1, true, 3, 0, 2, 7, 0) := by decide +kernel

/-- 14, "Line codes": λ(0, 0) = 2, λ(1, 0) = 3, λ(0, 1) = 6, λ(1, 1) = 7; parity bytes 4 and 4. -/
theorem test_parity : (lambda 2 0 0, lambda 2 1 0, lambda 2 0 1, lambda 2 1 1) = (2, 3, 6, 7) ∧
    parityOf 2 0 (1 :: 1 :: List.replicate 14 0) = 4 ∧ parityOf 2 1 (1 :: 1 :: List.replicate 14 0) = 4 := by decide +kernel

/-- 07: TILE[297] lies in group 7, whose spares are TILE[300] at 3 hops and TILE[301] at 4; a fault of it is adopted by 300. -/
theorem test_spares : spareGroup 297 = 7 ∧ isSparePos 300 = true ∧ isSparePos 301 = true ∧ hops 300 297 = 3 ∧ hops 301 297 = 4 := by
  decide +kernel

/-- 09, "Number formats": FP32 20.0 and 23.0 in one MXFP4 block: scale 0x81, elements 0b0110 and 0b0111, decoded as 2 · 2^3 = 16 and 3 · 2^3 = 24. -/
theorem test_mxfp4 : (mxEncode 7 (fun _ => .rne) ([0x41A00000, 0x41B80000] ++ List.replicate 30 0)).1 = 0x81 ∧
    (mxEncode 7 (fun _ => .rne) ([0x41A00000, 0x41B80000] ++ List.replicate 30 0)).2.1.take 2 = [6, 7] ∧
    mxValue 7 6 0x81 = .fin false 2 3 ∧ mxValue 7 7 0x81 = .fin false 3 3 := by decide +kernel

/-- 09, "Exact accumulators": 448 · 448, 2^-9 · 2^-9 and −448 · 448 with Q = −18 leave 2^-18 and CNT 3, in any order. -/
def accTerms (l : List (Nat × Nat)) : AccLane :=
  l.foldl (fun a x => let p := mulFV (decodeF 3 x.1) (decodeF 3 x.2); (a.term p.1 p.2).1) { acc0 with q := -18 }
theorem test_accumulator : ((accTerms [(0x7E, 0x7E), (1, 1), (0xFE, 0x7E)]).toF32 .rne false).1 = 0x36800000 ∧
    ((accTerms [(1, 1), (0x7E, 0x7E), (0xFE, 0x7E)]).toF32 .rne false).1 = 0x36800000 ∧
    (accTerms [(0x7E, 0x7E), (1, 1), (0xFE, 0x7E)]).cnt = 3 := by decide +kernel

/-- The same terms as FP32 sums: b is lost in (a + b) + c. -/
theorem test_fp32_sums : f32Add (f32Add 0x48440000 0x36800000) 0xC8440000 = 0 ∧
    f32Add (f32Add 0x48440000 0xC8440000) 0x36800000 = 0x36800000 := by decide +kernel

/-- CRC-64/ECMA-182 of "123456789"; SHAKE256 of the empty string begins 46 B9 DD 2B. -/
theorem test_crc : crc64 (ascii "123456789") = 0x6C40DF5F0B497347 := by decide +kernel
theorem test_shake : (shake256 []).toNat % 2 ^ 32 = 0x2BDDB946 := by decide +kernel

/-- 15, "Leases": a lease renewed in beat 100,000 expires in beat 162,500, not before. -/
def sLease (b : Nat) : State := (({ sHost 0 with beat := b } : State)).setLease 5 ⟨1, 3, 100000, some 9⟩
theorem test_lease : (nx (exec (.leaseExpiry 5) (sLease 162499))).leased 5 = true ∧
    (nx (exec (.leaseExpiry 5) (sLease 162500))).leased 5 = false := by decide +kernel

/-! ## One step of a command -/

/-- The queue is first in, first out: the front command performs, the rest waits. -/
theorem test_queue : (nx (step { s0 with pending := [.sessionIdleTimeout 4, .endorsementSigned] })).pending = [.endorsementSigned] := by
  decide +kernel

/-- An empty queue is one beat. -/
theorem test_beat : (nx (step s0)).beat = 1 := by decide +kernel

/-- R435: a write of an old claim changes nothing but is recorded. -/
theorem test_old_claim : (nx (exec (.configWrite (BitVec.ofNat 32 (F.homeCohCtlEonread).csa) 1 ⟨0, 1, 0⟩) s0)).on F.homeCohCtlEonread = false ∧
    (nx (exec (.configWrite (BitVec.ofNat 32 (F.homeCohCtlEonread).csa) 1 cm) s0)).on F.homeCohCtlEonread = true := by decide +kernel

/-- R250: 2^64 − 7 + 256 wraps to 249. -/
theorem test_add : (nx (exec (.add at3 7 1 2) sCore)).tiles.pend.map (·.eff) = [.sreg 7 249 false] := by decide +kernel

/-- R99, R104: a fetch-and-add on the line's first 64-bit word. -/
theorem test_fadd : ((nx (exec (.faddI (.host { pk5 with size := 3, body := 5, aop := 1 })) (noSlot (sHost 1)))).lcGet 0x80000000).map (·.data)
    = some 0x3F800005 := by decide +kernel

/-- R201: a message puts its inline bytes at ADDR, then the flits. -/
theorem test_msg : (nx (exec (.msg mOne) s0)).spadByte 0 0x101 = 0x12 ∧ (nx (exec (.msg mOne) s0)).spadByte 0 0x120 = 0xCD := by
  decide +kernel

/-- R302: FILL puts its pattern in every element of the stream. -/
theorem test_fill : ((nx (exec .fill (sOp (insO 6 [stm 0 128 true false] [(32, 1), (40, 0x5A)] false) [7]))).lcGet 0x80000000).map
    (fun l => l.data.toNat % 2 ^ 16) = some 0x5A5A := by decide +kernel

/-- R336: losing lane 0 of four leaves three. -/
theorem test_lane_loss : (nx (exec (.laneLoss 3 1 false) sL)).rd (F.fportLstatRxmask 3) = 0xE := by decide +kernel

/-- R467: a FREE tenant becomes ACTIVE. -/
theorem test_tenant : (nx (exec (.tenActivate 3 cm) s0)).tenState 3 = 1 := by decide +kernel

/-! ## Witnesses: one conjunct for each clause with hypotheses of the obligation of that name -/

theorem witness_EmptyQueueIsOneBeat :
    (∃ (s : State), (s.pending = [] ∧ s.rst.porHeld = true)) ∧
    (∃ (s : State), (s.pending = [] ∧ s.rst.porHeld = false)) ∧
    (∃ (s : State), (s.pending = [] ∧ s.rst.porHeld = false ∧ ((s.on F.beatTelCtlFrozen = true ∨ s.halted = true ∨ ∀ e ∈ s.regs, 0xF80 ≤ e.1 % 0x100000 → e.1 % 0x100000 < 0x1000 → tst e.2.toNat 10 = false)))) :=
  ⟨⟨{ s0 with rst := { s0.rst with porHeld := true } }, by decide +kernel⟩,
    ⟨sAt (2 ^ 64 - 1), by decide +kernel⟩,
    ⟨sAt 7, by decide +kernel⟩⟩

theorem witness_BeatCounterInvariant :
    ∃ (s : State) (t : State), step s = .next t ∧
      BeatInv s :=
  ⟨sAt (2 ^ 64 - 1), s0, rfl, by decide +kernel⟩

theorem witness_FatalHaltHoldsOff :
    ∃ (c : Instr) (s : State), (s.halted = true ∧ servedInHalt c = false) :=
  ⟨.fstepBegin, s0.wr F.rstCtlHalted 1, by decide +kernel⟩

theorem witness_PowerOnResetHoldsOff :
    ∃ (c : Instr) (s : State), (s.rst.porHeld = true ∧ ofSupply c = false) :=
  ⟨.fstepBegin, { s0 with rst := { s0.rst with porHeld := true } }, by decide +kernel⟩

theorem witness_BeatReplicasFollowTheMaster :
    (∃ (s : State) (count : Word), (Running s ∧ count.toNat % 256 ≠ s.beat % 256)) ∧
    (∃ (s : State) (count : Word), (Running s ∧ BeatInv s ∧ count.toNat % 256 = s.beat % 256)) ∧
    (∃ (s : State) (island : Fin 100) (tree : Fin 2), (Running s ∧ SMap.get 0 s.beatNet.trees island.val ||| 2 ^ tree.val ≠ 3)) ∧
    (∃ (s : State) (island : Fin 100) (tree : Fin 2), (Running s ∧ SMap.get 0 s.beatNet.trees island.val ||| 2 ^ tree.val = 3)) :=
  ⟨⟨sAt 255, 256, by decide +kernel⟩,
    ⟨sAt 255, 511, by decide +kernel⟩,
    ⟨s0, 99, 1, by decide +kernel⟩,
    ⟨{ s0 with beatNet := ⟨[], [(99, 1)]⟩ }, 99, 1, by decide +kernel⟩⟩

theorem witness_StepTargetArmsAChange :
    ∃ (s : State) (c : Cmd), (s.rst.porHeld = false ∧ Accepts s 861 c ∧ s.beat + 66 < 2 ^ 64) :=
  ⟨sAt 100, cm, by decide +kernel⟩

theorem witness_StepChangeHaltsAndResumes :
    (∃ (s : State), (Running s ∧ s.on F.pwrFstepCtlPending = true ∧ s.rd F.pwrFstepAtBeat ≤ s.beat ∧ s.pwr.halt = none ∧ s.aboveCeil (s.rd F.pwrFstepCtlTarget) = false ∧ ((s.rd F.pwrFstepCtlCur ≤ s.rd F.pwrFstepCtlTarget ∨ ∃ b, s.pwr.confirmed = some b ∧ b ≤ s.beat)))) ∧
    (∃ (s : State), (Running s ∧ s.on F.pwrFstepCtlThermal = true ∧ s.rd F.pwrFstepCtlCur < s.rd F.pwrFstepCtlCeil ∧ s.pwr.halt = none)) ∧
    (∃ (s : State) (st : Nat) (b : Nat), (Running s ∧ s.pwr.halt = some (st, b) ∧ st < 4 ∧ b ≤ s.beat)) :=
  ⟨⟨((sAt 100).wr F.pwrFstepCtlPending 1).wr F.pwrFstepCtlTarget 3, by decide +kernel⟩,
    ⟨(((sAt 100).wr F.pwrFstepCtlThermal 1).wr F.pwrFstepCtlCeil 2).wr F.pwrFstepCtlCur 1, by decide +kernel⟩,
    ⟨{ sAt 164 with pwr := { s0.pwr with halt := some (3, 164) } }, 3, 164, by decide +kernel⟩⟩

theorem witness_ThermalAndCurrentLimits :
    (∃ (s : State) (temps : BitVec 360), (s.rst.porHeld = false ∧ 102 ≤ hottest temps ∧ s.pwr.thermCeil.map (·.1) ≠ some 3 ∧ ((∀ x ∈ s.pwr.currCeil, x.1 < 4)))) ∧
    (∃ (s : State) (temps : BitVec 360), (s.rst.porHeld = false ∧ 97 ≤ hottest temps ∧ hottest temps < 102 ∧ s.pwr.thermCeil = none)) ∧
    (∃ (s : State) (temps : BitVec 360) (st : Nat) (b : Nat), (s.rst.porHeld = false ∧ 97 ≤ hottest temps ∧ hottest temps < 102 ∧ s.pwr.thermCeil = some (st, b) ∧ st < 3 ∧ b + 312500 ≤ s.beat)) ∧
    (∃ (s : State) (temps : BitVec 360), (s.rst.porHeld = false ∧ hottest temps < 97)) ∧
    (∃ (s : State) (b : Nat), (s.rst.porHeld = false ∧ s.pwr.coolSince = some b ∧ b + 31250 ≤ s.beat ∧ s.pwr.thermCeil.isSome = true ∧ ((∀ x ∈ s.pwr.currCeil, x.1 < 4)))) ∧
    (∃ (s : State) (temps : BitVec 360), (s.rst.porHeld = false ∧ 110 ≤ hottest temps)) ∧
    (∃ (s : State) (temps : BitVec 360), (s.rst.porHeld = false ∧ hottest temps < 90)) ∧
    (∃ (s : State) (m1 : BitVec 12) (mu : BitVec 12), (s.rst.porHeld = false ∧ ((1900 < m1.toNat ∨ 2300 < mu.toNat)) ∧ s.pwr.currCeil = none)) ∧
    (∃ (s : State) (m1 : BitVec 12) (mu : BitVec 12) (st : Nat) (b : Nat), (s.rst.porHeld = false ∧ ((1900 < m1.toNat ∨ 2300 < mu.toNat)) ∧ s.pwr.currCeil = some (st, b) ∧ st < 3 ∧ b + 312500 ≤ s.beat)) ∧
    (∃ (s : State) (m1 : BitVec 12) (mu : BitVec 12) (m10 : BitVec 12), (s.rst.porHeld = false ∧ m1.toNat ≤ 1900 ∧ mu.toNat ≤ 2300 ∧ m10.toNat < 1700 ∧ s.pwr.currCeil.isSome = true ∧ ((∀ x ∈ s.pwr.thermCeil, x.1 < 4)))) :=
  ⟨⟨sAt 7, hot 102, by decide +kernel⟩,
    ⟨sAt 7, hot 101, by decide +kernel⟩,
    ⟨{ sAt 312500 with pwr := { s0.pwr with thermCeil := some (2, 0) } }, hot 97, 2, 0, by decide +kernel⟩,
    ⟨sAt 7, hot 96, by decide +kernel⟩,
    ⟨{ sAt 31250 with pwr := { s0.pwr with coolSince := some 0, thermCeil := some (3, 0) } }, 0, by decide +kernel⟩,
    ⟨sAt 7, hot 110, by decide +kernel⟩,
    ⟨sAt 7, hot 89, by decide +kernel⟩,
    ⟨sAt 7, 1901, 0, by decide +kernel⟩,
    ⟨{ sAt 312500 with pwr := { s0.pwr with currCeil := some (2, 0) } }, 1901, 0, 2, 0, by decide +kernel⟩,
    ⟨{ sAt 9 with pwr := { s0.pwr with currCeil := some (2, 0) } }, 1900, 2300, 1699, by decide +kernel⟩⟩

theorem witness_RailsAndCoreVoltage_part1 :
    (∃ (s : State) (rail : Fin 6), (s.rst.porHeld = false ∧ rail ≠ 0 ∧ ((∀ x ∈ s.pwr.railsOut, x.1 ≠ rail.val)))) ∧
    (∃ (s : State), (s.rst.porHeld = false ∧ ((∀ x ∈ s.pwr.railsOut, x.1 ≠ 0)) ∧ s.pwr.raiseAt = none)) ∧
    (∃ (s : State) (b : Nat), (s.rst.porHeld = false ∧ ((∀ x ∈ s.pwr.railsOut, x.1 ≠ 0)) ∧ s.pwr.raiseAt = some b ∧ s.pwr.confirmed = none)) ∧
    (∃ (s : State) (rail : Fin 6) (b : Nat), (s.rst.porHeld = false ∧ (rail.val, b) ∈ s.pwr.railsOut)) ∧
    (∃ (s : State) (rail : Fin 6) (b : Nat), (s.rst.porHeld = false ∧ (rail.val, b) ∈ s.pwr.railsOut ∧ b + rideBeats rail.val < s.beat)) :=
  ⟨⟨sAt 7, 5, by decide +kernel⟩,
    ⟨sAt 7, by decide +kernel⟩,
    ⟨{ sAt 7 with pwr := { s0.pwr with raiseAt := some 5 } }, 5, by decide +kernel⟩,
    ⟨{ sAt 9 with pwr := { s0.pwr with railsOut := [(5, 7)] } }, 5, 7, by decide +kernel⟩,
    ⟨{ sAt 99999 with pwr := { s0.pwr with railsOut := [(5, 7)] } }, 5, 7, by decide +kernel⟩⟩

theorem witness_RailsAndCoreVoltage_part2 :
    (∃ (s : State), s.rst.porHeld = false) ∧
    (∃ (s : State), (s.rst.porHeld = false ∧ 2 ≤ s.pwr.avsMiss)) ∧
    (∃ (s : State), (s.rst.porHeld = false ∧ ((∀ b ∈ s.pwr.lastAdjust, b + 31250 ≤ s.beat)) ∧ s.rd F.pwrFstepCtlCur < s.pwr.vstep.length)) ∧
    (∃ (s : State) (mv : BitVec 16), (s.rst.porHeld = false ∧ s.pwr.raiseAt.isSome = true ∧ s.pwr.confirmed = none ∧ 985 * s.pwr.vcmd ≤ 1000 * mv.toNat ∧ 1000 * mv.toNat ≤ 1015 * s.pwr.vcmd)) ∧
    (∃ (s : State) (b : Nat), (s.rst.porHeld = false ∧ s.pwr.raiseAt = some b ∧ s.pwr.confirmed = none ∧ b + 3125 ≤ s.beat)) ∧
    (∃ (s : State), s.rst.porHeld = false) :=
  ⟨⟨sAt 7, by decide +kernel⟩,
    ⟨{ sAt 7 with pwr := { s0.pwr with avsMiss := 2 } }, by decide +kernel⟩,
    ⟨{ sAt 31250 with pwr := { s0.pwr with lastAdjust := some 0 } }, by decide +kernel⟩,
    ⟨{ sAt 7 with pwr := { s0.pwr with raiseAt := some 5 } }, 750, by decide +kernel⟩,
    ⟨{ sAt 3130 with pwr := { s0.pwr with raiseAt := some 5 } }, 5, by decide +kernel⟩,
    ⟨sAt 7, by decide +kernel⟩⟩

theorem witness_I3cReadsChangeNothing :
    ∃ (s : State), s.rst.porHeld = false :=
  ⟨sAt 7, by decide +kernel⟩

theorem witness_ControlWritesAreJudged :
    (∃ (s : State) (csa : BitVec 32) (c : Cmd) (r : RegDesc), s.hookOf csa.toNat c.writer.toNat = noHook ∧
      (csa.toNat % 8 = 0 ∧ csa.toNat / 0x100000 < 863 ∧ csa.toNat / 0x100000 ≠ 860 ∧ ((csa.toNat % 0x100000 < 0xE00 ∨ 0xE30 ≤ csa.toNat % 0x100000)) ∧ Running s ∧ NothingResumes s ∧ csa.toNat ≠ F.homeRgnCmdGo.csa ∧ Accepts s (csa.toNat / 0x100000) c) ∧
      findReg (blkOfWindow (csa.toNat / 0x100000)).1 (blkOfWindow (csa.toNat / 0x100000)).2 (csa.toNat % 0x100000) = some r) ∧
    (∃ (s : State) (w : Nat) (csa : BitVec 32) (c : Cmd), (w < 863 ∧ csa.toNat = w * 0x100000 + 0xE18 ∧ Running s ∧ NothingResumes s ∧ Accepts s w c)) ∧
    (∃ (s : State) (csa : BitVec 32) (c : Cmd), (csa.toNat % 8 = 0 ∧ csa.toNat / 0x100000 < 863 ∧ Running s ∧ NothingResumes s ∧ s.frozenWriter c = false ∧ s.on (F.hdrStateInreset (csa.toNat / 0x100000)) = false ∧ s.rd (F.hdrSeqSeq (csa.toNat / 0x100000)) < c.seq.toNat ∧ c.claim.toNat ≠ s.rd F.cpTrioClaim)) ∧
    (∃ (s : State) (csa : BitVec 32) (c : Cmd), (csa.toNat % 8 = 0 ∧ csa.toNat / 0x100000 < 863 ∧ Running s ∧ NothingResumes s ∧ s.on (F.hdrStateInreset (csa.toNat / 0x100000)) = false ∧ c.seq.toNat ≤ s.rd (F.hdrSeqSeq (csa.toNat / 0x100000)))) ∧
    (∃ (s : State) (c : Cmd), (Running s ∧ NothingResumes s ∧ s.frozenWriter c = true)) :=
  ⟨⟨s0, 0x2A000280, cm, ((findReg (blkOfWindow 672).1 (blkOfWindow 672).2 0x280).get (by decide)), rfl, by decide +kernel, by decide +kernel⟩,
    ⟨s0, 862, 0x35E00E18, cm, by decide +kernel⟩,
    ⟨(s0), 0x2A000010, (⟨0, 1, 0⟩ : Cmd), by decide +kernel⟩,
    ⟨(s0), 0x2A000010, (⟨1, 0, 0⟩ : Cmd), by decide +kernel⟩,
    ⟨s0.wr F.cpTrioRole1 4, cm, by decide +kernel⟩⟩

theorem witness_AccessErrorsChangeNothing :
    (∃ (s : State) (csa : BitVec 32), (s.rst.porHeld = false ∧ ((csa.toNat % 8 ≠ 0 ∨ 863 ≤ csa.toNat / 0x100000)))) ∧
    (∃ (s : State) (csa : BitVec 32) (c : Cmd), (Running s ∧ NothingResumes s ∧ s.frozenWriter c = false ∧ ((csa.toNat % 8 ≠ 0 ∨ 863 ≤ csa.toNat / 0x100000)))) :=
  ⟨⟨s0, 0x35F00000, by decide +kernel⟩,
    ⟨s0, 0x30000004, cm, by decide +kernel⟩⟩

theorem witness_EventsResolveInOrder :
    ∃ (s : State), s.rst.porHeld = false :=
  ⟨{ sAt 10 with events := [⟨8, 9, 860, some 63⟩, ⟨7, 2, 860, none⟩, ⟨9, 1, 861, some 16⟩] }, by decide +kernel⟩

theorem witness_CountersWrapAndFreeze :
    (∃ (s : State) (blk : Fin 863) (m : Fin 16) (n : BitVec 48), (Running s ∧ s.rd (F.cntCtlEn blk.val m.val) = 1 ∧ s.rd (F.cntCtlMode blk.val m.val) ≠ 2 ∧ s.on F.beatTelCtlFrozen = false ∧ 2 ^ 48 ≤ s.rd (F.cntCount blk.val m.val) + n.toNat)) ∧
    (∃ (s : State), (Running s ∧ s.on F.beatTelCtlFrz = true ∧ s.rd F.beatFrzAtBeat ≤ s.beat)) :=
  ⟨⟨((s0.wr (F.cntCtlEn 862 15) 1).wr (F.cntCtlOvie 862 15) 1).wr (F.cntCount 862 15) (2 ^ 48 - 1), 862, 15, 1, by decide +kernel⟩,
    ⟨s0.wr F.beatTelCtlFrz 1, by decide +kernel⟩⟩

theorem witness_SamplesAndCounterPages :
    (∃ (s : State) (d : Fin 2) (r : SampleEnd) (x : Track) (k : Nat), (Running s ∧ s.hosts.tagged.find? (fun x => x.host == r.host.toNat && x.tag == r.tag.toNat) = some x ∧ k = (if tst x.flags 5 = true then d.val else s.rport r.host.toNat / 32) ∧ s.on (F.beatSmpBaseEn k) = true ∧ 0 < s.rd (F.beatSmpBaseLen k) ∧ (s.rd (F.beatSmpPtrHead k) + 1) % (s.rd (F.beatSmpBaseLen k) * 1024) ≠ s.rd (F.beatSmpPtrTail k))) ∧
    (∃ (s : State) (d : Fin 2) (r : SampleEnd) (x : Track) (k : Nat), (Running s ∧ s.hosts.tagged.find? (fun x => x.host == r.host.toNat && x.tag == r.tag.toNat) = some x ∧ k = (if tst x.flags 5 = true then d.val else s.rport r.host.toNat / 32) ∧ ((s.on (F.beatSmpBaseEn k) = false ∨ (s.rd (F.beatSmpPtrHead k) + 1) % (s.rd (F.beatSmpBaseLen k) * 1024) = s.rd (F.beatSmpPtrTail k))))) ∧
    (∃ (s : State) (tenant : BitVec 8) (g : Rgn), (Running s ∧ s.on (F.homeTpageEn tenant.toNat) = true ∧ s.rgn? (s.rd (F.homeTpageRegion tenant.toNat)) = some g ∧ SMap.get 0 s.tpageAt tenant.toNat + s.rd F.homeTpageCtlPeriod * 31250 ≤ s.beat)) :=
  ⟨⟨{ ((s0.wr (F.beatSmpBaseEn 1) 1).wr (F.beatSmpBaseLen 1) 1).wr (F.beatSmpPtrHead 1) 5 with hosts := { s0.hosts with tagged := [{ smp with host := 5, tag := 6, flags := 32 }] } }, 1, (⟨5, 6, 7⟩ : SampleEnd), { smp with host := 5, tag := 6, flags := 32 }, 1, by decide +kernel⟩,
    ⟨{ ((s0.wr (F.beatSmpBaseEn 1) 0).wr (F.beatSmpBaseLen 1) 1).wr (F.beatSmpPtrTail 1) 1 with hosts := { s0.hosts with tagged := [{ smp with host := 5, tag := 6, flags := 32 }] } }, 1, (⟨5, 6, 7⟩ : SampleEnd), { smp with host := 5, tag := 6, flags := 32 }, 1, by decide +kernel⟩,
    ⟨{ (s0.wr (F.homeTpageEn 255) 1).wr (F.homeTpageRegion 255) 7 with homes := { s0.homes with regions := [(7, 0)] }, beat := 2 ^ 33 }, 255, rgnOf 7 0, by decide +kernel⟩⟩

theorem witness_FencingLifecycle :
    (∃ (s : State) (k : Fin 32) (c : Cmd), (Running s ∧ Accepts s (736 + k.val) c ∧ s.rd (F.dchFenceEn k.val) = 0 ∧ s.rd (F.dchFenceState k.val) = 0)) ∧
    (∃ (s : State) (k : Fin 32) (c : Cmd), (Running s ∧ Accepts s (736 + k.val) c ∧ s.rd (F.dchFenceEn k.val) = 1 ∧ s.rd (F.dchFenceState k.val) = 5)) ∧
    (∃ (s : State) (k : Fin 32) (c : Cmd), (Running s ∧ Accepts s (736 + k.val) c ∧ s.rd (F.dchFenceEn k.val) = 1 ∧ s.rd (F.dchFenceState k.val) ≠ 5)) ∧
    (∃ (s : State) (k : Fin 32) (c : Cmd), (Running s ∧ Accepts s (736 + k.val) c ∧ s.rd (F.dchFencePwrOff k.val) = 0 ∧ NoneHeld s k.val ∧ NothingResumes s ∧ ((s.rd (F.dchFenceState k.val) = 2 ∨ s.rd (F.dchFenceState k.val) = 3)))) ∧
    (∃ (s : State) (k : Fin 32) (c : Cmd), (Running s ∧ Accepts s (736 + k.val) c ∧ s.rd (F.dchFencePwrOff k.val) = 1 ∧ s.rd (F.dchFenceState k.val) = 3)) ∧
    (∃ (s : State) (k : Fin 32), (Running s ∧ ((s.rd (F.dchFenceState k.val) = 0 ∨ s.rd (F.dchFenceState k.val) = 6)))) ∧
    (∃ (s : State) (k : Fin 32), (Running s ∧ s.rd (F.dchFenceState k.val) = 1)) ∧
    (∃ (s : State) (k : Fin 32), (Running s ∧ s.rd (F.dchFenceState k.val) = 6 ∧ NoneHeld s k.val ∧ NothingResumes s)) :=
  ⟨⟨sDram, 31, cm, by decide +kernel⟩,
    ⟨(sDram.wr (F.dchFenceState 31) 5).wr (F.dchFenceEn 31) 1, 31, cm, by decide +kernel⟩,
    ⟨(sDram.wr (F.dchFenceState 31) 3).wr (F.dchFenceEn 31) 1, 31, cm, by decide +kernel⟩,
    ⟨sDram.wr (F.dchFenceState 31) 2, 31, cm, by decide +kernel⟩,
    ⟨(sDram.wr (F.dchFenceState 31) 3).wr (F.dchFencePwrOff 31) 1, 31, cm, by decide +kernel⟩,
    ⟨sDram, 31, by decide +kernel⟩,
    ⟨(sDram.wr (F.dchFenceState 31) 1).wr (F.dchFenceCause 31) 5, 31, by decide +kernel⟩,
    ⟨(sDram.wr (F.dchFenceState 31) 6).wr (F.dchFenceCause 31) 5, 31, by decide +kernel⟩⟩

theorem witness_TrainingLifecycle :
    (∃ (s : State) (c : Cmd), (Running s ∧ Accepts s 860 c)) ∧
    (∃ (s : State) (k : Fin 32), (Running s ∧ s.rd (F.dchFenceState k.val) = 4 ∧ s.rd (F.dchFenceCause k.val) ≠ 5)) ∧
    (∃ (s : State), (Running s ∧ s.mem.up = false ∧ s.mem.mapFixed = true ∧ 16 + 4 * s.maxP ≤ (findAll 32 fun k => s.rd (F.dchFenceState k) == 5).length)) ∧
    (∃ (s : State) (k : Fin 32) (c : Cmd), (Running s ∧ Accepts s (736 + k.val) c ∧ s.rd (F.dchFenceState k.val) = 0)) ∧
    (∃ (s : State) (k : Fin 32) (c : Cmd), (Running s ∧ Accepts s (736 + k.val) c ∧ s.rd (F.dchFenceState k.val) ≠ 0)) ∧
    (∃ (s : State) (k : Fin 32), (Running s ∧ s.rd (F.dchFenceState k.val) = 4 ∧ s.rd (F.dchFenceCause k.val) = 5)) :=
  ⟨⟨s0, cm, by decide +kernel⟩,
    ⟨s0.wr (F.dchFenceState 31) 4, 31, by decide +kernel⟩,
    ⟨{ each (List.range 20) (fun k s => s.wr (F.dchFenceState k) 5) ((((s0.wr F.dchMapTop 2).wr F.dchMapZb1 2).wr F.dchMapZb2 2).wr F.dchMapZb3 2) with mem := { s0.mem with mapFixed := true } }, by decide +kernel⟩,
    ⟨sDram, 31, cm, by decide +kernel⟩,
    ⟨s0, 31, cm, by decide +kernel⟩,
    ⟨(s0.wr (F.dchFenceState 31) 4).wr (F.dchFenceCause 31) 5, 31, by decide +kernel⟩⟩

theorem witness_PositionsPlansAndMaintenance :
    (∃ (s : State) (k : Fin 32), (Running s ∧ s.mem.up = true ∧ (s.dc k.val).pos.length = 2)) ∧
    (∃ (s : State) (k : Fin 32) (sub : Fin 2), (Running s ∧ s.mem.up = true ∧ s.dchOn k.val sub.val = true ∧ (s.dc k.val).pos.length = 2 ∧ planKind (s.nowEntry k.val sub.val) = 2 ∧ s.refreshDue k.val (planSet (s.nowEntry k.val sub.val)) (s.posOf k.val sub.val / 64) = true)) ∧
    (∃ (s : State) (k : Fin 32) (c : Cmd), (Running s ∧ Accepts s (736 + k.val) c ∧ s.on F.secPartCtlEn = false ∧ s.on (F.dchPlanCtlArmed k.val) = false ∧ s.beat + 18 < 2 ^ 64 ∧ s.planCheck k.val s.groupRuns = none)) ∧
    (∃ (s : State) (k : Fin 32) (c : Cmd) (code : _) (i : _), (Running s ∧ Accepts s (736 + k.val) c ∧ s.on F.secPartCtlEn = false ∧ s.on (F.dchPlanCtlArmed k.val) = false ∧ s.beat + 18 < 2 ^ 64 ∧ s.planCheck k.val s.groupRuns = some (code, i))) ∧
    (∃ (s : State) (k : Fin 32), (Running s ∧ s.on (F.dchPlanCtlArmed k.val) = true ∧ s.rd (F.dchPlanAtBeat k.val) ≤ s.beat ∧ s.barEdge k.val = true)) ∧
    (∃ (s : State), Running s) ∧
    (∃ (s : State) (k : Fin 32), (Running s ∧ s.maintPos k.val = true ∧ (s.dc k.val).zqBar + 2 ^ 20 ≤ s.posOf k.val 0 / 64 ∧ (s.dc k.val).pos.length = 2)) ∧
    (∃ (s : State) (k : Fin 32), (Running s ∧ s.maintPos k.val = true ∧ (s.dc k.val).oscBar + 4096 ≤ s.posOf k.val 0 / 64)) :=
  ⟨⟨sDram, 31, by decide +kernel⟩,
    ⟨sDram.setDc 31 (fun d => { d with pos := [15 + 64 * 12, 3] }), 31, 0, by decide +kernel⟩,
    ⟨sPlan, 31, cm, by decide +kernel⟩,
    ⟨raw (sAt 1000) ((736 + 31) * 0x100000 + 0x800) 7, 31, cm, 1, 0, by decide +kernel⟩,
    ⟨(sDram.wr (F.dchPlanCtlArmed 31) 1).wr (F.dchPlanAtBeat 31) 1000, 31, by decide +kernel⟩,
    ⟨sDram.wr (F.dchRefStatDouble 31) 1, by decide +kernel⟩,
    ⟨sDram.setDc 31 (fun d => { d with pos := [15 + 64 * (2 ^ 20 + 3), 3] }), 31, by decide +kernel⟩,
    ⟨sDram.setDc 31 (fun d => { d with pos := [15 + 64 * (2 ^ 20 + 3), 3] }), 31, by decide +kernel⟩⟩

theorem witness_CodesMendLines :
    (∃ (s : State) (dpa : BitVec 48) (nd : Line) (nc : BitVec 256), (Running s ∧ s.inDram dpa.toNat = true ∧ s.lineServed dpa.toNat = true ∧ s.synd dpa.toNat = 0 ∧ dataCheck nd ^^^ nc ≠ 0 ∧ dataCheck nd ^^^ nc ≠ poisonSynd)) ∧
    (∃ (s : State) (dpa : BitVec 48) (d : Line), (Running s ∧ s.inDram dpa.toNat = true ∧ s.lineServed dpa.toNat = true ∧ 0 < zoneP (s.zone dpa.toNat) ∧ s.synd dpa.toNat ≠ 0 ∧ s.synd dpa.toNat ≠ poisonSynd ∧ s.rebuiltLine dpa.toNat = some (d, false))) ∧
    (∃ (s : State) (half : BitVec 37) (j : Fin 4), (Running s ∧ j.val < zoneP (s.zone (halfLine half.toNat 0)) ∧ halfLine half.toNat 0 < s.dramTop ∧ s.parityServed half.toNat j.val = true)) ∧
    (∃ (s : State) (die : Fin 2) (e : Nat × Bool × List (Nat × Line × Bool)), (Running s ∧ s.mem.recompute.find? (fun x => s.queueDie x.1 == die.val) = some e ∧ NoneHeld s (32 + die.val))) :=
  ⟨⟨sDram, 0x80000080, 1, 0, by decide +kernel⟩,
    ⟨sDram.setSynd 0x80000080 1, 0x80000080, 0, by decide +kernel⟩,
    ⟨sDram, 0x100000, 0, by decide +kernel⟩,
    ⟨{ sDram with mem := { sDram.mem with recompute := [(0x100000, false, [(3, 7, false)])] } }, 0, (0x100000, false, [(3, 7, false)]), by decide +kernel⟩⟩

theorem witness_BrushesWalkCorrectAndZero :
    (∃ (s : State) (k : Fin 32) (sub : Fin 2) (w : Nat), (Running s ∧ s.on (F.hdrStateInreset (850 + k.val / 16)) = false ∧ s.on (F.brushCtlEn (k.val / 16)) = true ∧ s.rd (F.dchFenceState k.val) = 0 ∧ ((∀ a ∈ (s.dc k.val).again, a.1 ≠ sub.val)) ∧ (s.dc k.val).walk.length = 2 ∧ (s.dc k.val).walk.getD sub.val 0 = w ∧ w + 1 < s.linesPerSub) ∧
      ((w < s.rd F.dchMapTop * 2 ^ 17 → s.synd (dpaOfPlace k.val sub.val w) = 0))) ∧
    (∃ (s : State) (k : Fin 32) (sub : Fin 2) (w : Nat), (Running s ∧ s.on (F.hdrStateInreset (850 + k.val / 16)) = false ∧ s.on (F.brushCtlEn (k.val / 16)) = true ∧ s.rd (F.dchFenceState k.val) = 0 ∧ ((∀ a ∈ (s.dc k.val).again, a.1 ≠ sub.val)) ∧ (s.dc k.val).walk.length = 2 ∧ (s.dc k.val).walk.getD sub.val 0 = w ∧ w + 1 < s.linesPerSub) ∧
      (w < s.rd F.dchMapTop * 2 ^ 17 ∧ s.synd (dpaOfPlace k.val sub.val w) ≠ 0 ∧ s.synd (dpaOfPlace k.val sub.val w) ≠ poisonSynd)) ∧
    (∃ (s : State) (dpa : BitVec 48), (Running s ∧ dpa.toNat ∈ s.mem.corrections ∧ ((∀ x ∈ s.homes.txns, x.dpa ≠ dpa.toNat)))) ∧
    (∃ (s : State) (d : Fin 2) (frame : BitVec 32) (c : Cmd), (Running s ∧ Accepts s (850 + d.val) c ∧ frame.toNat * 65536 + 65536 ≤ s.dramTop)) ∧
    (∃ (s : State) (d : Fin 2) (frame : BitVec 32) (c : Cmd), (Running s ∧ Accepts s (850 + d.val) c ∧ s.dramTop < frame.toNat * 65536 + 65536)) ∧
    (∃ (s : State) (z : ZeroJob) (rest : List ZeroJob), (Running s ∧ s.on (F.hdrStateInreset 850) = false ∧ s.on (F.hdrStateInreset 851) = false ∧ s.zeroq = z :: rest)) :=
  ⟨⟨sDram, 31, 1, 0, by decide +kernel, by decide +kernel⟩,
    ⟨(((sDram.setDc 31 fun d => { d with walk := [0, 0] }).wr (F.brushCtlEn 1) 1).setSynd (dpaOfPlace 31 1 0) 1), 31, 1, 0, by decide +kernel, by decide +kernel⟩,
    ⟨{ sDram with mem := { sDram.mem with corrections := [0x80000080] } }, 0x80000080, by decide +kernel⟩,
    ⟨sDram, 1, 0x1FFFF, cm, by decide +kernel⟩,
    ⟨sDram, 1, 0x20000, cm, by decide +kernel⟩,
    ⟨{ sDram with zeroq := [⟨1, none⟩], mem := { sDram.mem with dram := [(0xFFFF, 7), (0x10000, 8), (0x1FFFF, 8), (0x20000, 9)] } }, (⟨1, none⟩ : ZeroJob), [], by decide +kernel⟩⟩

theorem witness_HomeFaultsAndFatalErrors :
    (∃ (s : State) (home : Fin 64), (Running s ∧ s.rd (F.homeHavlState home.val) = 0 ∧ s.homeDown (buddy home.val) = false)) ∧
    (∃ (s : State) (home : Fin 64), (Running s ∧ s.rd (F.homeHavlState home.val) = 0 ∧ s.homeDown (buddy home.val) = true)) ∧
    (∃ (s : State) (home : Fin 64) (c : Cmd), (Running s ∧ Accepts s (672 + home.val) c ∧ ((s.rd (F.homeHavlState home.val) = 0 ∧ s.homeDown (buddy home.val) = false ∨ s.rd (F.homeHavlState home.val) = 1)))) ∧
    (∃ (s : State) (home : Fin 64) (c : Cmd), (Running s ∧ Accepts s (672 + home.val) c)) ∧
    (∃ (s : State) (home : Fin 64), (Running s ∧ s.rd (F.homeHavlState home.val) = 2)) ∧
    (∃ (s : State) (home : Fin 64), (Running s ∧ s.rd (F.homeHavlState home.val) = 3 ∧ ((∀ x ∈ s.homes.txns, x.home ≠ home.val)) ∧ s.homes.pendq = [] ∧ s.homes.chain = [] ∧ s.homes.jobs = [] ∧ s.mir.readHeld = [] ∧ s.disp.descs = [])) ∧
    (∃ (s : State), Running s) :=
  ⟨⟨sDram, 63, by decide +kernel⟩,
    ⟨sDram.wr (F.homeHavlState 62) 1, 63, by decide +kernel⟩,
    ⟨sDram, 63, cm, by decide +kernel⟩,
    ⟨sDram, 63, cm, by decide +kernel⟩,
    ⟨sDram.wr (F.homeHavlState 63) 2, 63, by decide +kernel⟩,
    ⟨(sDram.wr (F.homeHavlState 63) 3).wr (F.homeHavlServer 63) 62, 63, by decide +kernel⟩,
    ⟨sDram, by decide +kernel⟩⟩

theorem witness_ClaimAndWatchdog_part1 :
    (∃ (s : State) (a : List Byte) (b : List Byte), (Running s ∧ s.role 0 = 1 ∧ s.role 1 = 1 ∧ crc64 a ≠ crc64 b)) ∧
    (∃ (s : State) (cp : Fin 3), (Running s ∧ s.role cp.val = 3 ∧ s.rd (F.cpCupState cp.val) ≠ 3 ∧ ((cp.val = 2 ∨ s.role 0 ≠ 3 ∨ s.role 1 ≠ 3)))) ∧
    (∃ (s : State) (cp : Fin 3), (Running s ∧ cp.val < 2 ∧ s.role 0 = 3 ∧ s.role 1 = 3 ∧ s.rd (F.cpCupState 0) ≠ 3 ∧ s.rd (F.cpCupState 1) ≠ 3)) ∧
    (∃ (s : State), (Running s ∧ s.rd F.cpCkptBase ≠ 0 ∧ s.holders' ≠ [] ∧ s.cpx.ckpts.length = 2 ∧ (((∀ x ∈ s.newestCkpt, x.beat + 31250 ≤ s.beat) ∨ 2048 < s.cpx.log.length)))) ∧
    (∃ (s : State) (cp : Fin 3), (Running s ∧ s.role cp.val = 3)) ∧
    (∃ (s : State) (c : Cmd), (Running s ∧ Accepts s 854 c ∧ s.standbys ≠ [] ∧ s.holders' ≠ [] ∧ ((∀ n ∈ s.standbys, s.cupState n = 2)))) ∧
    (∃ (s : State) (c : Cmd) (n : Nat), (Running s ∧ Accepts s 854 c ∧ s.standbys = [n])) :=
  ⟨⟨s0, [0], [1], by decide +kernel⟩,
    ⟨s0, 2, by decide +kernel⟩,
    ⟨((s0.wr F.cpTrioRole0 3).wr F.cpTrioRole1 3).wr F.cpTrioRole2 2, 1, by decide +kernel⟩,
    ⟨{ (sAt 50000).wr F.cpCkptBase 4 with cpx := { s0.cpx with log := [⟨9, 8, 7⟩] } }, by decide +kernel⟩,
    ⟨{ sAt 62500 with cpx := { s0.cpx with ckpts := [some ⟨9, 0, 0⟩, none] } }, 2, by decide +kernel⟩,
    ⟨{ s0 with cpx := { s0.cpx with ckpts := [some ⟨9, 0, 0⟩, none] } }.wr (F.cpCupState 2) 2, cm, by decide +kernel⟩,
    ⟨s0, cm, 2, by decide +kernel⟩⟩

theorem witness_ClaimAndWatchdog_part2 :
    (∃ (s : State) (c : Cmd), (Running s ∧ Accepts s 854 c ∧ ((∀ n ∈ s.holders', n = 2)))) ∧
    (∃ (s : State) (c : Cmd) (n : Nat), (Running s ∧ Accepts s 854 c ∧ n ∈ s.holders' ∧ n < 2)) ∧
    (∃ (s : State) (cp : Fin 3), (Running s ∧ s.role cp.val = 6)) ∧
    (∃ (s : State) (c : Cmd), (Running s ∧ Accepts s 860 c)) ∧
    (∃ (s : State), (Running s ∧ s.holders' ≠ [] ∧ s.cpx.wdogSince + s.rd F.rstWdogLimit * 31250 ≤ s.beat)) ∧
    (∃ (s : State) (ok : BitVec 2), (Running s ∧ s.cpx.replay = true ∧ s.disp.descs = [] ∧ ((∀ e ∈ s.cpx.log, e.seq ≤ ((s.usableCkpt ok).map (·.seq)).getD 0)))) ∧
    (∃ (s : State) (ok : BitVec 2) (e : LogEntry) (w : Nat), (Running s ∧ s.cpx.replay = true ∧ s.disp.descs = [] ∧ s.cpx.log.filter (fun e => decide (((s.usableCkpt ok).map (·.seq)).getD 0 < e.seq)) = [e] ∧ w < 863 ∧ e.csa = w * 0x100000 + 0xE18 ∧ e.value < 2 ^ 64 ∧ e.seq < 2 ^ 48) ∧
      Accepts s w ⟨BitVec.ofNat 32 (s.rd F.cpTrioClaim), BitVec.ofNat 48 e.seq, BitVec.ofNat 2 s.writerCode⟩) :=
  ⟨⟨((s0.wr F.cpTrioRole0 3).wr F.cpTrioRole1 3).wr F.cpTrioRole2 2, cm, by decide +kernel⟩,
    ⟨s0, cm, 1, by decide +kernel⟩,
    ⟨s0.wr F.cpTrioRole2 6, 2, by decide +kernel⟩,
    ⟨sAt 9, cm, by decide +kernel⟩,
    ⟨sAt (50 * 31250), by decide +kernel⟩,
    ⟨{ s0 with cpx := { s0.cpx with replay := true, ckpts := [some ⟨9, 0, 0⟩, none], log := [⟨9, 8, 7⟩] } }, 1, by decide +kernel⟩,
    ⟨{ s0 with cpx := { s0.cpx with replay := true, log := [⟨5, 861 * 0x100000 + 0xE18, 7⟩] } }, 3, (⟨5, 861 * 0x100000 + 0xE18, 7⟩ : LogEntry), 861, by decide +kernel, by decide +kernel⟩⟩

theorem witness_ResetsClearAndRecord :
    (∃ (s : State), s.rst.porHeld = false) ∧
    (∃ (s : State) (b : Nat), (s.rst.porHeld = false ∧ s.pwr.railHalt = some b ∧ b + 31250 ≤ s.beat)) ∧
    (∃ (s : State) (c : Cmd), (s.rst.porHeld = false ∧ Accepts s 860 c)) :=
  ⟨⟨sDram, by decide +kernel⟩,
    ⟨{ sAt 31250 with pwr := { s0.pwr with railHalt := some 0 } }, 0, by decide +kernel⟩,
    ⟨sDram, cm, by decide +kernel⟩⟩

theorem witness_ResetEndGrantsTheClaim :
    ∃ (s : State) (last : Nat), (Running s ∧ s.rst.resetting = some last ∧ NothingResumes s ∧ ((last = 3 → s.pwr.railsOut = [] ∧ s.pwr.railsOkSince + 312500 ≤ s.beat))) :=
  ⟨{ sAt 9 with rst := { s0.rst with resetting := some 4 } }, 4, by decide +kernel⟩

theorem witness_RestartLeavesTheHalt :
    (∃ (s : State) (c : Cmd) (b : Nat), (s.rst.porHeld = false ∧ Accepts s 860 c ∧ s.halted = true ∧ s.rst.haltAt = some b ∧ b + 31250 ≤ s.beat)) ∧
    (∃ (s : State) (c : Cmd) (b : Nat), (s.rst.porHeld = false ∧ Accepts s 860 c ∧ s.halted = true ∧ s.rst.haltAt = some b ∧ s.beat < b + 31250)) ∧
    (∃ (s : State) (b : Nat), (s.rst.porHeld = false ∧ s.halted = true ∧ s.rst.haltAt = some b ∧ (((s.rst.restart = true ∧ b + 31250 ≤ s.beat) ∨ (s.rd F.rstCtlAuto ≠ 0 ∧ b + s.rd F.rstCtlAuto * 312500 ≤ s.beat))))) ∧
    (∃ (s : State) (b : Nat), (s.rst.porHeld = false ∧ s.halted = true ∧ s.rst.haltAt = some b ∧ s.beat < b + 31250)) :=
  ⟨⟨{ (sAt 31250).wr F.rstCtlHalted 1 with rst := { s0.rst with haltAt := some 0 } }, cm, 0, by decide +kernel⟩,
    ⟨{ (sAt 31249).wr F.rstCtlHalted 1 with rst := { s0.rst with haltAt := some 0 } }, cm, 0, by decide +kernel⟩,
    ⟨{ (sAt 31250).wr F.rstCtlHalted 1 with rst := { s0.rst with haltAt := some 0, restart := true } }, 0, by decide +kernel⟩,
    ⟨{ (sAt 31249).wr F.rstCtlHalted 1 with rst := { s0.rst with haltAt := some 0, restart := true } }, 0, by decide +kernel⟩⟩

theorem witness_StartUpAndBlockResets :
    (∃ (s : State), (Running s ∧ s.rd F.rstCtlStage = 2)) ∧
    (∃ (s : State), (Running s ∧ s.rd F.rstCtlStage = 2)) ∧
    (∃ (s : State), (Running s ∧ s.rd F.rstCtlStage = 1 ∧ s.rst.resetting = none ∧ s.pwr.railsOut = [])) ∧
    (∃ (s : State), (Running s ∧ s.rd F.rstCtlStage = 3 ∧ s.imageOk (s.slotImage 0) = false ∧ s.imageOk (s.slotImage 1) = false)) ∧
    (∃ (s : State), (Running s ∧ s.rd F.rstCtlStage = 4)) ∧
    (∃ (s : State) (c : Cmd), (Running s ∧ Accepts s 860 c)) ∧
    (∃ (s : State) (b : Nat), (Running s ∧ s.rst.bootTimer = some b ∧ s.on F.rstBootFail = false ∧ b + s.rd F.rstBootTmo * 31250000 ≤ s.beat)) ∧
    (∃ (s : State) (c : Cmd), (Running s ∧ Accepts s 860 c ∧ s.rst.blk = none)) ∧
    (∃ (s : State) (b : Nat) (at_ : Nat), (Running s ∧ s.rst.blk = some (b, at_) ∧ s.rst.blkIn = none ∧ ((s.blkIdle b = true ∨ at_ + s.rd F.rstBlkTmo ≤ s.beat)))) ∧
    (∃ (s : State) (b : Nat) (at_ : Nat) (i : Nat), (Running s ∧ s.rst.blk = some (b, at_) ∧ s.rst.blkIn = some i ∧ i + 16 ≤ s.beat ∧ s.rst.held = [] ∧ s.disp.descs = [])) :=
  ⟨⟨s0.wr F.rstCtlStage 2, by decide +kernel⟩,
    ⟨s0.wr F.rstCtlStage 2, by decide +kernel⟩,
    ⟨s0.wr F.rstCtlStage 1, by decide +kernel⟩,
    ⟨s0.wr F.rstCtlStage 3, by decide +kernel⟩,
    ⟨s0.wr F.rstCtlStage 4, by decide +kernel⟩,
    ⟨s0, cm, by decide +kernel⟩,
    ⟨{ (sAt 1875000000).wr F.rstBootUnconf 1 with rst := { s0.rst with bootTimer := some 0 } }, 0, by decide +kernel⟩,
    ⟨s0, cm, by decide +kernel⟩,
    ⟨{ sAt 1024 with rst := { s0.rst with blk := some (768, 0) } }, 768, 0, by decide +kernel⟩,
    ⟨{ sAt 1024 with rst := { s0.rst with blk := some (768, 0), blkIn := some 1008 } }, 768, 0, 1008, by decide +kernel⟩⟩

theorem witness_HangsAreEnded :
    (∃ (s : State) (i : BitVec 12) (x : Inst), (Running s ∧ s.inst? i.toNat = some x ∧ x.state = 0 ∧ x.accBeat + s.rd F.rstHangWaitTmo * 31250 ≤ s.beat)) ∧
    (∃ (s : State) (i : BitVec 12) (x : Inst) (p : Placement), (Running s ∧ s.inst? i.toNat = some x ∧ x.place.bind s.place? = some p ∧ x.state = 1 ∧ x.ends = true ∧ (((p.phase x.phase).kind ≠ 1 ∨ s.coresEnded p = true)) ∧ x.bodyAt = none ∧ x.since + s.rd F.rstHangGateTmo * 31250 ≤ s.beat)) ∧
    (∃ (s : State) (i : BitVec 12) (x : Inst) (p : Placement), (Running s ∧ s.inst? i.toNat = some x ∧ x.place.bind s.place? = some p ∧ x.state = 1 ∧ x.ends = true ∧ (p.phase x.phase).kind = 1 ∧ ((∀ e ∈ p.sites, ∀ u, s.server e.1 = some u → ∀ k ∈ e.2, (s.core (128 * u + k)).ended = false)) ∧ x.since + s.rd F.rstHangPhaseTmo * 31250 ≤ s.beat)) ∧
    (∃ (s : State) (home : Fin 64) (entry : BitVec 10) (x : Txn), (Running s ∧ s.disp.descs = [] ∧ s.homes.txns.find? (fun t => t.home == home.val && t.idx == entry.toNat) = some x ∧ ((x.stage = .snoop ∨ x.stage = .ack)) ∧ x.opened + s.rd F.rstHangHomeTmo * 1024 ≤ s.beat)) ∧
    (∃ (s : State) (port : Fin 64) (b : Nat), (Running s ∧ s.lstate port.val = 3 ∧ some b ∈ (s.link port.val).stalled ∧ b + s.rd F.rstHangLinkTmo * 3125 ≤ s.beat)) ∧
    (∃ (s : State) (port : Fin 64) (b : Nat), (Running s ∧ (s.link port.val).hungAt = some b ∧ b + 31250 ≤ s.beat)) ∧
    (∃ (s : State) (tenant : BitVec 8) (job : BitVec 16) (d : Dump), (Running s ∧ s.disp.dumps.find? (fun d => d.tenant == tenant.toNat && d.job == job.toNat) = some d ∧ ((∀ x ∈ s.jobInsts tenant.toNat job.toNat, x.state ≠ 1)))) ∧
    (∃ (s : State) (c : Cmd), (Running s ∧ Accepts s 860 c)) :=
  ⟨⟨{ sAt 31250000 with disp := { s0.disp with insts := [ins] } }, 0, ins, by decide +kernel⟩,
    ⟨{ sAt 31250000 with disp := { s0.disp with places := [{ plc with phases := [⟨0, 0, 0, 0, 0, 0, 0⟩] }], insts := [{ ins with state := 1, place := some 0 }] } }, 0, { ins with state := 1, place := some 0 }, { plc with phases := [⟨0, 0, 0, 0, 0, 0, 0⟩] }, by decide +kernel⟩,
    ⟨{ sAt (2 ^ 40) with disp := { s0.disp with places := [{ plc with sites := [(5, [3])], phases := [⟨1, 0, 0, 0, 0, 0, 0⟩] }], insts := [{ ins with state := 1, place := some 0 }] } }, 0, { ins with state := 1, place := some 0 }, { plc with sites := [(5, [3])], phases := [⟨1, 0, 0, 0, 0, 0, 0⟩] }, by decide +kernel⟩,
    ⟨{ sAt (128 * 1024) with homes := { s0.homes with txns := [{ tx with home := 63, idx := 1023, stage := .ack }] } }, 63, 1023, { tx with home := 63, idx := 1023, stage := .ack }, by decide +kernel⟩,
    ⟨({ sAt (2 ^ 30) with links := [(63, { Link.reset with stalled := [none, none, some 0] })] }).wr (F.fportLstatState 63) 3, 63, 0, by decide +kernel⟩,
    ⟨{ sAt 31250 with links := [(63, { Link.reset with hungAt := some 0 })] }, 63, 0, by decide +kernel⟩,
    ⟨{ sAt 9 with disp := { s0.disp with dumps := [⟨255, 7, 1, 0, 5⟩] } }, 255, 7, (⟨255, 7, 1, 0, 5⟩ : Dump), by decide +kernel⟩,
    ⟨{ s0 with rst := { s0.rst with dumpUsed := [0, 15] } }, cm, by decide +kernel⟩⟩

theorem witness_RegionsAndTranslations :
    (∃ (s : State) (region : BitVec 16) (c : Cmd) (l : LcLine) (m : LcLine), (Running s ∧ Accepts s 672 c ∧ s.on F.secPartCtlEn = false ∧ s.on F.homeRgnCmdBusy = false ∧ s.rd F.homeXltBaseSpt ≠ 0 ∧ InCache s (s.rgnDpa region.toNat / 128 * 128) l ∧ l.poison = false ∧ InCache s ((s.rd F.homeXltBaseSpt * 0x10000 + (rgnOf 0 (s.rgnRecord region.toNat).1).space * 16) / 128 * 128) m) ∧
      m.poison = false) ∧
    (∃ (s : State) (region : BitVec 16) (c : Cmd), (Running s ∧ Accepts s 672 c ∧ (s.rgn? region.toNat).isSome = true)) ∧
    (∃ (s : State) (region : BitVec 16) (c : Cmd), (Running s ∧ Accepts s 672 c ∧ s.on F.secPartCtlEn = false ∧ s.on F.homeRgnCmdBusy = false ∧ s.rgn? region.toNat = none)) ∧
    (∃ (s : State) (region : BitVec 16) (c : Cmd) (g : Rgn), (Running s ∧ Accepts s 672 c ∧ s.on F.secPartCtlEn = false ∧ s.on F.homeRgnCmdBusy = false ∧ s.rgn? region.toNat = some g ∧ Quiet s ∧ s.homes.filter = [] ∧ s.homes.lc = []) ∧
      (s.homes.faults = [] ∧ s.homes.faultWait = [] ∧ s.homes.recs = [] ∧ s.pub.stagings = [] ∧ s.pub.copies = [] ∧ s.pub.commits = [] ∧ s.pub.olds = [] ∧ s.pub.pins = []) ∧
      (s.flash.moves = [] ∧ s.disp.insts = [])) ∧
    (∃ (s : State) (c : Cmd), (Running s ∧ Accepts s 672 c ∧ s.on F.homeXltInvBusy = false ∧ ((∀ x ∈ s.homes.tlb, x.lock = none)))) ∧
    (∃ (s : State) (c : Cmd), (Running s ∧ Accepts s 672 c ∧ s.on F.homeXltInvBusy = true)) ∧
    (∃ (s : State), (Running s ∧ s.on F.homeXltInvBusy = true ∧ ((∀ x ∈ s.homes.txns, x.req.op < 0x200 → x.opened ≤ s.homes.xltAt → s.invCovers x.line = false)) ∧ s.pub.copies = [] ∧ s.peers = [] ∧ ((∀ g ∈ s.rgns, g.tier = 2 → g.space ≠ s.rd F.homeXltInvSpace)))) ∧
    (∃ (s : State) (x : Txn), (Running s ∧ x ∈ s.homes.txns ∧ x.req.op < 0x200 ∧ x.opened ≤ s.homes.xltAt ∧ s.invCovers x.line = true)) :=
  ⟨⟨{ (s0.wr F.homeXltBaseSpt 0x20).wr F.homeXltBaseRgt 0x10 with homes := { s0.homes with lc := [(0x100180 / 128, ⟨0, BitVec.ofNat 1024 (rgn7 1 * 2 ^ 512), false, false⟩), (0x200000 / 128, ⟨0, BitVec.ofNat 1024 ((1 + 2 ^ 64) * 2 ^ 128), false, false⟩)] } }, 7, cm, (⟨0, BitVec.ofNat 1024 (rgn7 1 * 2 ^ 512), false, false⟩ : LcLine), (⟨0, BitVec.ofNat 1024 ((1 + 2 ^ 64) * 2 ^ 128), false, false⟩ : LcLine), by decide +kernel, by decide +kernel⟩,
    ⟨sHost 1, 7, cm, by decide +kernel⟩,
    ⟨sHost 1, 65535, cm, by decide +kernel⟩,
    ⟨{ s0 with homes := { s0.homes with regions := [(7, BitVec.ofNat 320 (rgn7 1)), (8, 1)] } }, 7, cm, rgnOf 7 (rgn7 1), by decide +kernel, by decide +kernel, by decide +kernel⟩,
    ⟨sHost 1, cm, by decide +kernel⟩,
    ⟨(sHost 1).wr F.homeXltInvBusy 1, cm, by decide +kernel⟩,
    ⟨(sHost 1).wr F.homeXltInvBusy 1, by decide +kernel⟩,
    ⟨{ ((sHost 1).wr F.homeXltInvBusy 1).wr F.homeXltInvAll 1 with homes := { s0.homes with txns := [tx], xltCover := [(0, 0, 1)] } }, tx, by decide +kernel⟩⟩

theorem witness_IngressAndLeases_part1 :
    (∃ (s : State) (p : Pkt), (Running s ∧ s.accepted p = false)) ∧
    (∃ (s : State) (p : Pkt), (Running s ∧ s.accepted p = true ∧ p.host ≠ 0xFFF ∧ ((charged p.opc.toNat = true ∨ p.opc = 0x39)) ∧ InReach s p.host.toNat ∧ (s.frz p.host.toNat).state ≠ 0)) ∧
    (∃ (s : State) (p : Pkt), (Running s ∧ s.accepted p = true ∧ p.host ≠ 0xFFF ∧ ((charged p.opc.toNat = true ∨ p.opc = 0x39)) ∧ InReach s p.host.toNat ∧ (s.frz p.host.toNat).state = 0 ∧ s.leased p.host.toNat = false)) ∧
    (∃ (s : State) (p : Pkt), (Running s ∧ s.accepted p = true ∧ p.host ≠ 0xFFF ∧ 1 ≤ p.opc.toNat ∧ p.opc.toNat ≤ 6 ∧ InReach s p.host.toNat ∧ (s.frz p.host.toNat).state = 0 ∧ s.leased p.host.toNat = true) ∧
      (ptrOk p.addr.toNat = true ∧ s.attach p.host.toNat (some (ptrSpace p.addr.toNat)) = [])) ∧
    (∃ (s : State) (p : Pkt), (Running s ∧ s.accepted p = true ∧ p.host ≠ 0xFFF ∧ 1 ≤ p.opc.toNat ∧ p.opc.toNat ≤ 6 ∧ InReach s p.host.toNat ∧ (s.frz p.host.toNat).state = 0 ∧ s.leased p.host.toNat = true) ∧
      (ptrOk p.addr.toNat = false ∧ s.on F.secPartCtlEn = false)) ∧
    (∃ (s : State) (p : Pkt) (a : Attach) (as : List Attach), (Running s ∧ s.accepted p = true ∧ p.host ≠ 0xFFF ∧ 1 ≤ p.opc.toNat ∧ p.opc.toNat ≤ 6 ∧ InReach s p.host.toNat ∧ (s.frz p.host.toNat).state = 0 ∧ s.leased p.host.toNat = true) ∧
      (ptrOk p.addr.toNat = true ∧ s.attach p.host.toNat (some (ptrSpace p.addr.toNat)) = a :: as ∧ s.on F.secPartCtlEn = false ∧ (s.policer p.host.toNat).en = false)) ∧
    (∃ (s : State) (p : Pkt) (a : Attach) (as : List Attach), (Running s ∧ s.accepted p = true ∧ p.host ≠ 0xFFF ∧ 1 ≤ p.opc.toNat ∧ p.opc.toNat ≤ 6 ∧ InReach s p.host.toNat ∧ (s.frz p.host.toNat).state = 0 ∧ s.leased p.host.toNat = true) ∧
      (ptrOk p.addr.toNat = true ∧ s.attach p.host.toNat (some (ptrSpace p.addr.toNat)) = a :: as ∧ s.on F.secPartCtlEn = false ∧ (s.policer p.host.toNat).en = true ∧ s.voqLen p.port.val (voqOut p) < 64)) :=
  ⟨⟨sHost 0, { pk5 with opc := 0x3F }, by decide +kernel⟩,
    ⟨{ sHost 0 with hosts := { (sHost 0).hosts with freeze := [(5, ⟨1, 1, 0⟩)], lostSnoops := [] } }, { pk5 with opc := 1 }, by decide +kernel⟩,
    ⟨(sHost 0).setLease 5 ⟨2, 3, 0, none⟩, { pk5 with opc := 1 }, by decide +kernel⟩,
    ⟨{ sHost 0 with hosts := { (sHost 0).hosts with adm := [] } }, { pk5 with opc := 6, len := 3 }, by decide +kernel, by decide +kernel⟩,
    ⟨sHost 0, { pk5 with opc := 6, len := 3, addr := BitVec.ofNat 64 (2 ^ 50) }, by decide +kernel, by decide +kernel⟩,
    ⟨sHost 0, { pk5 with opc := 6, len := 3 }, att5, [], by decide +kernel, by decide +kernel⟩,
    ⟨{ sHost 0 with hosts := { (sHost 0).hosts with pol := [(5, { pol0 with en := true })] } }, { pk5 with opc := 6, len := 3 }, att5, [], by decide +kernel, by decide +kernel⟩⟩

theorem witness_IngressAndLeases_part2 :
    (∃ (s : State) (p : Pkt), (Running s ∧ s.leased p.host.toNat = false ∧ s.attach p.host.toNat none ≠ [])) ∧
    (∃ (s : State) (p : Pkt), (Running s ∧ s.leased p.host.toNat = true ∧ s.attach p.host.toNat none ≠ [])) ∧
    (∃ (s : State) (p : Pkt), (Running s ∧ s.attach p.host.toNat none = [])) ∧
    (∃ (s : State), Running s) ∧
    (∃ (s : State) (p : Pkt), (Running s ∧ s.leased p.host.toNat = false)) ∧
    (∃ (s : State) (p : Pkt), (Running s ∧ s.leased p.host.toNat = true ∧ (s.leaseOf p.host.toNat).slot = none ∧ s.pub.stagings = [] ∧ s.pub.copies = [] ∧ s.pub.pins = [])) ∧
    (∃ (s : State) (p : Pkt) (x : Nat), (Running s ∧ s.leased p.host.toNat = true ∧ (s.leaseOf p.host.toNat).slot = some x ∧ s.slotHost x = some p.host.toNat ∧ Quiet s ∧ ((∀ e ∈ s.homes.filter, keySlot e.1 = x → e.2.st = 0)) ∧ s.pub.stagings = [] ∧ s.pub.copies = []) ∧
      s.pub.pins = []) :=
  ⟨⟨(sHost 0).setLease 5 ⟨0, 255, 0, none⟩, { pk5 with body := 1 }, by decide +kernel⟩,
    ⟨sHost 0, pk5, by decide +kernel⟩,
    ⟨{ sHost 0 with hosts := { (sHost 0).hosts with adm := [] } }, pk5, by decide +kernel⟩,
    ⟨sHost 0, by decide +kernel⟩,
    ⟨(sHost 0).setLease 5 ⟨2, 3, 0, none⟩, pk5, by decide +kernel⟩,
    ⟨noSlot (sHost 0), pk5, by decide +kernel⟩,
    ⟨sHost 0, pk5, 9, by decide +kernel, by decide +kernel⟩⟩

theorem witness_ExpiryAndFreezes_part1 :
    (∃ (s : State) (host : BitVec 12), (Running s ∧ s.beat < (s.leaseOf host.toNat).renew + 62500)) ∧
    (∃ (s : State) (host : BitVec 12), (Running s ∧ (s.leaseOf host.toNat).renew + 62500 ≤ s.beat ∧ s.leased host.toNat = true ∧ (s.leaseOf host.toNat).slot = none ∧ Quiet s ∧ s.pub.stagings = [] ∧ s.pub.copies = [] ∧ s.pub.pins = [])) ∧
    (∃ (s : State) (host : BitVec 12) (x : Nat), (Running s ∧ (s.leaseOf host.toNat).renew + 62500 ≤ s.beat ∧ s.leased host.toNat = true ∧ (s.leaseOf host.toNat).slot = some x ∧ s.slotHost x = some host.toNat ∧ Quiet s ∧ s.pub.stagings = [] ∧ s.pub.copies = []) ∧
      s.pub.pins = []) ∧
    (∃ (s : State) (home : Fin 64) (entry : BitVec 10), (Running s ∧ ((∀ x ∈ s.homes.txns, x.home = home.val → x.idx = entry.toNat → ∀ n ∈ x.snoops, s.beat < n.sent + s.rd F.homeCohCtlSnpTmo)))) ∧
    (∃ (s : State) (home : Fin 64) (entry : BitVec 10) (x : Txn) (n : Snoop), (Running s ∧ NoQueue s ∧ s.homes.txns = [x] ∧ x.home = home.val ∧ x.idx = entry.toNat ∧ x.stage = .snoop ∧ x.snoops = [n] ∧ n.sent + s.rd F.homeCohCtlSnpTmo ≤ s.beat) ∧
      s.leased n.host = true) ∧
    (∃ (s : State) (host : BitVec 12) (c : Cmd), (Running s ∧ Accepts s 848 c ∧ (s.frz host.toNat).state ≠ 0 ∧ ((∀ q ∈ s.hosts.frzq, q.host ≠ host)))) ∧
    (∃ (s : State) (host : BitVec 12) (c : Cmd) (q : Pkt), (Running s ∧ Accepts s 848 c ∧ (s.frz host.toNat).state ≠ 0 ∧ s.hosts.frzq = [q] ∧ q.host = host ∧ s.leased host.toNat = false)) :=
  ⟨⟨{ sHost 0 with beat := 990 + 62499 }, 5, by decide +kernel⟩,
    ⟨{ noSlot (sHost 0) with beat := 990 + 62500 }, 5, by decide +kernel⟩,
    ⟨{ sHost 0 with beat := 990 + 62500 }, 5, 9, by decide +kernel, by decide +kernel⟩,
    ⟨{ sHost 0 with homes := { s0.homes with txns := [{ tx with home := 63, idx := 1023, snoops := [⟨5, 9, 0x10, 1000⟩] }] } }, 63, 1023, by decide +kernel⟩,
    ⟨{ sHost 0 with beat := 2 ^ 40, homes := { s0.homes with txns := [{ tx with home := 63, idx := 1023, snoops := [⟨5, 9, 0x10, 1000⟩] }] } }, 63, 1023, { tx with home := 63, idx := 1023, snoops := [⟨5, 9, 0x10, 1000⟩] }, (⟨5, 9, 0x10, 1000⟩ : Snoop), by decide +kernel, by decide +kernel⟩,
    ⟨(sHost 0).setFrz 5 ⟨2, 1, 0⟩, 5, cm, by decide +kernel⟩,
    ⟨{ (((sHost 0).setFrz 5 ⟨1, 1, 0⟩).setLease 5 ⟨2, 0, 0, none⟩) with hosts := { (((sHost 0).setFrz 5 ⟨1, 1, 0⟩).setLease 5 ⟨2, 0, 0, none⟩).hosts with frzq := [{ pk5 with opc := 1 }] } }, 5, cm, { pk5 with opc := 1 }, by decide +kernel⟩⟩

theorem witness_ExpiryAndFreezes_part2 :
    (∃ (s : State) (host : BitVec 12) (c : Cmd) (q : Pkt) (a : Attach) (as : List Attach), (Running s ∧ Accepts s 848 c ∧ (s.frz host.toNat).state ≠ 0 ∧ s.hosts.frzq = [q] ∧ q.host = host ∧ s.leased host.toNat = true ∧ 1 ≤ q.opc.toNat ∧ q.opc.toNat ≤ 6) ∧
      (ptrOk q.addr.toNat = true ∧ s.attach host.toNat (some (ptrSpace q.addr.toNat)) = a :: as ∧ s.on F.secPartCtlEn = false ∧ (s.policer host.toNat).en = false ∧ s.voqLen q.port.val (voqOut q) < 64)) ∧
    (∃ (s : State) (host : BitVec 12) (c : Cmd), (Running s ∧ Accepts s 848 c ∧ (s.frz host.toNat).state = 0)) ∧
    (∃ (s : State) (host : BitVec 12) (c : Cmd), (Running s ∧ Accepts s 848 c ∧ (s.frz host.toNat).state = 1 ∧ s.leased host.toNat = false ∧ ((∀ q ∈ s.hosts.frzq, q.host ≠ host)))) ∧
    (∃ (s : State) (host : BitVec 12) (c : Cmd) (q : Pkt), (Running s ∧ Accepts s 848 c ∧ (s.frz host.toNat).state = 1 ∧ s.leased host.toNat = false ∧ s.hosts.frzq = [q] ∧ q.host = host)) ∧
    (∃ (s : State) (host : BitVec 12) (c : Cmd), (Running s ∧ Accepts s 848 c ∧ (s.frz host.toNat).state = 1 ∧ s.leased host.toNat = true ∧ (s.leaseOf host.toNat).slot = none ∧ Quiet s ∧ s.pub.stagings = [] ∧ s.pub.copies = []) ∧
      (s.pub.pins = [] ∧ ((∀ q ∈ s.hosts.frzq, q.host ≠ host)))) ∧
    (∃ (s : State) (host : BitVec 12) (c : Cmd), (Running s ∧ Accepts s 848 c ∧ (s.frz host.toNat).state ≠ 1)) ∧
    (∃ (s : State) (c : Cmd), (Running s ∧ Accepts s 848 c)) :=
  ⟨⟨{ ((sHost 0).setFrz 5 ⟨1, 1, 0⟩) with hosts := { ((sHost 0).setFrz 5 ⟨1, 1, 0⟩).hosts with frzq := [{ pk5 with opc := 1 }] } }, 5, cm, { pk5 with opc := 1 }, att5, [], by decide +kernel, by decide +kernel⟩,
    ⟨sHost 0, 5, cm, by decide +kernel⟩,
    ⟨((sHost 0).setFrz 5 ⟨1, 1, 0⟩).setLease 5 ⟨2, 0, 0, none⟩, 5, cm, by decide +kernel⟩,
    ⟨{ (((sHost 0).setFrz 5 ⟨1, 1, 0⟩).setLease 5 ⟨2, 0, 0, none⟩) with hosts := { (((sHost 0).setFrz 5 ⟨1, 1, 0⟩).setLease 5 ⟨2, 0, 0, none⟩).hosts with frzq := [{ pk5 with opc := 1 }] } }, 5, cm, { pk5 with opc := 1 }, by decide +kernel⟩,
    ⟨(noSlot (sHost 0)).setFrz 5 ⟨1, 1, 0⟩, 5, cm, by decide +kernel, by decide +kernel⟩,
    ⟨(sHost 0).setFrz 5 ⟨2, 1, 0⟩, 5, cm, by decide +kernel⟩,
    ⟨sHost 0, cm, by decide +kernel⟩⟩

theorem witness_TrafficControl_part1 :
    (∃ (s : State), (Running s ∧ s.beat % 32 = 0 ∧ s.hosts.lastTick ≠ s.beat + 1 ∧ SMap.wf (fun _ => pol0) s.hosts.pol = true)) ∧
    (∃ (s : State), (Running s ∧ s.beat % 32 ≠ 0)) ∧
    (∃ (s : State) (host : BitVec 12), (Running s ∧ s.on F.xbarCongEn = true ∧ (s.policer host.toNat).en = true)) ∧
    (∃ (s : State) (host : BitVec 12), (Running s ∧ ((s.on F.xbarCongEn = false ∨ (s.policer host.toNat).en = false)))) ∧
    (∃ (s : State), Running s) ∧
    (∃ (s : State) (c : Cmd), (Running s ∧ Accepts s 848 c)) :=
  ⟨⟨{ sHost 0 with beat := 64 }, by decide +kernel⟩,
    ⟨{ sHost 0 with beat := 95 }, by decide +kernel⟩,
    ⟨{ (sHost 0).wr F.xbarCongEn 1 with hosts := { s0.hosts with pol := [(5, { pol0 with en := true })] } }, 5, by decide +kernel⟩,
    ⟨sHost 0, 5, by decide +kernel⟩,
    ⟨{ sHost 0 with hosts := { s0.hosts with pol := [(5, { pol0 with en := true, slow := 3, quiet := 255 })] } }, by decide +kernel⟩,
    ⟨sHost 0, cm, by decide +kernel⟩⟩

theorem witness_TrafficControl_part2 :
    (∃ (s : State) (c : Cmd), (Running s ∧ Accepts s 848 c)) ∧
    (∃ (s : State) (c : Cmd), (Running s ∧ Accepts s 848 c)) ∧
    (∃ (s : State) (port : Fin 64) (rate : BitVec 20) (burst : BitVec 24) (c : Cmd), (Running s ∧ Accepts s (768 + port.val) c ∧ 256 ≤ burst.toNat ∧ rate.toNat ≤ burst.toNat)) ∧
    (∃ (s : State) (port : Fin 64) (c : Cmd), (Running s ∧ Accepts s (768 + port.val) c ∧ s.beat < 2 ^ 63 ∧ s.hosts.gates = [] ∧ s.on (F.fportGateCtlArmed port.val) = false)) ∧
    (∃ (s : State) (port : Fin 64) (c : Cmd), (Running s ∧ Accepts s (768 + port.val) c ∧ s.on (F.fportGateCtlArmed port.val) = true)) ∧
    (∃ (s : State) (port : Fin 64) (at_ : Nat), (Running s ∧ s.hosts.gates.find? (fun e => e.1 == port.val) = some (port.val, at_) ∧ 64 * ceilDiv (5 * at_) 64 < 5 * (s.beat + 1))) ∧
    (∃ (s : State) (port : Fin 64) (at_ : Nat), (Running s ∧ s.hosts.gates.find? (fun e => e.1 == port.val) = some (port.val, at_) ∧ 5 * (s.beat + 1) ≤ 64 * ceilDiv (5 * at_) 64)) :=
  ⟨⟨sHost 0, cm, by decide +kernel⟩,
    ⟨sHost 0, cm, by decide +kernel⟩,
    ⟨sHost 0, 63, 256, 256, cm, by decide +kernel⟩,
    ⟨sHost 0, 63, cm, by decide +kernel⟩,
    ⟨(sHost 0).wr (F.fportGateCtlArmed 63) 1, 63, cm, by decide +kernel⟩,
    ⟨{ sHost 0 with hosts := { s0.hosts with gates := [(63, 987)] } }, 63, 987, by decide +kernel⟩,
    ⟨{ sHost 0 with hosts := { s0.hosts with gates := [(63, 1001)] } }, 63, 1001, by decide +kernel⟩⟩

theorem witness_AdmissionFaultsAndPeers_part1 :
    (∃ (s : State) (c : Cmd), (Running s ∧ Accepts s 848 c ∧ s.on F.secPartCtlEn = false)) ∧
    (∃ (s : State) (c : Cmd), (Running s ∧ Accepts s 848 c)) ∧
    (∃ (s : State) (c : Cmd), (Running s ∧ Accepts s 848 c)) ∧
    (∃ (s : State) (c : Cmd), (Running s ∧ Accepts s 848 c)) ∧
    (∃ (s : State) (home : Fin 64) (f : PageFault) (i : Nat), (Running s ∧ s.homes.faults = [f] ∧ f.home = home.val ∧ s.moveOf f.space f.page = none ∧ s.waitersAt f.home < 4096 ∧ i < 256 ∧ ((∀ x ∈ s.homes.recs, x.home = f.home → x.state = 1 → ¬(x.space = f.space ∧ x.page = f.page ∧ x.size = f.size ∧ x.cause = f.cause) ∧ x.idx ≠ i)) ∧ ((∀ j, j < i → ∃ x ∈ s.homes.recs, x.home = f.home ∧ x.state = 1 ∧ x.idx = j)))) ∧
    (∃ (s : State) (home : Fin 64) (f : PageFault) (x : FaultRec), (Running s ∧ s.homes.faults = [f] ∧ f.home = home.val ∧ s.moveOf f.space f.page = none ∧ s.homes.recs = [x] ∧ x.home = f.home ∧ x.state = 1 ∧ x.space = f.space) ∧
      (x.page = f.page ∧ x.size = f.size ∧ x.cause = f.cause ∧ x.waiters.length < 4096)) ∧
    (∃ (s : State) (home : Fin 64) (f : PageFault), (Running s ∧ s.homes.faultWait = [f] ∧ f.home = home.val ∧ s.homes.recs = [] ∧ s.moveOf f.space f.page = none)) ∧
    (∃ (s : State) (home : Fin 64) (index : BitVec 8) (x : FaultRec), (Running s ∧ s.homes.recs = [x] ∧ x.home = home.val ∧ x.idx = index.toNat ∧ x.state = 1 ∧ s.disp.descs = [] ∧ s.mir.got = [] ∧ x.waiters = [])) :=
  ⟨⟨sHost 0, cm, by decide +kernel⟩,
    ⟨sHost 0, cm, by decide +kernel⟩,
    ⟨sHost 0, cm, by decide +kernel⟩,
    ⟨sHost 0, cm, by decide +kernel⟩,
    ⟨{ sHost 0 with homes := { s0.homes with faults := [pf], recs := [{ fr with idx := 0, page := 99 }] } }, 63, pf, 1, by decide +kernel⟩,
    ⟨{ sHost 0 with homes := { s0.homes with faults := [pf], recs := [fr] } }, 63, pf, fr, by decide +kernel, by decide +kernel⟩,
    ⟨{ sHost 0 with homes := { s0.homes with faultWait := [pf] } }, 63, pf, by decide +kernel⟩,
    ⟨{ sHost 0 with homes := { s0.homes with recs := [{ fr with waiters := [] }] } }, 63, 255, { fr with waiters := [] }, by decide +kernel⟩⟩

theorem witness_AdmissionFaultsAndPeers_part2 :
    (∃ (s : State) (home : Fin 64) (index : BitVec 8) (x : FaultRec) (r : HomeReq), (Running s ∧ s.homes.recs = [x] ∧ x.home = home.val ∧ x.idx = index.toNat ∧ x.state = 1 ∧ s.disp.descs = [] ∧ s.mir.got = [] ∧ x.waiters = [.req r]) ∧
      (r.tile = none ∧ x.first + s.rd F.homeFltTmoTmo * 3125 < s.beat ∧ s.silent r = false ∧ s.idemOn = false)) ∧
    (∃ (s : State) (home : BitVec 6) (index : BitVec 8) (c : Cmd) (x : FaultRec), (Running s ∧ Accepts s 672 c ∧ s.homes.recs = [x] ∧ x.home = home.toNat ∧ x.idx = index.toNat ∧ x.state = 1 ∧ x.waiters = [] ∧ s.disp.descs = []) ∧
      s.mir.got = []) ∧
    (∃ (s : State) (x : FaultRec), (Running s ∧ s.homes.recs = [x] ∧ x.state = 1 ∧ x.cause = 0 ∧ x.queued = false ∧ s.rd F.homeFltQBase ≠ 0 ∧ s.rd F.homeFltQptrHead < s.rd F.homeFltQLen * 1024 ∧ (s.rd F.homeFltQptrHead + 1) % (s.rd F.homeFltQLen * 1024) ≠ s.rd F.homeFltQptrTail % (s.rd F.homeFltQLen * 1024))) ∧
    (∃ (s : State) (i : BitVec 12) (tile : Fin 672) (stream : Fin 12) (page : BitVec 32) (v : Inst) (e : Tlb), (Running s ∧ s.inst? i.toNat = some v ∧ v.state = 1 ∧ (strm v.streams stream.val).gath = false ∧ (strm v.streams stream.val).depth = 0 ∧ (strm v.streams stream.val).dir = false ∧ ptrOff (strm v.streams stream.val).base ≤ page.toNat * 0x10000 ∧ page.toNat * 0x10000 < ptrOff (strm v.streams stream.val).base + (strm v.streams stream.val).len) ∧
      (s.homes.tlb = [e] ∧ e.place = 64 + tile.val ∧ e.space = ptrSpace (strm v.streams stream.val).base ∧ e.bits = 16 ∧ e.page = page.toNat ∧ e.lock = none ∧ s.pub.pins = [])) ∧
    (∃ (s : State) (p : Pkt), (Running s ∧ s.disp.descs = [] ∧ p.opc ≠ 0x29 ∧ p.opc ≠ 0x2B ∧ s.peers = [])) ∧
    (∃ (s : State) (p : Pkt) (q : PeerReq) (m : MPkt), (Running s ∧ s.disp.descs = [] ∧ p.opc = 0x24 ∧ s.peers = [q] ∧ q.tag = p.tag.toNat ∧ q.host = p.host.toNat ∧ q.req.op = 0x120 ∧ q.req.tile = some m) ∧
      m.op ≠ opDisp) ∧
    (∃ (s : State), (Running s ∧ s.on F.xbarKnellEn = false ∧ s.hosts.routed = [])) ∧
    (∃ (s : State) (p : Pkt), (Running s ∧ s.on F.xbarKnellEn = true ∧ s.hosts.routed = [] ∧ p.host = 0xFFF ∧ tst (s.rd F.xbarKnellPortsPorts) p.port.val = true ∧ s.hosts.knells = [] ∧ bits p.body.toNat 30 28 = 0 ∧ s.disp.insts = [])) :=
  ⟨⟨{ sHost 0 with beat := 2 ^ 40, homes := { s0.homes with recs := [{ fr with waiters := [.req { rq with op := 1, host := 5, tag := 7, epoch := 3 }] }] } }, 63, 255, { fr with waiters := [.req { rq with op := 1, host := 5, tag := 7, epoch := 3 }] }, { rq with op := 1, host := 5, tag := 7, epoch := 3 }, by decide +kernel, by decide +kernel⟩,
    ⟨{ sHost 0 with homes := { s0.homes with recs := [{ fr with waiters := [] }] } }, 63, 255, cm, { fr with waiters := [] }, by decide +kernel, by decide +kernel⟩,
    ⟨{ ((sHost 0).wr F.homeFltQBase 0x100).wr F.homeFltQLen 1 with homes := { s0.homes with recs := [fr] } }, fr, by decide +kernel⟩,
    ⟨{ sHost 0 with disp := { s0.disp with insts := [{ ins with state := 1, streams := [⟨p1, 65536, false, false, false, 0⟩] }] }, homes := { s0.homes with tlb := [leaf1 (64 + 671)] } }, 0, 671, 0, 0, { ins with state := 1, streams := [⟨p1, 65536, false, false, false, 0⟩] }, leaf1 (64 + 671), by decide +kernel, by decide +kernel⟩,
    ⟨sHost 0, { pk5 with opc := 0x24 }, by decide +kernel⟩,
    ⟨{ sHost 0 with peers := [⟨77, { rq with op := 0x120, tile := some mp }, 5, 3⟩] }, { pk5 with opc := 0x24 }, (⟨77, { rq with op := 0x120, tile := some mp }, 5, 3⟩ : PeerReq), mp, by decide +kernel, by decide +kernel⟩,
    ⟨(sHost 0).wr F.xbarKnellEn 0, by decide +kernel⟩,
    ⟨((sHost 0).wr F.xbarKnellEn 1).wr F.xbarKnellPortsPorts 8, { pk5 with host := 0xFFF }, by decide +kernel⟩⟩

theorem witness_RequestsForUnheldLines :
    (∃ (s : State) (p : Pkt) (g : Rgn) (e : Tlb) (l : LcLine) (sl : Nat), (Ready s p 1 g e l ∧ g.mode = 0 ∧ s.homes.filter = [] ∧ (s.leaseOf p.host.toNat).slot = some sl)) ∧
    (∃ (s : State) (p : Pkt) (g : Rgn) (e : Tlb) (l : LcLine) (sl : Nat), (Ready s p 2 g e l ∧ g.mode = 0 ∧ s.homes.filter = [] ∧ (s.leaseOf p.host.toNat).slot = some sl)) ∧
    (∃ (s : State) (p : Pkt) (g : Rgn) (e : Tlb) (l : LcLine) (sl : Nat), (Ready s p 3 g e l ∧ g.mode = 0 ∧ s.homes.filter = [] ∧ (s.leaseOf p.host.toNat).slot = some sl)) ∧
    (∃ (s : State) (p : Pkt) (g : Rgn) (e : Tlb) (l : LcLine), (Ready s p 4 g e l ∧ s.homes.filter = [])) ∧
    (∃ (s : State) (p : Pkt) (g : Rgn) (e : Tlb) (l : LcLine), (Ready s p 5 g e l ∧ g.mode ≤ 1 ∧ s.homes.filter = [] ∧ s.writeHeld (leafDpa e.entry e.bits (ptrOff p.addr.toNat) / 128 * 128) = none)) ∧
    (∃ (s : State) (p : Pkt) (x : Txn), (Running s ∧ NoQueue s ∧ Plain s ∧ s.homes.txns = [x] ∧ x.stage = .ack ∧ x.home = homeOfPtr p.addr.toNat ∧ x.line = p.addr.toNat / 128 * 128 ∧ x.req.host = p.host.toNat) ∧
      x.req.tag = p.tag.toNat) ∧
    (∃ (s : State), (Running s ∧ NoQueue s ∧ s.homes.txns = [])) :=
  ⟨⟨sHost 0, pk5, rgnOf 7 (rgn7 0), leaf1 (homeOfPtr p1), line1, 9, by decide +kernel⟩,
    ⟨sHost 0, pk5, rgnOf 7 (rgn7 0), leaf1 (homeOfPtr p1), line1, 9, by decide +kernel⟩,
    ⟨sHost 0, pk5, rgnOf 7 (rgn7 0), leaf1 (homeOfPtr p1), line1, 9, by decide +kernel⟩,
    ⟨sHost 1, pk5, rgnOf 7 (rgn7 1), leaf1 (homeOfPtr p1), line1, by decide +kernel⟩,
    ⟨sHost 1, { pk5 with body := 0xFF + 7 * 2 ^ 128 }, rgnOf 7 (rgn7 1), leaf1 (homeOfPtr p1), line1, by decide +kernel⟩,
    ⟨{ sHost 0 with homes := { s0.homes with txns := [txA] } }, pk5, txA, by decide +kernel, by decide +kernel⟩,
    ⟨sHost 0, by decide +kernel⟩⟩

theorem witness_SnoopsAndEvictions :
    (∃ (s : State) (p : Pkt) (g : Rgn) (e : Tlb) (l : LcLine) (sl : Nat) (k : Nat) (h : Nat) (f : FEnt), (Ready s p 1 g e l ∧ g.mode = 0 ∧ (s.leaseOf p.host.toNat).slot = some sl ∧ s.homes.filter = [(k, f)] ∧ f.st = 3 ∧ f.ptr = p.addr.toNat / 128 * 128 ∧ keyHome k = homeOfPtr p.addr.toNat ∧ keySlot k ≠ sl) ∧
      s.slotHost (keySlot k) = some h) ∧
    (∃ (s : State) (p : Pkt) (g : Rgn) (e : Tlb) (l : LcLine) (sl : Nat) (k : Nat) (h : Nat) (f : FEnt), (Ready s p 2 g e l ∧ g.mode = 0 ∧ (s.leaseOf p.host.toNat).slot = some sl ∧ s.homes.filter = [(k, f)] ∧ f.st ≠ 0 ∧ f.ptr = p.addr.toNat / 128 * 128 ∧ keyHome k = homeOfPtr p.addr.toNat ∧ keySlot k ≠ sl) ∧
      s.slotHost (keySlot k) = some h) ∧
    (∃ (s : State) (p : Pkt) (x : Txn) (n : Snoop) (k : Nat) (f : FEnt), (Running s ∧ NoQueue s ∧ s.homes.txns = [x] ∧ ((∀ g, s.rgnAt (ptrSpace x.line) (ptrOff x.line) = some g → g.tier ≠ 2)) ∧ s.inSram (x.dpa / 0x10000) = false ∧ x.home = p.snpid.toNat / 1024 ∧ x.idx = p.snpid.toNat % 1024 ∧ x.snoops = [n]) ∧
      (x.absent = [] ∧ x.plan.1 = 0 ∧ x.req.op = 0x200 ∧ x.req.drop = false ∧ x.req.job = 1 ∧ x.ownerSnooped = false ∧ n.host = p.host.toNat ∧ s.homes.filter = [(k, f)]) ∧
      (f.st ≠ 0 ∧ f.ptr = x.line ∧ keyHome k = x.home ∧ keySlot k = n.slot ∧ f.localAt = none)) ∧
    (∃ (s : State) (p : Pkt) (x : Txn) (n : Snoop) (k : Nat) (sl : Nat) (f : FEnt), (Running s ∧ NoQueue s ∧ s.homes.txns = [x] ∧ x.home = p.snpid.toNat / 1024 ∧ x.idx = p.snpid.toNat % 1024 ∧ x.snoops = [n] ∧ x.absent = [] ∧ x.req.op = 1) ∧
      (s.silent x.req = false ∧ x.ownerSnooped = false ∧ n.host = p.host.toNat ∧ s.homes.filter = [(k, f)] ∧ f.st = 2 ∧ f.ptr = x.line ∧ keyHome k = x.home ∧ keySlot k = n.slot) ∧
      (f.localAt = none ∧ (s.leaseOf x.req.host).slot = some sl ∧ fKey x.home sl (setOf (ptrSpace x.line) (ptrOff x.line) % 64) x.req.way ≠ k)) ∧
    (∃ (s : State), (Running s ∧ s.homes.txns = [] ∧ s.disp.descs = [])) ∧
    (∃ (s : State) (p : Pkt) (g : Rgn) (sl : Nat) (f : FEnt), (Running s ∧ Quiet s ∧ Plain s ∧ s.hosts.routed = [] ∧ s.leased p.host.toNat = true ∧ (s.leaseOf p.host.toNat).slot = some sl ∧ s.rgnAt (ptrSpace p.addr.toNat) (ptrOff p.addr.toNat) = some g ∧ g.mode = 0) ∧
      (g.tier ≠ 2 ∧ s.inSram (f.dpa / 0x10000) = false ∧ s.homes.filter = [(grantKey sl p, f)] ∧ f.st ≠ 0 ∧ f.ptr = p.addr.toNat / 128 * 128 ∧ s.rgnAt (ptrSpace (p.addr.toNat / 128 * 128)) (ptrOff (p.addr.toNat / 128 * 128)) = some g)) ∧
    (∃ (s : State), Running s) :=
  ⟨⟨sHold 3, pk5, rgnOf 7 (rgn7 0), leaf1 (homeOfPtr p1), line1, 9, key6, 6, (⟨3, 0, p1, none⟩ : FEnt), by decide +kernel, by decide +kernel⟩,
    ⟨sHold 1, pk5, rgnOf 7 (rgn7 0), leaf1 (homeOfPtr p1), line1, 9, key6, 6, (⟨1, 0, p1, none⟩ : FEnt), by decide +kernel, by decide +kernel⟩,
    ⟨{ sHold 3 with homes := { s0.homes with txns := [txB], filter := [(key6, ⟨3, 0, p1, none⟩)] } }, { pk5 with host := 6, snpid := BitVec.ofNat 16 (homeOfPtr p1 * 1024 + 2) }, txB, (⟨6, 11, 0x10, 900⟩ : Snoop), key6, (⟨3, 0, p1, none⟩ : FEnt), by decide +kernel, by decide +kernel, by decide +kernel⟩,
    ⟨{ sHold 2 with homes := { (sHold 2).homes with txns := [txC] } }, { pk5 with host := 6, snpid := BitVec.ofNat 16 (homeOfPtr p1 * 1024 + 2) }, txC, (⟨6, 11, 0x11, 900⟩ : Snoop), key6, 9, (⟨2, 0, p1, none⟩ : FEnt), by decide +kernel, by decide +kernel, by decide +kernel⟩,
    ⟨sHost 0, by decide +kernel⟩,
    ⟨{ sHost 0 with homes := { (sHost 0).homes with filter := [(grantKey 9 pk5, ⟨3, 0, p1, none⟩)] } }, pk5, rgnOf 7 (rgn7 0), 9, (⟨3, 0, p1, none⟩ : FEnt), by decide +kernel, by decide +kernel⟩,
    ⟨sHost 0, by decide +kernel⟩⟩

theorem witness_HomeQueuesAndInvalidation_part1 :
    (∃ (s : State), Running s) ∧
    (∃ (s : State) (home : Fin 64) (r : HomeReq), (Running s ∧ s.homes.chain = [] ∧ s.homes.pendq = [(home.val, r)] ∧ s.homes.chanWait = [] ∧ s.homes.recs = [] ∧ s.homes.faults = [] ∧ s.homes.faultWait = [] ∧ s.homes.starve = []) ∧
      r.op < 0x200) ∧
    (∃ (s : State) (home : Fin 64) (r : HomeReq) (x : Txn), (Running s ∧ Plain s ∧ s.homes.chain = [] ∧ s.homes.pendq = [(home.val, r)] ∧ s.homes.starve = [] ∧ s.homes.jobs = [] ∧ s.mir.readHeld = [] ∧ s.disp.descs = []) ∧
      (s.homes.txns = [x] ∧ x.home = home.val ∧ x.line = r.line ∧ s.returning home.val = false)) ∧
    (∃ (s : State), (Running s ∧ s.homes.pendq = [] ∧ s.disp.descs = [])) ∧
    (∃ (s : State) (space : BitVec 10) (base : BitVec 32) (count : BitVec 16) (c : Cmd), (Running s ∧ Accepts s 672 c ∧ s.on F.homeCohBinvBusy = false ∧ ((∀ e ∈ s.homes.filter, inRange space.toNat base.toNat count.toNat e = false)) ∧ s.homes.jobs = [])) ∧
    (∃ (s : State) (c : Cmd), (Running s ∧ Accepts s 672 c ∧ s.on F.homeCohBinvBusy = true)) :=
  ⟨⟨{ sHost 0 with homes := { s0.homes with chain := [(63, { rq with arrive := 936 })], pendq := [(63, { rq with arrive := 937 })] } }, by decide +kernel⟩,
    ⟨{ sHost 0 with homes := { s0.homes with pendq := [(63, { rq with arrive := 488 })] } }, 63, { rq with arrive := 488 }, by decide +kernel, by decide +kernel⟩,
    ⟨{ sHost 0 with homes := { s0.homes with pendq := [(63, { rq with op := 1 })], txns := [{ tx with home := 63 }] } }, 63, { rq with op := 1 }, { tx with home := 63 }, by decide +kernel, by decide +kernel⟩,
    ⟨sHost 0, by decide +kernel⟩,
    ⟨sHost 0, 1, 0, 1, cm, by decide +kernel⟩,
    ⟨(sHost 0).wr F.homeCohBinvBusy 1, cm, by decide +kernel⟩⟩

theorem witness_HomeQueuesAndInvalidation_part2 :
    (∃ (s : State) (k : Nat) (l : LcLine), (Running s ∧ s.disp.descs = [] ∧ s.on F.homeCohBinvBusy = true ∧ s.homes.chain = [] ∧ s.homes.pendq = [] ∧ s.homes.txns = [] ∧ s.homes.lc = [(k, l)] ∧ s.partFull (k * 128) = none) ∧
      (((∀ e ∈ s.homes.filter, e.2.st ≠ 0 → inRange (s.rd F.homeCohBinvSpace) (s.rd F.homeCohBinvBase) (s.rd F.homeCohBinvCount) e = false)) ∧ ptrSpace l.ptr = s.rd F.homeCohBinvSpace ∧ s.rd F.homeCohBinvBase * 0x10000 ≤ ptrOff l.ptr ∧ ptrOff l.ptr < (s.rd F.homeCohBinvBase + s.rd F.homeCohBinvCount) * 0x10000)) ∧
    (∃ (s : State) (x : Txn), (Running s ∧ x ∈ s.homes.txns ∧ 0x200 ≤ x.req.op ∧ x.req.job = jobBinv)) ∧
    (∃ (s : State) (slot : BitVec 8) (c : Cmd), (Running s ∧ Accepts s 672 c ∧ s.slotHost slot.toNat = none)) ∧
    (∃ (s : State) (slot : BitVec 8) (c : Cmd) (h : Nat), (Running s ∧ Accepts s 672 c ∧ Quiet s ∧ s.homes.filter = [] ∧ s.hosts.slots = [(slot.toNat, h)] ∧ h < 4096)) ∧
    (∃ (s : State) (home : Fin 64) (slot : BitVec 8) (h : Nat), (Running s ∧ Quiet s ∧ s.on F.secPartCtlEn = false ∧ s.returning home.val = false ∧ s.slotHost slot.toNat = some h)) ∧
    (∃ (s : State) (slot : BitVec 8), (Running s ∧ s.slotHost slot.toNat = none)) :=
  ⟨⟨(((sHost 0).wr F.homeCohBinvBusy 1).wr F.homeCohBinvSpace 1).wr F.homeCohBinvCount 1, 0x80000000 / 128, line1, by decide +kernel, by decide +kernel⟩,
    ⟨{ sHost 0 with homes := { s0.homes with txns := [{ tx with req := { rq with op := 0x200, job := 1 } }] } }, { tx with req := { rq with op := 0x200, job := 1 } }, by decide +kernel⟩,
    ⟨sHost 0, 255, cm, by decide +kernel⟩,
    ⟨sHost 0, 9, cm, 5, by decide +kernel⟩,
    ⟨sHold 3, (⟨homeOfPtr p1, by decide +kernel⟩ : Fin 64), 11, 6, by decide +kernel⟩,
    ⟨sHost 0, 255, by decide +kernel⟩⟩

theorem witness_AtomicsAtHome :
    (∃ (n : Nat) (op : AtomSrc → Instr) (s : State) (p : Pkt) (g : Rgn) (e : Tlb) (l : LcLine), (n, op) ∈ ([(1, .faddI), (2, .faddF32), (3, .faddBf16), (4, .cas), (5, .minS), (6, .maxS), (7, .minU), (8, .maxU), (9, .minF32), (10, .maxF32), (11, .vfaddF32), (12, .vfaddI32)] : List (Nat × (AtomSrc → Instr))) ∧
      (Ready s p 6 g e l ∧ g.mode ≤ 1 ∧ s.homes.filter = [] ∧ s.partFull (leafDpa e.entry e.bits (ptrOff p.addr.toNat) / 128 * 128) = none ∧ (s.leaseOf p.host.toNat).slot = none ∧ l.poison = false ∧ atomOk n p.size.toNat p.addr.toNat = true)) ∧
    (∃ (n : Nat) (op : AtomSrc → Instr) (s : State) (p : Pkt) (g : Rgn) (e : Tlb) (l : LcLine), (n, op) ∈ ([(1, .faddI), (2, .faddF32), (3, .faddBf16), (4, .cas), (5, .minS), (6, .maxS), (7, .minU), (8, .maxU), (9, .minF32), (10, .maxF32), (11, .vfaddF32), (12, .vfaddI32)] : List (Nat × (AtomSrc → Instr))) ∧
      (Ready s p 6 g e l ∧ atomOk n p.size.toNat p.addr.toNat = false)) ∧
    (∃ (n : Nat) (op : AtomSrc → Instr) (s : State) (m : MPkt) (g : Rgn) (e : Tlb) (l : LcLine), (n, op) ∈ ([(1, .faddI), (2, .faddF32), (3, .faddBf16), (4, .cas), (5, .minS), (6, .maxS), (7, .minU), (8, .maxU), (9, .minF32), (10, .maxF32), (11, .vfaddF32), (12, .vfaddI32)] : List (Nat × (AtomSrc → Instr))) ∧
      (TileReady s m g e l ∧ g.mode ≤ 1 ∧ s.homes.filter = [] ∧ s.partFull (leafDpa e.entry e.bits (ptrOff m.addr.toNat) / 128 * 128) = none ∧ l.poison = false ∧ atomOk n m.size.toNat m.addr.toNat = true)) ∧
    (∃ (n : Nat) (op : AtomSrc → Instr) (s : State) (m : MPkt), (n, op) ∈ ([(1, .faddI), (2, .faddF32), (3, .faddBf16), (4, .cas), (5, .minS), (6, .maxS), (7, .minU), (8, .maxU), (9, .minF32), (10, .maxF32), (11, .vfaddF32), (12, .vfaddI32)] : List (Nat × (AtomSrc → Instr))) ∧
      (Running s ∧ Quiet s ∧ Come s m ∧ atomOk n m.size.toNat m.addr.toNat = false)) :=
  ⟨⟨1, .faddI, noSlot (sHost 1), { pk5 with size := 2, body := 5, aop := 1 }, rgnOf 7 (rgn7 1), leaf1 (homeOfPtr p1), line1, .head _, by decide +kernel⟩,
    ⟨1, .faddI, sHost 1, { pk5 with size := 7 }, rgnOf 7 (rgn7 1), leaf1 (homeOfPtr p1), line1, .head _, by decide +kernel⟩,
    ⟨1, .faddI, sHost 1, { mp with addr := BitVec.ofNat 64 p1, size := 3, flits := [(7, 0)] }, rgnOf 7 (rgn7 1), leaf1 (homeOfPtr p1), line1, .head _, by decide +kernel⟩,
    ⟨1, .faddI, sHost 1, { mp with size := 7 }, .head _, by decide +kernel⟩⟩

theorem witness_PublishedRegions_part1 :
    (∃ (s : State) (p : Pkt) (g : Rgn) (x : Staging), (PubReady s p 0x30 g ∧ s.stagingOf g.id p.host.toNat = some x ∧ x.pages ≠ [] ∧ bits p.body.toNat 127 64 = s.lastAccepted g ∧ s.versionsTaken g < 4)) ∧
    (∃ (s : State) (p : Pkt) (g : Rgn), (PubReady s p 0x30 g ∧ ((bits p.body.toNat 127 64 ≠ s.lastAccepted g → ∀ c ∈ s.pub.commits, c.region ≠ g.id)) ∧ ((bits p.body.toNat 127 64 ≠ s.lastAccepted g ∨ ((s.stagingOf g.id p.host.toNat).map (·.pages)).getD [] = [] ∨ 4 ≤ s.versionsTaken g)))) ∧
    (∃ (s : State) (p : Pkt) (g : Rgn) (c : Commit), (PubReady s p 0x30 g ∧ s.pub.commits = [c] ∧ c.region = g.id ∧ bits p.body.toNat 127 64 ≠ g.version + 1)) ∧
    (∃ (s : State) (region : BitVec 16), (Running s ∧ ((∀ c ∈ s.pub.commits, c.region = region.toNat → s.beat < c.at_)))) ∧
    (∃ (s : State) (region : BitVec 16) (g : Rgn) (c : Commit), (Running s ∧ NoQueue s ∧ Plain s ∧ s.pub.commits = [c] ∧ c.region = region.toNat ∧ c.at_ ≤ s.beat ∧ c.stale = [] ∧ c.version < 2 ^ 64) ∧
      (s.rgn? region.toNat = some g ∧ g.tier ≠ 2 ∧ ((∀ x ∈ c.pages, s.leafHeld g.space (x.1 * 0x10000) = false)) ∧ c.rsp.tile = none ∧ s.silent c.rsp = false)) ∧
    (∃ (s : State) (p : Pkt) (g : Rgn), PubReady s p 0x31 g) :=
  ⟨⟨{ sHost 2 with pub := { s0.pub with stagings := [stg] } }, { pk5 with body := 7 }, rgnOf 7 (rgn7 2), stg, by decide +kernel⟩,
    ⟨sHost 2, { pk5 with body := 7 + 2 ^ 64 }, rgnOf 7 (rgn7 2), by decide +kernel⟩,
    ⟨{ sHost 2 with pub := { s0.pub with commits := [cmt] } }, { pk5 with body := 7 + 2 ^ 65 }, rgnOf 7 (rgn7 2), cmt, by decide +kernel⟩,
    ⟨{ sHost 2 with pub := { s0.pub with commits := [{ cmt with at_ := 1001 }] } }, 7, by decide +kernel⟩,
    ⟨{ sHost 2 with pub := { s0.pub with commits := [cmt], subs := [(7, 5), (8, 5)] } }, 7, rgnOf 7 (rgn7 2), cmt, by decide +kernel, by decide +kernel⟩,
    ⟨{ sHost 2 with pub := { s0.pub with stagings := [stg] } }, { pk5 with body := 7 }, rgnOf 7 (rgn7 2), by decide +kernel⟩⟩

theorem witness_PublishedRegions_part2 :
    (∃ (s : State) (p : Pkt) (g : Rgn), PubReady s p 0x32 g) ∧
    (∃ (s : State) (p : Pkt) (g : Rgn) (x : Pin), (PubReady s p 0x33 g ∧ s.pub.pins = [x] ∧ s.pub.olds = [])) ∧
    (∃ (s : State), Running s) ∧
    (∃ (s : State) (p : Pkt) (g : Rgn), (PubReady s p 0x34 g ∧ (s.pub.subs.filter fun e => pubHome e.1 == pubHome g.id).length < 4096)) ∧
    (∃ (s : State) (p : Pkt) (g : Rgn), PubReady s p 0x35 g) ∧
    (∃ (s : State) (region : BitVec 16) (host : BitVec 12) (page : BitVec 32) (c : StagingCopy) (g : Rgn) (e : Tlb), (Running s ∧ s.pub.copies = [c] ∧ c.region = region.toNat ∧ c.host = host.toNat ∧ c.page = page.toNat ∧ c.waiting = [] ∧ s.pub.stagings = [] ∧ s.rgn? region.toNat = some g) ∧
      (s.tlbHit (pubHome region.toNat) g.space (page.toNat * 0x10000) = some e ∧ s.frameHeld (bits e.entry 47 16) = false ∧ s.frameHeld c.frame = false)) ∧
    (∃ (s : State), (Running s ∧ s.pub.copies = [])) :=
  ⟨⟨sHost 2, { pk5 with body := 7 }, rgnOf 7 (rgn7 2), by decide +kernel⟩,
    ⟨{ sHost 2 with pub := { s0.pub with pins := [⟨7, 0, 5, 900⟩] } }, { pk5 with body := 7 }, rgnOf 7 (rgn7 2), (⟨7, 0, 5, 900⟩ : Pin), by decide +kernel⟩,
    ⟨{ sHost 2 with beat := 2 ^ 40, pub := { s0.pub with pins := [⟨7, 0, 5, 900⟩] } }, by decide +kernel⟩,
    ⟨{ sHost 2 with pub := { s0.pub with subs := [(8, 5)] } }, { pk5 with body := 7 }, rgnOf 7 (rgn7 2), by decide +kernel⟩,
    ⟨{ sHost 2 with pub := { s0.pub with subs := [(7, 5)] } }, { pk5 with body := 7 }, rgnOf 7 (rgn7 2), by decide +kernel⟩,
    ⟨{ sHost 2 with homes := { (sHost 2).homes with tlb := [leaf1 (pubHome 7)] }, pub := { s0.pub with copies := [⟨7, 5, 0, 0x9000, []⟩] } }, 7, 5, 0, (⟨7, 5, 0, 0x9000, []⟩ : StagingCopy), rgnOf 7 (rgn7 2), leaf1 (pubHome 7), by decide +kernel, by decide +kernel⟩,
    ⟨sHost 2, by decide +kernel⟩⟩

theorem witness_MirroredPair_part1 :
    (∃ (s : State) (p : Pkt), (Running s ∧ s.mir.outOfStep = false ∧ bits p.body.toNat 3 0 = 1 ∧ bits p.body.toNat 193 182 ≠ 0xFFF ∧ s.mir.held = [] ∧ s.mir.handGot = [] ∧ s.disp.descs = [] ∧ s.hosts.routed = [])) ∧
    (∃ (s : State) (p : Pkt) (m : Stamp) (w : MirWait) (k : Pkt), (Running s ∧ Plain s ∧ s.disp.descs = [] ∧ s.hosts.routed = [] ∧ s.homes.txns = [] ∧ s.mir.handoff = false ∧ s.mir.sent = [m] ∧ s.mir.waits = [w]) ∧
      (bits p.body.toNat 3 0 = 1 ∧ m.home = bits p.body.toNat 133 128 ∧ m.mseq = bits p.body.toNat 181 134 ∧ m.host ≠ 0xFFF ∧ w.req.host = m.host ∧ w.req.tag = m.tag ∧ w.req.seq = m.seq ∧ w.req.tile = none) ∧
      (w.reply = [k] ∧ s.silent w.req = false)) ∧
    (∃ (s : State), (Running s ∧ s.disp.descs = [] ∧ s.hosts.routed = [] ∧ s.mir.handoff = false ∧ s.mir.sent = [])) ∧
    (∃ (s : State) (m : Stamp), (Running s ∧ s.orderer = false ∧ s.mir.outOfStep = false ∧ s.mir.got = [m] ∧ s.mir.held = [])) ∧
    (∃ (s : State) (m : Stamp), (Running s ∧ s.disp.descs = [] ∧ s.on F.homeMirCtlEn = true ∧ s.alone = false ∧ s.mir.outOfStep = false ∧ s.orderer = true ∧ s.mir.sent = [m] ∧ m.beat + s.rd F.homeMirCtlAckTmo ≤ s.beat) ∧
      (s.homes.regions = [] ∧ s.homes.txns = [] ∧ s.mir.waits = [])) ∧
    (∃ (s : State), (Running s ∧ s.disp.descs = [] ∧ ((s.on F.homeMirCtlEn = false ∨ s.alone = true ∨ s.mir.outOfStep = true)))) :=
  ⟨⟨sHost 2, { pk5 with opc := 0x2E, len := 4, body := 1 + (3 + 9 * 2 ^ 6 + 5 * 2 ^ 54 + 77 * 2 ^ 66) * 2 ^ 128 }, by decide +kernel⟩,
    ⟨{ sHost 2 with mir := { s0.mir with sent := [⟨3, 9, 5, 77, 0, 900⟩], waits := [mw] } }, { pk5 with opc := 0x2F, body := 1 + (3 + 9 * 2 ^ 6) * 2 ^ 128 }, (⟨3, 9, 5, 77, 0, 900⟩ : Stamp), mw, { pk with opc := 0x26, status := 0 }, by decide +kernel, by decide +kernel, by decide +kernel⟩,
    ⟨sHost 2, by decide +kernel⟩,
    ⟨{ sAt 312500 with mir := { s0.mir with got := [⟨3, 9, 5, 77, 0, 0⟩] } }, (⟨3, 9, 5, 77, 0, 0⟩ : Stamp), by decide +kernel⟩,
    ⟨{ ((sAt (2 ^ 40)).wr F.homeMirCtlEn 1).wr F.homeMirSyncOrderer 1 with mir := { s0.mir with sent := [⟨3, 9, 5, 77, 0, 0⟩] } }, (⟨3, 9, 5, 77, 0, 0⟩ : Stamp), by decide +kernel, by decide +kernel⟩,
    ⟨s0, by decide +kernel⟩⟩

theorem witness_MirroredPair_part2 :
    (∃ (s : State) (c : Cmd), (Running s ∧ Accepts s 672 c ∧ s.disp.descs = [] ∧ ((s.alone = false ∨ s.rd (F.fportLstatState s.partnerPort) ≠ 3 ∨ s.on F.homeMirSyncBusy = true)))) ∧
    (∃ (s : State) (c : Cmd), (Running s ∧ Accepts s 672 c ∧ s.disp.descs = [] ∧ s.alone = true ∧ s.rd (F.fportLstatState s.partnerPort) = 3 ∧ s.on F.homeMirSyncBusy = false ∧ s.homes.regions = [])) ∧
    (∃ (s : State), (Running s ∧ s.disp.descs = [] ∧ s.on F.homeMirSyncBusy = true ∧ s.mir.copyAt = none ∧ s.mir.sent = [] ∧ s.homes.txns = [] ∧ s.homes.regions = [])) ∧
    (∃ (s : State), (Running s ∧ s.disp.descs = [] ∧ s.on F.homeMirSyncBusy = false ∧ s.mir.returning = false)) ∧
    (∃ (s : State) (c : Cmd), (Running s ∧ Accepts s 672 c ∧ s.disp.descs = [] ∧ s.orderer = true ∧ s.on F.homeMirSyncDone = true ∧ s.mir.sent = [])) ∧
    (∃ (s : State) (c : Cmd), (Running s ∧ Accepts s 672 c ∧ s.disp.descs = [] ∧ ((s.orderer = false ∨ s.on F.homeMirSyncDone = false)))) :=
  ⟨⟨s0, cm, by decide +kernel⟩,
    ⟨((s0.wr F.homeMirCtlAlone 1).wr (F.fportLstatState 0) 3), cm, by decide +kernel⟩,
    ⟨(s0.wr F.homeMirSyncBusy 1).wr F.homeMirCtlAlone 1, by decide +kernel⟩,
    ⟨s0, by decide +kernel⟩,
    ⟨(s0.wr F.homeMirSyncOrderer 1).wr F.homeMirSyncDone 1, cm, by decide +kernel⟩,
    ⟨s0, cm, by decide +kernel⟩⟩

theorem witness_FlashPageMoves_part1 :
    (∃ (s : State), (Running s ∧ s.homes.recs = [])) ∧
    (∃ (s : State) (home : Fin 64) (index : BitVec 8) (x : FaultRec) (g : Rgn), (Running s ∧ s.homes.recs = [x] ∧ x.home = home.val ∧ x.idx = index.toNat ∧ x.state = 1 ∧ x.cause = 1 ∧ s.rgn? x.region = some g ∧ s.flash.moves = []) ∧
      (s.on (F.hdrStateInreset (852 + percOf x.page)) = false ∧ leafLoc (s.leafOf x.space x.page) = 2 ∧ 0 < s.rd (F.percCtlMaxInflight (percOf x.page)) ∧ s.freeList (percOf x.page) g.pcode = [] ∧ s.flash.fills = [])) ∧
    (∃ (s : State) (home : Fin 64) (index : BitVec 8) (x : FaultRec) (g : Rgn) (f : Nat) (fs : List Nat), (Running s ∧ s.homes.recs = [x] ∧ x.home = home.val ∧ x.idx = index.toNat ∧ x.state = 1 ∧ x.cause = 1 ∧ s.rgn? x.region = some g ∧ s.flash.moves = []) ∧
      (s.on (F.hdrStateInreset (852 + percOf x.page)) = false ∧ leafLoc (s.leafOf x.space x.page) = 2 ∧ 0 < s.rd (F.percCtlMaxInflight (percOf x.page)) ∧ s.leafHeld x.space (x.page * 0x10000) = false ∧ s.freeList (percOf x.page) g.pcode = f :: fs)) ∧
    (∃ (s : State) (space : BitVec 10) (page : BitVec 32) (m : FMove), (Running s ∧ s.flash.moves = [m] ∧ m.space = space.toNat ∧ m.page = page.toNat ∧ m.demote = false ∧ m.stage = 0)) ∧
    (∃ (s : State) (space : BitVec 10) (page : BitVec 32), (Running s ∧ ((∀ m ∈ s.flash.moves, m.space = space.toNat → m.page = page.toNat → m.demote = true ∨ m.stage ≠ 0)))) ∧
    (∃ (s : State) (space : BitVec 10) (page : BitVec 32) (m : FMove) (g : Rgn), (Running s ∧ s.flash.moves = [m] ∧ m.space = space.toNat ∧ m.page = page.toNat ∧ m.demote = false ∧ m.stage = 1 ∧ s.rgn? m.region = some g ∧ s.leafHeld space.toNat (page.toNat * 0x10000) = false) ∧
      (s.recHeld g page.toNat = none ∧ s.homes.recs = [] ∧ s.flash.fills = [] ∧ s.disp.descs = [])) ∧
    (∃ (s : State) (space : BitVec 10) (page : BitVec 32), (Running s ∧ s.disp.descs = [] ∧ ((∀ m ∈ s.flash.moves, m.space = space.toNat → m.page = page.toNat → m.demote = true ∨ m.stage ≠ 1)))) ∧
    (∃ (s : State) (d : Fin 2) (zone : Fin 4), (Running s ∧ s.on (F.hdrStateInreset (852 + d.val)) = false ∧ s.rd (F.percWmHighWm d.val) ≤ (s.freeList d.val zone.val).length ∧ s.rd (F.percWmLowWm d.val) ≤ (s.freeList d.val zone.val).length ∧ s.flash.fills = [] ∧ s.flash.copies = [])) ∧
    (∃ (s : State) (d : Fin 2) (zone : Fin 4) (g : Rgn) (page : Nat) (idx : Nat), (Running s ∧ Quiet s ∧ s.homes.filter = [] ∧ s.on (F.hdrStateInreset (852 + d.val)) = false ∧ (s.freeList d.val zone.val).length < s.rd (F.percWmLowWm d.val) ∧ s.on (F.percCtlEn d.val) = true ∧ s.on (F.percCtlPause d.val) = false ∧ s.flash.fills = []) ∧
      (s.flash.copies = [] ∧ (s.flash.moves.filter fun m => m.perc == d.val).length < s.rd (F.percCtlMaxInflight d.val) ∧ s.recentStarts d.val < s.rd (F.percWmDemRate d.val) ∧ s.victim d.val zone.val = some (g, page, idx) ∧ g.id < 2 ^ 16 ∧ page < 2 ^ 32)) :=
  ⟨⟨sFlash cold1, by decide +kernel⟩,
    ⟨{ sFlash cold1 with homes := { (sFlash cold1).homes with recs := [fr0] } }, 63, 255, fr0, rgnOf 7 rgnT, by decide +kernel, by decide +kernel⟩,
    ⟨{ sFlash cold1 with homes := { (sFlash cold1).homes with recs := [fr0] }, flash := { s0.flash with free := [(percOf 0, 0x7001)] } }, 63, 255, fr0, rgnOf 7 rgnT, 0x7001, [], by decide +kernel, by decide +kernel⟩,
    ⟨{ sFlash cold1 with flash := { s0.flash with moves := [mv false 0] } }, 1, 0, mv false 0, by decide +kernel⟩,
    ⟨{ sFlash cold1 with flash := { s0.flash with moves := [mv true 0] } }, 1, 0, by decide +kernel⟩,
    ⟨{ sFlash cold1 with flash := { s0.flash with moves := [mv false 1] } }, 1, 0, mv false 1, rgnOf 7 rgnT, by decide +kernel, by decide +kernel⟩,
    ⟨{ sFlash cold1 with flash := { s0.flash with moves := [mv false 0] } }, 1, 0, by decide +kernel⟩,
    ⟨(s0.wr (F.percWmHighWm 1) 0).wr (F.percWmLowWm 1) 0, 1, 3, by decide +kernel⟩,
    ⟨sWarm, 0, 1, rgnOf 7 rgnT, 0, 0, by decide +kernel, by decide +kernel⟩⟩

theorem witness_FlashPageMoves_part2 :
    (∃ (s : State) (space : BitVec 10) (page : BitVec 32), (Running s ∧ s.disp.descs = [] ∧ ((∀ m ∈ s.flash.moves, m.space = space.toNat → m.page = page.toNat → m.demote = false ∨ m.stage ≠ 0)))) ∧
    (∃ (s : State) (space : BitVec 10) (page : BitVec 32) (m : FMove), (Running s ∧ NoQueue s ∧ s.homes.txns = [] ∧ s.flash.moves = [m] ∧ m.space = space.toNat ∧ m.page = page.toNat ∧ m.demote = true ∧ m.stage = 0) ∧
      (s.wanted space.toNat page.toNat = true ∧ s.flash.fills = [] ∧ s.frameHeld m.frame = false ∧ s.mir.got = [] ∧ ((∀ x ∈ s.homes.recs, x.waiters = [])))) ∧
    (∃ (s : State) (space : BitVec 10) (page : BitVec 32), (Running s ∧ s.disp.descs = [] ∧ ((∀ m ∈ s.flash.moves, m.space = space.toNat → m.page = page.toNat → m.demote = false ∨ m.stage ≠ 1)))) ∧
    (∃ (s : State) (space : BitVec 10) (page : BitVec 32) (m : FMove) (g : Rgn), (Running s ∧ s.disp.descs = [] ∧ s.flash.moves = [m] ∧ m.space = space.toNat ∧ m.page = page.toNat ∧ m.demote = true ∧ m.stage = 1 ∧ s.rgn? m.region = some g) ∧
      (s.wanted space.toNat page.toNat = false ∧ s.leafHeld space.toNat (page.toNat * 0x10000) = false ∧ s.recHeld g page.toNat = none ∧ s.flash.fills = [] ∧ ((tst (s.pageRec g page.toNat) 41 = true ∨ (g.pcode = 0 ∧ s.drv (m.handle / 2 ^ 28 % 16) = 2))))) ∧
    (∃ (s : State) (space : BitVec 10) (page : BitVec 32) (g : Rgn), (Running s ∧ s.rgnAt space.toNat (page.toNat * 0x10000) = some g ∧ g.tier = 2 ∧ 0 < s.rd F.percAreaRecLen ∧ s.recHeld g page.toNat = none ∧ s.flash.touched = [] ∧ s.flash.touches = [])) ∧
    (∃ (s : State) (space : BitVec 10) (page : BitVec 32), (Running s ∧ s.rgnAt space.toNat (page.toNat * 0x10000) = none)) ∧
    (∃ (s : State) (d : Fin 2), (Running s ∧ s.flash.epochAt.length = 2 ∧ s.flash.epochAt.getD d.val 0 + s.rd (F.percCtlEpoch d.val) * 31250 ≤ s.beat ∧ ((∀ g ∈ s.tieredRgns, ∀ p ∈ g.pages, percOf p = d.val → s.recHeld g p = none)))) ∧
    (∃ (s : State) (d : Fin 2), (Running s ∧ s.beat < s.flash.epochAt.getD d.val 0 + s.rd (F.percCtlEpoch d.val) * 31250)) ∧
    (∃ (s : State) (d : Fin 2) (c : Cmd), (Running s ∧ Accepts s (852 + d.val) c ∧ s.flash.fills = [])) :=
  ⟨⟨{ sFlash cold1 with flash := { s0.flash with moves := [mv true 1] } }, 1, 0, by decide +kernel⟩,
    ⟨{ sFlash cold1 with homes := { (sFlash cold1).homes with recs := [{ fr0 with cause := 2 }] }, flash := { s0.flash with moves := [mv true 0] } }, 1, 0, mv true 0, by decide +kernel, by decide +kernel⟩,
    ⟨{ sFlash cold1 with flash := { s0.flash with moves := [mv true 0] } }, 1, 0, by decide +kernel⟩,
    ⟨{ sFlash cold1 with flash := { s0.flash with moves := [mv true 1] } }, 1, 0, mv true 1, rgnOf 7 rgnT, by decide +kernel, by decide +kernel⟩,
    ⟨sFlash cold1, 1, 15, rgnOf 7 rgnT, by decide +kernel⟩,
    ⟨sFlash cold1, 1, 16, by decide +kernel⟩,
    ⟨{ s0 with beat := 2 ^ 40, flash := { s0.flash with touched := [(3, 1, 0), (3, 1, 16)] } }, 1, by decide +kernel⟩,
    ⟨{ s0 with flash := { s0.flash with epochAt := [0, 1] } }, 1, by decide +kernel⟩,
    ⟨sDram, 1, cm, by decide +kernel⟩⟩

theorem witness_Drives_part1 :
    (∃ (s : State) (n : Fin 16), (Running s ∧ s.drv n.val = 0 ∧ s.on (F.nvpDrvEn n.val) = true ∧ s.on (F.nvpDrvSlotOff n.val) = false)) ∧
    (∃ (s : State) (n : Fin 16), (Running s ∧ ((s.drv n.val ≠ 0 ∨ s.on (F.nvpDrvEn n.val) = false ∨ s.on (F.nvpDrvSlotOff n.val) = true)))) ∧
    (∃ (s : State) (n : Fin 16) (m : FMove), (Running s ∧ s.disp.descs = [] ∧ s.flash.moves = [m] ∧ m.handle / 2 ^ 28 % 16 = n.val ∧ m.demote = false ∧ m.stage = 0 ∧ m.since + 625000 ≤ s.beat ∧ s.drv n.val = 2)) ∧
    (∃ (s : State), (Running s ∧ s.disp.descs = [] ∧ ((∀ m ∈ s.flash.moves, s.beat < m.since + (if m.demote = true then 6250000 else 625000))))) ∧
    (∃ (s : State) (n : Fin 16), (Running s ∧ s.disp.descs = [] ∧ s.flash.moves = [] ∧ s.drvReads n.val = true)) :=
  ⟨⟨s0.wr (F.nvpDrvEn 15) 1, 15, by decide +kernel⟩,
    ⟨s0.wr (F.nvpDrvState 15) 2, 15, by decide +kernel⟩,
    ⟨{ (sAt (2 ^ 30)).wr (F.nvpDrvState 15) 2 with flash := { s0.flash with moves := [{ mv false 0 with handle := 15 * 2 ^ 28 }] } }, 15, { mv false 0 with handle := 15 * 2 ^ 28 }, by decide +kernel⟩,
    ⟨{ (sAt 900).wr (F.nvpDrvState 15) 2 with flash := { s0.flash with moves := [{ mv false 0 with handle := 15 * 2 ^ 28 }] } }, by decide +kernel⟩,
    ⟨s0.wr (F.nvpDrvState 15) 2, 15, by decide +kernel⟩⟩

theorem witness_Drives_part2 :
    (∃ (s : State) (n : Fin 16), (Running s ∧ s.disp.descs = [] ∧ s.flash.moves = [] ∧ s.drvReads n.val = true)) ∧
    (∃ (s : State) (n : Fin 16), (Running s ∧ s.disp.descs = [] ∧ s.drv n.val = 4)) ∧
    (∃ (s : State) (n : Fin 16) (c : Cmd), (Running s ∧ Accepts s (832 + n.val) c ∧ s.drv n.val = 2 ∧ s.on (F.nvpDrvRetire n.val) = false ∧ s.on (F.nvpDrvSlotOff n.val) = false)) ∧
    (∃ (s : State) (n : Fin 16), (Running s ∧ s.disp.descs = [] ∧ s.drv n.val = 3 ∧ s.extentsOn n.val = [] ∧ ((∀ m ∈ s.flash.moves, s.moveOn m n.val = false)))) ∧
    (∃ (s : State) (n : Fin 16), (Running s ∧ s.disp.descs = [] ∧ s.drv n.val ≠ 3)) ∧
    (∃ (s : State), Running s) :=
  ⟨⟨s0.wr (F.nvpDrvState 15) 2, 15, by decide +kernel⟩,
    ⟨s0.wr (F.nvpDrvState 15) 4, 15, by decide +kernel⟩,
    ⟨s0.wr (F.nvpDrvState 15) 2, 15, cm, by decide +kernel⟩,
    ⟨{ s0.wr (F.nvpDrvState 15) 3 with flash := { s0.flash with used := [(15, 1), (14, 1)] } }, 15, by decide +kernel⟩,
    ⟨s0.wr (F.nvpDrvState 15) 2, 15, by decide +kernel⟩,
    ⟨s0, by decide +kernel⟩⟩

theorem witness_ScalarOperations_part1 :
    (∃ (f : Word → Word → Word) (op : CoreAt → BitVec 5 → BitVec 5 → BitVec 5 → Instr) (s : State) (a : CoreAt), (f, op) ∈ ([((fun x y => x + y), .add), ((fun x y => x - y), .sub), ((fun x y => x &&& y), .and), ((fun x y => x ||| y), .or), ((fun x y => x ^^^ y), .xor), ((fun x y => x <<< (y.toNat % 64)), .shl), ((fun x y => x >>> (y.toNat % 64)), .shr), ((fun x y => x.sshiftRight (y.toNat % 64)), .sra), ((fun x y => x * y), .mul), ((fun x y => if x.slt y then 1 else 0), .slt), ((fun x y => if x.ult y then 1 else 0), .sltu), ((fun x y => if y.slt x then y else x), .min), ((fun x y => if x.slt y then y else x), .max)] : List ((Word → Word → Word) × (CoreAt → BitVec 5 → BitVec 5 → BitVec 5 → Instr))) ∧
      CoreReady s a) ∧
    (∃ (f : Word → Word → Word) (op : CoreAt → BitVec 5 → BitVec 5 → BitVec 8 → Instr) (s : State) (a : CoreAt), (f, op) ∈ ([((fun x y => x + y), .addi), ((fun x y => x &&& y), .andi), ((fun x y => x ||| y), .ori), ((fun x y => x ^^^ y), .xori), ((fun x y => x <<< (y.toNat % 64)), .shli), ((fun x y => x >>> (y.toNat % 64)), .shri), ((fun x y => x.sshiftRight (y.toNat % 64)), .srai)] : List ((Word → Word → Word) × (CoreAt → BitVec 5 → BitVec 5 → BitVec 8 → Instr))) ∧
      CoreReady s a) ∧
    (∃ (s : State) (a : CoreAt), CoreReady s a) ∧
    (∃ (s : State) (a : CoreAt) (i : Inst) (p : Placement), (CoreReady s a ∧ s.instAt a.tile.val a.core.val = some i ∧ i.place = some p.num ∧ s.place? p.num = some p)) ∧
    (∃ (c : Word → Word → Bool) (op : CoreAt → BitVec 5 → BitVec 5 → BitVec 8 → Instr) (s : State) (a : CoreAt), (c, op) ∈ ([((fun x y => x == y), .beq), ((fun x y => x != y), .bne), ((fun x y => x.slt y), .blt), ((fun x y => !(x.slt y)), .bge)] : List ((Word → Word → Bool) × (CoreAt → BitVec 5 → BitVec 5 → BitVec 8 → Instr))) ∧
      (CoreReady s a ∧ s.inPattern a.tile.val a.core.val = true)) ∧
    (∃ (c : Word → Word → Bool) (op : CoreAt → BitVec 5 → BitVec 5 → BitVec 8 → Instr) (s : State) (a : CoreAt) (ra : BitVec 5) (rb : BitVec 5), (c, op) ∈ ([((fun x y => x == y), .beq), ((fun x y => x != y), .bne), ((fun x y => x.slt y), .blt), ((fun x y => !(x.slt y)), .bge)] : List ((Word → Word → Bool) × (CoreAt → BitVec 5 → BitVec 5 → BitVec 8 → Instr))) ∧
      (CoreReady s a ∧ InDynamic s a ∧ (s.core (coreKey a)).branch = none ∧ (sregOf s a ra).poison = false ∧ (sregOf s a rb).poison = false)) :=
  ⟨⟨(fun x y => x + y), .add, sCore, at3, .head _, by decide +kernel⟩,
    ⟨(fun x y => x + y), .addi, sCore, at3, .head _, by decide +kernel⟩,
    ⟨sCore, at3, by decide +kernel⟩,
    ⟨sRun 1, at3, insX 1, plcX 1, by decide +kernel⟩,
    ⟨(fun x y => x == y), .beq, sRun 0, at3, .head _, by decide +kernel⟩,
    ⟨(fun x y => x == y), .beq, sCore, at3, 1, 2, .head _, by decide +kernel⟩⟩

theorem witness_ScalarOperations_part2 :
    (∃ (c : Word → Word → Bool) (op : CoreAt → BitVec 5 → BitVec 5 → BitVec 8 → Instr) (s : State) (a : CoreAt) (ra : BitVec 5) (rb : BitVec 5) (i : _), (c, op) ∈ ([((fun x y => x == y), .beq), ((fun x y => x != y), .bne), ((fun x y => x.slt y), .blt), ((fun x y => !(x.slt y)), .bge)] : List ((Word → Word → Bool) × (CoreAt → BitVec 5 → BitVec 5 → BitVec 8 → Instr))) ∧
      (CoreReady s a ∧ InDynamic s a ∧ RunsAlone s a i ∧ ((sregOf s a ra).poison || (sregOf s a rb).poison) = true)) ∧
    (∃ (s : State) (a : CoreAt), (CoreReady s a ∧ InDynamic s a)) ∧
    (∃ (s : State) (a : CoreAt), (CoreReady s a ∧ InDynamic s a)) ∧
    (∃ (s : State) (a : CoreAt), (Running s ∧ s.inPattern a.tile.val a.core.val = true)) ∧
    (∃ (s : State) (a : CoreAt), CoreReady s a) ∧
    (∃ (s : State) (a : CoreAt) (n : Nat) (slot : Nat) (e : Effect), (CoreOn s a ∧ s.tiles.pend = [⟨a.tile.val, a.core.val, n, slot, e⟩] ∧ n ≤ issueCycle s a 4)) ∧
    (∃ (s : State) (a : CoreAt) (v : BitVec 32) (cc : Nat), (Running s ∧ s.tileState a.tile.val ≤ 1 ∧ s.pwr.halt = none ∧ s.on (F.hdrStateInreset a.tile.val) = false ∧ InDynamic s a ∧ MeshStill s ∧ s.tiles.pend = [] ∧ (s.core (coreKey a)).held = []) ∧
      ((s.core (coreKey a)).waiting = some (cc, v) ∧ (SMap.get 0#32 s.tiles.counts (16 * a.tile.val + cc) - v).toInt < 0)) :=
  ⟨⟨(fun x y => x == y), .beq, sRun 1, at3, 1, 3, insX 1, .head _, by decide +kernel⟩,
    ⟨sCore, at3, by decide +kernel⟩,
    ⟨sCore, at3, by decide +kernel⟩,
    ⟨sRun 0, at3, by decide +kernel⟩,
    ⟨sCore, at3, by decide +kernel⟩,
    ⟨sPend [⟨671, 3, 100, 0, .sreg 0 7 true⟩], at3, 100, 0, .sreg 0 7 true, by decide +kernel⟩,
    ⟨sCore.setCore (128 * 671 + 3) (fun c => { c with waiting := some (2, 9) }), at3, 9, 2, by decide +kernel, by decide +kernel⟩⟩

theorem witness_MemoryOperations_part1 :
    (∃ (s : State) (a : CoreAt) (ra : BitVec 5), (CoreReady s a ∧ (sregOf s a ra).poison = false)) ∧
    (∃ (s : State) (a : CoreAt) (ra : BitVec 5), (CoreReady s a ∧ (sregOf s a ra).poison = false)) ∧
    (∃ (s : State) (a : CoreAt) (ra : BitVec 5), (CoreReady s a ∧ (sregOf s a ra).poison = false)) ∧
    (∃ (s : State) (a : CoreAt) (ra : BitVec 5), (CoreReady s a ∧ (sregOf s a ra).poison = false)) ∧
    (∃ (s : State) (a : CoreAt) (ra : BitVec 5), (CoreReady s a ∧ (sregOf s a ra).poison = false ∧ InDynamic s a)) ∧
    (∃ (s : State) (a : CoreAt) (ra : BitVec 5), (CoreReady s a ∧ (sregOf s a ra).poison = false)) ∧
    (∃ (s : State) (a : CoreAt) (ra : BitVec 5), (CoreReady s a ∧ (sregOf s a ra).poison = false)) :=
  ⟨⟨sCore, at3, 2, by decide +kernel⟩,
    ⟨sCore, at3, 2, by decide +kernel⟩,
    ⟨sCore, at3, 2, by decide +kernel⟩,
    ⟨sCore, at3, 2, by decide +kernel⟩,
    ⟨sCore, at3, 2, by decide +kernel⟩,
    ⟨sCore, at3, 2, by decide +kernel⟩,
    ⟨sCore, at3, 2, by decide +kernel⟩⟩

theorem witness_MemoryOperations_part2 :
    (∃ (s : State) (a : CoreAt) (addr : Nat) (w : Nat) (slot : Nat) (act : Bank), BanksFree s a (issueCycle s a 4) ∧
      (CoreOn s a ∧ s.tiles.pend = [⟨a.tile.val, a.core.val, issueCycle s a 4, slot, .bank addr w false act⟩])) ∧
    (∃ (s : State) (a : CoreAt) (ra : BitVec 5) (vr : BitVec 6) (cc : BitVec 4) (off : BitVec 12) (op : _), op ∈ [Instr.dreq a ra off, .dld a vr ra cc, .waitc a cc ra, .clrc a cc ra] ∧
      (CoreReady s a ∧ ((∀ e ∈ s.tiles.cores, e.2.held = [])) ∧ s.inPattern a.tile.val a.core.val = true)) ∧
    (∃ (s : State) (a : CoreAt) (rd : BitVec 5) (ra : BitVec 5) (vr : BitVec 6) (cc : BitVec 4) (off : BitVec 12) (i : Inst) (op : _), op ∈ [Instr.vld a vr ra off, .vst a vr ra off, .sld a rd ra off, .sst a rd ra off, .send a ra off, .sende a ra off, .dreq a ra off, .dld a vr ra cc, .waitc a cc ra, .clrc a cc ra] ∧
      (CoreReady s a ∧ ((∀ e ∈ s.tiles.cores, e.2.held = [])) ∧ (sregOf s a ra).poison = true ∧ RunsAlone s a i ∧ InDynamic s a)) ∧
    (∃ (s : State) (a : CoreAt) (ra : BitVec 5), (CoreReady s a ∧ InDynamic s a ∧ (sregOf s a ra).poison = false)) ∧
    (∃ (s : State) (a : CoreAt) (ra : BitVec 5), (CoreReady s a ∧ (sregOf s a ra).poison = false ∧ InDynamic s a)) ∧
    (∃ (s : State) (a : CoreAt) (ra : BitVec 5), (CoreReady s a ∧ (sregOf s a ra).poison = false ∧ InDynamic s a ∧ ((∀ e ∈ s.tiles.cores, e.2.held = [])))) ∧
    (∃ (s : State) (a : CoreAt), CoreReady s a) ∧
    (∃ (s : State) (a : CoreAt) (b : CoreAt) (cc : BitVec 4) (ra : BitVec 5) (v : BitVec 32), (CoreReady s a ∧ InDynamic s a ∧ InDynamic s b ∧ (sregOf s a ra).poison = false ∧ b.tile = a.tile ∧ b.core ≠ a.core ∧ (s.core (coreKey b)).held = [.nop b] ∧ (s.core (coreKey b)).waiting = some (cc.toNat, v)) ∧
      ((∀ e ∈ s.tiles.cores, e.2.held ≠ [] → e = (coreKey b, s.core (coreKey b))))) :=
  ⟨⟨sPend [⟨671, 3, 100, 1, .bank 0x100 32 false (.load 5)⟩], at3, 0x100, 32, 1, .load 5, ⟨rfl, rfl, fun _ => rfl⟩, by decide +kernel⟩,
    ⟨sRun 0, at3, 3, 5, 0, 0, Instr.dreq (at3) (3) (0), .head _, by decide +kernel⟩,
    ⟨sRun 1, at3, 1, 3, 5, 0, 0, insX 1, Instr.vld (at3) (5) (3) (0), .head _, by decide +kernel⟩,
    ⟨sCore, at3, 2, by decide +kernel⟩,
    ⟨sCore, at3, 1, by decide +kernel⟩,
    ⟨sCore, at3, 1, by decide +kernel⟩,
    ⟨sCore, at3, by decide +kernel⟩,
    ⟨sCore.setCore (128 * 671 + 4) (fun c => { c with waiting := some (2, 9), held := [.nop at4] }), at3, at4, 2, 1, 9, by decide +kernel, by decide +kernel⟩⟩

theorem witness_VectorOperations_part1 :
    (∃ (useD : Bool) (f : BitVec 3 → Nat → Nat → Nat → Nat × Nat) (op : CoreAt → BitVec 6 → BitVec 6 → BitVec 6 → BitVec 3 → Instr) (s : State) (a : CoreAt) (vd : BitVec 6) (va : BitVec 6) (vb : BitVec 6) (rm : BitVec 3) (bad : Nat → Bool), (useD, f, op) ∈ ([(true, (fun rm x y z => fmaF32 (roundV rm.toNat).1 x y z), .vfma), (false, (fun rm x y _ => addF32 (roundV rm.toNat).1 x y), .vadd), (false, (fun rm x y _ => addF32 (roundV rm.toNat).1 x (negF32 y)), .vsub), (false, (fun rm x y _ => mulF32 (roundV rm.toNat).1 x y), .vmul)] : List (Bool × (BitVec 3 → Nat → Nat → Nat → Nat × Nat) × (CoreAt → BitVec 6 → BitVec 6 → BitVec 6 → BitVec 3 → Instr))) ∧
      ((∀ j, bad j = ((vregOf s a va).bad j || (vregOf s a vb).bad j || (useD && (vregOf s a vd).bad j)))) ∧
      CoreReady s a) ∧
    (∃ (f : Nat → Nat → Nat × Nat) (op : CoreAt → BitVec 6 → BitVec 6 → BitVec 6 → Instr) (s : State) (a : CoreAt) (va : BitVec 6) (vb : BitVec 6) (bad : Nat → Bool), (f, op) ∈ ([((fun x y => maxMinF32 true x y), .vmax), ((fun x y => maxMinF32 false x y), .vmin)] : List ((Nat → Nat → Nat × Nat) × (CoreAt → BitVec 6 → BitVec 6 → BitVec 6 → Instr))) ∧
      ((∀ j, bad j = ((vregOf s a va).bad j || (vregOf s a vb).bad j))) ∧
      CoreReady s a) ∧
    (∃ (s : State) (a : CoreAt) (va : BitVec 6) (vb : BitVec 6) (cond : BitVec 4) (bad : Nat → Bool), ((∀ j, bad j = ((vregOf s a va).bad j || (vregOf s a vb).bad j))) ∧
      (CoreReady s a ∧ cond.toNat ≤ 3)) ∧
    (∃ (s : State) (cond : BitVec 4), (Running s ∧ 3 < cond.toNat)) ∧
    (∃ (s : State) (a : CoreAt), CoreReady s a) ∧
    (∃ (s : State) (a : CoreAt), CoreReady s a) :=
  ⟨⟨true, (fun rm x y z => fmaF32 (roundV rm.toNat).1 x y z), .vfma, sCore, at3, 6, 4, 5, 5, _, .head _, fun _ => rfl, by decide +kernel⟩,
    ⟨(fun x y => maxMinF32 true x y), .vmax, sCore, at3, 4, 5, _, .head _, fun _ => rfl, by decide +kernel⟩,
    ⟨sCore, at3, 4, 5, 3, _, fun _ => rfl, by decide +kernel⟩,
    ⟨sCore, 4, by decide +kernel⟩,
    ⟨sCore, at3, by decide +kernel⟩,
    ⟨sCore, at3, by decide +kernel⟩⟩

theorem witness_VectorOperations_part2 :
    (∃ (s : State) (a : CoreAt), CoreReady s a) ∧
    (∃ (n : Nat) (op : CoreAt → BitVec 6 → BitVec 6 → Instr) (s : State) (a : CoreAt), (n, op) ∈ ([(1, .exp), (2, .exp2), (3, .log), (4, .log2), (5, .rcp), (6, .rsqrt)] : List (Nat × (CoreAt → BitVec 6 → BitVec 6 → Instr))) ∧
      CoreReady s a) ∧
    (∃ (s : State) (a : CoreAt) (vd : BitVec 6) (va : BitVec 6) (bad : Nat → Bool), ((∀ j, bad j = ((vregOf s a va).bad j || (vregOf s a vd).bad j))) ∧
      CoreReady s a) ∧
    (∃ (s : State) (a : CoreAt) (vd : BitVec 6) (va : BitVec 6) (vb : BitVec 6) (fa : BitVec 4) (fb : BitVec 4) (h : Bool) (rm : BitVec 3) (bad : Nat → Bool) (r : Nat → Nat × Nat), ((∀ j, bad j = ((vregOf s a va).bad j || (vregOf s a vb).bad j || (vregOf s a vd).bad j))) ∧
      ((∀ j, r j = fmaFV (roundV rm.toNat).1 (decodeF fa.toNat (if h = true then bits ((vregOf s a va).lane j) 31 16 else bits ((vregOf s a va).lane j) 15 0)) (decodeF fb.toNat (if h = true then bits ((vregOf s a vb).lane j) 31 16 else bits ((vregOf s a vb).lane j) 15 0)) (decodeF 0 ((vregOf s a vd).lane j)))) ∧
      (CoreReady s a ∧ ((fa = 1 ∨ fa = 2) ∧ (fb = 1 ∨ fb = 2)))) ∧
    (∃ (s : State) (a : CoreAt) (vd : BitVec 6) (va : BitVec 6) (vb : BitVec 6) (fa : BitVec 4) (fb : BitVec 4) (h : Bool) (rm : BitVec 3) (bad : Nat → Bool) (r : Nat → Nat × Nat), ((∀ j, bad j = ((vregOf s a va).bad j || (vregOf s a vb).bad j || (vregOf s a vd).bad j))) ∧
      ((∀ j, r j = fmaFV (roundV rm.toNat).1 (decodeF fa.toNat (if h = true then bits ((vregOf s a va).lane j) 31 16 else bits ((vregOf s a va).lane j) 15 0)) (decodeF fb.toNat (if h = true then bits ((vregOf s a vb).lane j) 31 16 else bits ((vregOf s a vb).lane j) 15 0)) (decodeF 0 ((vregOf s a vd).lane j)))) ∧
      (CoreReady s a ∧ (¬((fa = 1 ∨ fa = 2) ∧ (fb = 1 ∨ fb = 2))))) ∧
    (∃ (four : Bool) (n : Nat) (op : CoreAt → BitVec 6 → BitVec 6 → BitVec 6 → BitVec 4 → BitVec 4 → Bool → BitVec 3 → BitVec 2 → Bool → BitVec 4 → Instr) (s : State) (a : CoreAt) (va : BitVec 6) (vb : BitVec 6) (fa : BitVec 4) (fb : BitVec 4) (h : Bool) (rsp : BitVec 4) (bad : Nat → Bool) (ps : Nat → List (FV × Nat)), (four, n, op) ∈ ([(false, 2, .vdot8), (true, 4, .vdot4)] : List (Bool × Nat × (CoreAt → BitVec 6 → BitVec 6 → BitVec 6 → BitVec 4 → BitVec 4 → Bool → BitVec 3 → BitVec 2 → Bool → BitVec 4 → Instr))) ∧
      ((∀ j, bad j = (dotScaleBad s a rsp || (vregOf s a va).bad j || (vregOf s a vb).bad j))) ∧
      ((∀ j, ps j = laneProducts (vregOf s a va) (vregOf s a vb) fa.toNat fb.toNat n h (dotScale s a rsp 0) (dotScale s a rsp 1) j)) ∧
      CoreReady s a) :=
  ⟨⟨sCore, at3, by decide +kernel⟩,
    ⟨1, .exp, sCore, at3, .head _, by decide +kernel⟩,
    ⟨sCore, at3, 5, 4, _, fun _ => rfl, by decide +kernel⟩,
    ⟨sCore, at3, 5, 4, 5, 1, 2, true, 0, _, _, fun _ => rfl, fun _ => rfl, by decide +kernel⟩,
    ⟨sCore, at3, 5, 4, 5, 1, 3, true, 0, _, _, fun _ => rfl, fun _ => rfl, by decide +kernel⟩,
    ⟨false, 2, .vdot8, sCore, at3, 4, 5, 3, 4, true, 0, _, _, .head _, fun _ => rfl, fun _ => rfl, by decide +kernel⟩⟩

theorem witness_AccumulatorsAndFormats_part1 :
    (∃ (s : State) (a : CoreAt), CoreReady s a) ∧
    (∃ (s : State) (a : CoreAt), CoreReady s a) ∧
    (∃ (s : State) (a : CoreAt), CoreReady s a) ∧
    (∃ (s : State) (a : CoreAt) (acc : BitVec 2) (bad : Nat → Bool), ((∀ j, bad j = ((s.core (coreKey a)).acc acc.toNat j).poison)) ∧
      CoreReady s a) ∧
    (∃ (s : State) (a : CoreAt) (va : BitVec 6) (fmt : BitVec 4) (part : BitVec 3) (bad : Nat → Bool), ((∀ j, bad j = (vregOf s a va).badElem (boxBits fmt.toNat) (8 * part.toNat + j))) ∧
      (CoreReady s a ∧ fmt.toNat ≤ 0xB ∧ 8 * boxBits fmt.toNat * (part.toNat + 1) ≤ 256)) ∧
    (∃ (s : State) (fmt : BitVec 4) (part : BitVec 3), (Running s ∧ ((0xB < fmt.toNat ∨ 256 < 8 * boxBits fmt.toNat * (part.toNat + 1))))) ∧
    (∃ (s : State) (fmt : BitVec 4) (part : BitVec 3), (Running s ∧ ((0xB < fmt.toNat ∨ 256 < 8 * boxBits fmt.toNat * (part.toNat + 1))))) :=
  ⟨⟨sCore, at3, by decide +kernel⟩,
    ⟨sCore, at3, by decide +kernel⟩,
    ⟨sCore, at3, by decide +kernel⟩,
    ⟨sCore, at3, 3, _, fun _ => rfl, by decide +kernel⟩,
    ⟨sCore, at3, 4, 3, 3, _, fun _ => rfl, by decide +kernel⟩,
    ⟨sCore, 3, 4, by decide +kernel⟩,
    ⟨sCore, 12, 0, by decide +kernel⟩⟩

theorem witness_AccumulatorsAndFormats_part2 :
    (∃ (s : State) (fmt : BitVec 4), (Running s ∧ 0xB < fmt.toNat)) ∧
    (∃ (s : State) (fmt : BitVec 4), (Running s ∧ fmt ≠ 5 ∧ fmt ≠ 6)) ∧
    (∃ (s : State) (va : BitVec 6) (fmt : BitVec 4), (Running s ∧ (va.toNat % 4 ≠ 0 ∨ isMx fmt.toNat = false))) ∧
    (∃ (s : State) (a : CoreAt) (va : BitVec 6) (fmt : BitVec 4) (rm : BitVec 3) (satf : Bool) (part : BitVec 3) (srp : BitVec 2) (base : Nat) (e : Nat → Nat × Nat × Bool), base = 8 * boxBits fmt.toNat * part.toNat ∧
      ((∀ k, e k = convert8 (s.core (coreKey a)) (vregOf s a va) fmt.toNat rm satf srp s.free k)) ∧
      (CoreReady s a ∧ fmt.toNat ≤ 0xB ∧ 8 * boxBits fmt.toNat * (part.toNat + 1) ≤ 256)) ∧
    (∃ (s : State) (a : CoreAt) (ra : BitVec 5) (va : BitVec 6) (fmt : BitVec 4) (rm : BitVec 3) (satf : Bool) (srp : BitVec 2) (e : Nat → Nat × Nat × Bool), ((∀ k, e k = convert8 (s.core (coreKey a)) (vregOf s a va) fmt.toNat rm satf srp s.free k)) ∧
      (CoreReady s a ∧ fmt.toNat ≤ 0xB ∧ (sregOf s a ra).poison = false)) ∧
    (∃ (s : State) (a : CoreAt) (ra : BitVec 5) (va : BitVec 6) (fmt : BitVec 4) (rm : BitVec 3) (satf : Bool) (srp : BitVec 2) (e : Nat → Nat × Nat × Bool) (i : _), ((∀ k, e k = convert8 (s.core (coreKey a)) (vregOf s a va) fmt.toNat rm satf srp s.free k)) ∧
      (CoreReady s a ∧ fmt.toNat ≤ 0xB ∧ (sregOf s a ra).poison = true ∧ RunsAlone s a i)) ∧
    (∃ (s : State) (a : CoreAt) (fmt : BitVec 4), (CoreReady s a ∧ ((fmt = 5 ∨ fmt = 6)))) ∧
    (∃ (s : State) (a : CoreAt) (va : BitVec 6) (fmt : BitVec 4) (rm : BitVec 3) (srp : BitVec 2) (bad : Bool) (e : Nat × List Nat × Nat), bad = (((List.range 4).any fun i => ((s.core (coreKey a)).vreg (va.toNat + i)).anyBad) || (rm = 4 && ((s.core (coreKey a)).srPair srp).2.2)) ∧
      e = mxEncode fmt.toNat (fun k => (roundOf rm.toNat (fmtBits fmt.toNat) ((s.core (coreKey a)).srPair srp).1 ((s.core (coreKey a)).srPair srp).2.1 k).1) ((List.range 32).map fun i => ((s.core (coreKey a)).vreg (va.toNat + i / 8)).lane (i % 8)) ∧
      (CoreReady s a ∧ va.toNat % 4 = 0 ∧ isMx fmt.toNat = true)) :=
  ⟨⟨s0, 12, by decide +kernel⟩,
    ⟨s0, 3, by decide +kernel⟩,
    ⟨s0, 5, 3, by decide +kernel⟩,
    ⟨sCore, at3, 4, 3, 4, true, 3, 0, _, _, rfl, fun _ => rfl, by decide +kernel⟩,
    ⟨sCore, at3, 2, 4, 3, 4, true, 0, _, fun _ => rfl, by decide +kernel⟩,
    ⟨sRun 1, at3, 3, 4, 3, 4, true, 0, _, insX 1, fun _ => rfl, by decide +kernel⟩,
    ⟨sCore, at3, 5, by decide +kernel⟩,
    ⟨sCore, at3, 4, 3, 1, 0, _, _, rfl, rfl, by decide +kernel⟩⟩

theorem witness_MeshRequestsAndMessages_part1 :
    (∃ (s : State) (m : MPkt) (g : Rgn) (e : Tlb) (l : LcLine), TileReady s m g e l) ∧
    (∃ (s : State) (m : MPkt) (g : Rgn) (e : Tlb) (l : LcLine), TileReady s m g e l) ∧
    (∃ (s : State) (m : MPkt) (g : Rgn) (e : Tlb) (l : LcLine), TileReady s m g e l) ∧
    (∃ (s : State) (m : MPkt) (g : Rgn) (e : Tlb) (l : LcLine), (TileReady s m g e l ∧ g.mode ≤ 1 ∧ s.homes.filter = [] ∧ s.lineHeld (leafDpa e.entry e.bits (ptrOff m.addr.toNat) / 128 * 128) = none)) ∧
    (∃ (s : State) (m : MPkt) (g : Rgn) (e : Tlb) (l : LcLine), (TileReady s m g e l ∧ g.mode = 2)) ∧
    (∃ (n : Bool) (op : MPkt → Instr) (s : State) (m : MPkt) (tile : Nat), (n, op) ∈ ([(true, .msg), (false, .desc), (false, .load)] : List (Bool × (MPkt → Instr))) ∧
      ((op m = .load m → m.addr.getLsbD 63 = false)) ∧
      (Running s ∧ Come s m ∧ m.wf = true ∧ mTargets m = [tile] ∧ s.tileOff tile = false)) ∧
    (∃ (n : Bool) (op : MPkt → Instr) (s : State) (m : MPkt) (tile : Nat), (n, op) ∈ ([(true, .msg), (false, .desc), (false, .load)] : List (Bool × (MPkt → Instr))) ∧
      (Running s ∧ Come s m ∧ m.wf = true ∧ mTargets m = [tile] ∧ s.tileOff tile = true)) ∧
    (∃ (op : MPkt → Instr) (s : State) (m : MPkt), op ∈ ([.msg, .desc, .load] : List (MPkt → Instr)) ∧
      (Running s ∧ Come s m)) :=
  ⟨⟨sHost 1, mq, rgnOf 7 (rgn7 1), leaf1 (homeOfPtr p1), line1, by decide +kernel⟩,
    ⟨sHost 1, mq, rgnOf 7 (rgn7 1), leaf1 (homeOfPtr p1), line1, by decide +kernel⟩,
    ⟨sHost 1, mq, rgnOf 7 (rgn7 1), leaf1 (homeOfPtr p1), line1, by decide +kernel⟩,
    ⟨sHost 1, { mq with len := 2, flits := [(7, 0), (9, 0)], inl := 0xF0 }, rgnOf 7 (rgn7 1), leaf1 (homeOfPtr p1), line1, by decide +kernel⟩,
    ⟨sHost 2, mq, rgnOf 7 (rgn7 2), leaf1 (homeOfPtr p1), line1, by decide +kernel⟩,
    ⟨true, .msg, s0, mOne, 0, .head _, (fun h => by cases h), by decide +kernel⟩,
    ⟨true, .msg, s0.wr (F.tileStateState 0) 3, mOne, 0, .head _, by decide +kernel⟩,
    ⟨.msg, s0, mOne, .head _, by decide +kernel⟩⟩

theorem witness_MeshRequestsAndMessages_part2 :
    (∃ (s : State) (m : MPkt) (tile : Nat), (Running s ∧ Come s m ∧ m.wf = true ∧ mTargets m = [tile] ∧ s.tileOff tile = false ∧ m.addr.getLsbD 63 = true)) ∧
    (∃ (s : State) (m : MPkt) (tile : Nat) (i : Inst), (Running s ∧ Come s m ∧ mTargets m = [tile] ∧ s.tileOff tile = false ∧ s.mInst tile m.job.toNat = some i)) ∧
    (∃ (s : State) (m : MPkt) (i : Inst) (k : Nat) (f : Flit × BitVec 2) (g : Flit × BitVec 2), (Running s ∧ Come s m ∧ s.mInst (mSource m) m.job.toNat = some i ∧ s.inst? i.idx = some i ∧ i.rpkt = true ∧ i.mute = false ∧ m.flits = [f, g] ∧ i.streams.findIdx? (fun x => x.wr && x.base ≤ m.addr.toNat && m.addr.toNat < x.base + x.len) = some k)) ∧
    (∃ (s : State) (m : MPkt) (i : Inst) (p : Placement) (site : Nat), (Running s ∧ Come s m ∧ s.mInst (mSource m) m.job.toNat = some i ∧ s.siteOf (mSource m) = some site ∧ i.place.bind s.place? = some p ∧ i.dones.contains site = false)) ∧
    (∃ (s : State) (m : MPkt) (tile : Nat), (Running s ∧ Come s m ∧ s.meshResp.contains m = true ∧ m.wf = true ∧ m.dx.toNat < 28 ∧ m.dy.toNat < 24 ∧ tile = 28 * m.dy.toNat + m.dx.toNat ∧ s.tileOff tile = false) ∧
      (s.tiles.inject = [] ∧ ((∀ e ∈ s.tiles.cores, e.2.held = [])))) ∧
    (∃ (s : State) (m : MPkt), (Running s ∧ Come s m ∧ s.meshResp.contains m = true ∧ ((28 ≤ m.dx.toNat ∨ 24 ≤ m.dy.toNat ∨ s.tileOff (28 * m.dy.toNat + m.dx.toNat) = true)))) ∧
    (∃ (s : State) (m : MPkt), (Running s ∧ Come s m ∧ s.meshResp.contains m = false)) ∧
    (∃ (s : State) (m : MPkt) (op : _), op ∈ [Instr.rd m, .rdv m, .wr m, .walk m, .msg m, .desc m, .load m, .result m, .done m, .dynamicResponse m] ∧
      (Running s ∧ s.pwr.halt.isSome = true)) :=
  ⟨⟨s0, { mOne with addr := 0x8000000000000100 }, 0, by decide +kernel⟩,
    ⟨sPl (plcA [phs 1]) insA, mOne, 0, insA, by decide +kernel⟩,
    ⟨sPl (plcA [phs 1]) insR, mResult, insR, 0, (7, 0), (9, 0), by decide +kernel⟩,
    ⟨sPl (plcA [phs 1]) insA, mResult, insA, plcA [phs 1], 0, by decide +kernel⟩,
    ⟨{ s0 with meshResp := [{ mOne with raddr := 0x200, seq := 5, cc := 2, cls := true, op := 0x20 }], tiles := { s0.tiles with sent := [(0, 5)] } }, { mOne with raddr := 0x200, seq := 5, cc := 2, cls := true, op := 0x20 }, 0, by decide +kernel, by decide +kernel⟩,
    ⟨{ s0 with meshResp := [{ mOne with dx := 62, cls := true, op := 0x20 }] }, { mOne with dx := 62, cls := true, op := 0x20 }, by decide +kernel⟩,
    ⟨s0, mp, by decide +kernel⟩,
    ⟨{ s0 with pwr := { s0.pwr with halt := some (2, 64) } }, mOne, Instr.rd (mOne), .head _, by decide +kernel⟩⟩

theorem witness_PlansBarsAndGates_part1 :
    (∃ (s : State) (t0 : Nat), (Running s ∧ t0 < 672 ∧ s.tiles.armed = [t0] ∧ s.tiles.harmed = [] ∧ s.tiles.clock ≤ 1024 * s.mbar ∧ s.rd (F.tileMplanAtBeat t0) ≤ s.beat)) ∧
    (∃ (s : State) (k : Nat), (Running s ∧ k < 64 ∧ s.tiles.armed = [] ∧ s.tiles.harmed = [k] ∧ s.tiles.harmedAt ≤ s.beat)) ∧
    (∃ (s : State), (Running s ∧ s.tiles.harmed = [] ∧ ((1024 * s.mbar < s.tiles.clock ∨ ∀ t ∈ s.tiles.armed, s.beat < s.rd (F.tileMplanAtBeat t))))) ∧
    (∃ (s : State), (Running s ∧ s.pwr.halt.isSome = true)) ∧
    (∃ (s : State), (Running s ∧ s.pwr.halt = none ∧ s.tiles.pend = [] ∧ MeshStill s ∧ s.tiles.inject = [] ∧ ((∀ e ∈ s.tiles.cores, e.2.held = [])))) ∧
    (∃ (s : State) (n : BitVec 12) (i : Inst), (Running s ∧ s.inst? n.toNat = some i ∧ ((i.state ≠ 1 ∨ (i.bodyAt.isSome = true ∧ opBuiltin i.opid = false ∧ s.streamsAgain n.toNat = s))))) :=
  ⟨⟨{ (s0.wr (F.tileMplanArmed 671) 1).setReg (671 * 0x100000 + 0x4000) 0x123 with tiles := { s0.tiles with armed := [671] } }, 671, by decide +kernel⟩,
    ⟨{ s0 with tiles := { s0.tiles with harmed := [63] } }, 63, by decide +kernel⟩,
    ⟨{ s0.wr (F.tileMplanAtBeat 671) 9 with tiles := { s0.tiles with armed := [671] } }, by decide +kernel⟩,
    ⟨{ s0 with pwr := { s0.pwr with halt := some (0, 0) } }, by decide +kernel⟩,
    ⟨sPl (plcA [phs 1]) { insA with stopping := some 0x0B }, by decide +kernel⟩,
    ⟨sPl (plcA [phs 1]) { insA with state := 0 }, 0, { insA with state := 0 }, by decide +kernel⟩⟩

theorem witness_PlansBarsAndGates_part2 :
    (∃ (s : State) (n : BitVec 12) (i : Inst) (p : Placement), (Running s ∧ s.inst? n.toNat = some i ∧ i.state = 1 ∧ i.done = false ∧ s.streamsAgain n.toNat = s ∧ i.stopping = none ∧ i.bodyAt = none ∧ opBuiltin i.opid = false) ∧
      (i.place.bind s.place? = some p ∧ (p.phase i.phase).kind = 1 ∧ (p.phase (i.phase + 1)).kind = 0 ∧ (((p.phase (i.phase + 1)).glist = 0 ∨ ∀ t ∈ s.placeTiles p, (s.gatherRec t (p.phase (i.phase + 1)).glist).1 = true)) ∧ s.cleanExtents i (p.phase (i.phase + 1)) = s ∧ s.coresEnded p = false)) ∧
    (∃ (s : State) (n : BitVec 12) (i : Inst) (p : Placement), (Running s ∧ s.inst? n.toNat = some i ∧ i.state = 1 ∧ i.done = false ∧ s.streamsAgain n.toNat = s ∧ i.stopping = none ∧ i.bodyAt = none ∧ opBuiltin i.opid = false) ∧
      (i.place.bind s.place? = some p ∧ (p.phase i.phase).kind = 1 ∧ (p.phase (i.phase + 1)).kind = 0 ∧ (((p.phase (i.phase + 1)).glist = 0 ∨ ∀ t ∈ s.placeTiles p, (s.gatherRec t (p.phase (i.phase + 1)).glist).1 = true)) ∧ s.cleanExtents i (p.phase (i.phase + 1)) = s ∧ s.coresEnded p = true ∧ i.again = false ∧ i.readErr = false) ∧
      (s.unlocked i p (p.phase (i.phase + 1)) = [] ∧ s.neededLines i p (p.phase (i.phase + 1)) = [] ∧ s.slotRoom i (p.phase (i.phase + 1)) = true)) ∧
    (∃ (s : State) (n : BitVec 12) (i : Inst) (p : Placement) (r : Nat), (Running s ∧ s.inst? n.toNat = some i ∧ i.state = 1 ∧ s.streamsAgain n.toNat = s ∧ i.done = false ∧ i.stopping = none ∧ i.bodyAt = none ∧ opBuiltin i.opid = false) ∧
      (i.place.bind s.place? = some p ∧ (p.phase i.phase).kind = 2 ∧ i.ran = some r ∧ i.again = true ∧ (p.phase r).kind = 0 ∧ s.neededLines i p (p.phase r) = [] ∧ s.slotRoom i (p.phase r) = true)) ∧
    (∃ (s : State) (n : BitVec 12) (i : Inst) (p : Placement) (x : Nat), (Running s ∧ s.inst? n.toNat = some i ∧ i.state = 1 ∧ s.streamsAgain n.toNat = s ∧ i.done = false ∧ i.stopping = none ∧ i.bodyAt = none ∧ opBuiltin i.opid = false) ∧
      (i.place.bind s.place? = some p ∧ (p.phase i.phase).kind = 0 ∧ (p.phase i.phase).glist ≠ 0 ∧ x ∈ s.placeTiles p ∧ (s.gatherRec x (p.phase i.phase).glist).1 = false)) ∧
    (∃ (s : State) (n : BitVec 12) (i : Inst) (p : Placement) (b : Int), (Running s ∧ s.inst? n.toNat = some i ∧ i.place.bind s.place? = some p ∧ i.bodyAt = some b ∧ i.state = 1 ∧ b + (p.phase i.phase).bars ≤ (s.mbar : Int))) ∧
    (∃ (s : State) (n : BitVec 12) (i : Inst) (p : Placement) (b : Int), (Running s ∧ s.inst? n.toNat = some i ∧ i.place.bind s.place? = some p ∧ i.bodyAt = some b ∧ (s.mbar : Int) < b + (p.phase i.phase).bars)) :=
  ⟨⟨sPl (plcA [phs 1, phs 0]) insA, 0, insA, plcA [phs 1, phs 0], by decide +kernel, by decide +kernel⟩,
    ⟨sEnd (plcA [phs 1, phs 0]) insA, 0, insA, plcA [phs 1, phs 0], by decide +kernel, by decide +kernel, by decide +kernel⟩,
    ⟨sPl (plcA [phs 0]) { insA with phase := 1, ran := some 0, again := true }, 0, { insA with phase := 1, ran := some 0, again := true }, plcA [phs 0], 0, by decide +kernel, by decide +kernel⟩,
    ⟨sPl (plcA [{ phs 0 with glist := 0x400 }]) insA, 0, insA, plcA [{ phs 0 with glist := 0x400 }], 0, by decide +kernel, by decide +kernel⟩,
    ⟨{ sPl (plcA [phs 0]) { insA with bodyAt := some 0 } with mbar := 4 }, 0, { insA with bodyAt := some 0 }, plcA [phs 0], 0, by decide +kernel⟩,
    ⟨{ sPl (plcA [phs 0]) { insA with bodyAt := some 0 } with mbar := 3 }, 0, { insA with bodyAt := some 0 }, plcA [phs 0], 0, by decide +kernel⟩⟩

theorem witness_TileFaultsAndSpares_part1 :
    (∃ (s : State), Running s) ∧
    (∃ (s : State) (tile : Fin 672), (Running s ∧ s.tileState tile.val = 4)) ∧
    (∃ (s : State) (tile : Fin 672) (cause : Fin 6) (site : Nat) (sp : Nat), (Running s ∧ cause ≠ 0 ∧ ((s.tileState tile.val = 0 ∨ s.tileState tile.val = 2)) ∧ s.disp.insts = [] ∧ s.rd (F.tileStateSite tile.val) = site ∧ site < 672 ∧ minBy? (fun t => hops t site * 1024 + t) (findAll 672 fun t => spareGroup t == spareGroup site && s.tileState t == 1) = some sp)) ∧
    (∃ (s : State) (tile : Fin 672) (cause : Fin 6), (Running s ∧ cause ≠ 0 ∧ s.disp.insts = [] ∧ ((s.tileState tile.val = 1 ∨ (s.tileState tile.val = 3 ∧ cause = 4))))) ∧
    (∃ (s : State) (tile : Fin 672) (cause : Fin 6), (Running s ∧ s.tileState tile.val = 3 ∧ cause ≠ 4)) ∧
    (∃ (s : State) (tile : Fin 672) (cause : Fin 6) (site : Nat), (Running s ∧ cause ≠ 0 ∧ ((s.tileState tile.val = 0 ∨ s.tileState tile.val = 2)) ∧ s.disp.insts = [] ∧ s.rd (F.tileStateSite tile.val) = site ∧ site < 672 ∧ s.tiles.lost = [] ∧ ((∀ t, t < 672 → spareGroup t = spareGroup site → s.tileState t ≠ 1)))) ∧
    (∃ (s : State) (tile : Fin 672) (cause : Fin 6) (i : Inst) (p : Placement), (Running s ∧ cause ≠ 0 ∧ s.tileState tile.val = 0 ∧ s.disp.insts = [i] ∧ i.state = 1 ∧ i.stopping = none ∧ i.done = false ∧ i.place.bind s.place? = some p) ∧
      (p.sites.any fun e => e.1 == s.rd (F.tileStateSite tile.val)) = true) :=
  ⟨⟨s0, by decide +kernel⟩,
    ⟨s0.wr (F.tileStateState 671) 4, 671, by decide +kernel⟩,
    ⟨s0, 671, 2, 671, ((minBy? (fun t => hops t 671 * 1024 + t) (findAll 672 fun t => spareGroup t == spareGroup 671 && s0.tileState t == 1)).getD 0), by decide +kernel⟩,
    ⟨s0.wr (F.tileStateState 671) 1, 671, 2, by decide +kernel⟩,
    ⟨s0.wr (F.tileStateState 671) 3, 671, 2, by decide +kernel⟩,
    ⟨(s0.wr (F.tileStateState 34) 3).wr (F.tileStateState 35) 3, 0, 4, 0, by decide +kernel⟩,
    ⟨sPl (plcA [phs 1]) insA, 0, 2, insA, plcA [phs 1], by decide +kernel, by decide +kernel⟩⟩

theorem witness_TileFaultsAndSpares_part2 :
    (∃ (s : State) (tile : Fin 672) (c : Cmd), (Running s ∧ Accepts s tile.val c ∧ s.tileState tile.val ≤ 2 ∧ s.disp.insts = [])) ∧
    (∃ (s : State) (tile : Fin 672), (Running s ∧ s.tileState tile.val = 2 ∧ s.tiles.loaded.contains tile.val = false ∧ s.disp.places = [])) ∧
    (∃ (s : State) (tile : Fin 672) (p : Placement) (x : Nat), (Running s ∧ s.tileState tile.val = 2 ∧ s.tiles.loaded.contains tile.val = false ∧ s.disp.places = [p] ∧ s.disp.insts = [] ∧ (p.sites.any fun e => e.1 == s.rd (F.tileStateSite tile.val)) = true ∧ ((∃ e ∈ p.mesh, e.tile = x)) ∧ x < 672)) ∧
    (∃ (s : State) (tile : Fin 672), (Running s ∧ s.tileState tile.val = 2 ∧ s.tiles.loaded.contains tile.val = true ∧ s.tiles.armed.contains tile.val = false)) ∧
    (∃ (s : State) (tile : Fin 672), (Running s ∧ ((s.tileState tile.val ≠ 2 ∨ s.tiles.loaded.contains tile.val = false)))) ∧
    (∃ (s : State) (tile : Fin 672) (c : Cmd), (Running s ∧ Accepts s tile.val c ∧ s.tileState tile.val = 3 ∧ s.tiles.testing.contains tile.val = false)) ∧
    (∃ (s : State) (tile : Fin 672) (c : Cmd), (Running s ∧ Accepts s tile.val c ∧ s.tileState tile.val ≠ 3)) :=
  ⟨⟨s0, 671, cm, by decide +kernel⟩,
    ⟨sSpare, 34, by decide +kernel⟩,
    ⟨{ sSpare with disp := { s0.disp with places := [{ plc with sites := [(0, [1])], mesh := [⟨34, 1, 7, 0x123⟩] }] } }, 34, { plc with sites := [(0, [1])], mesh := [⟨34, 1, 7, 0x123⟩] }, 34, by decide +kernel⟩,
    ⟨{ sSpare with tiles := { s0.tiles with loaded := [34] }, disp := { s0.disp with places := [{ plc with sites := [(0, [1])] }] } }, 34, by decide +kernel⟩,
    ⟨s0, 34, by decide +kernel⟩,
    ⟨s0.wr (F.tileStateState 671) 3, 671, cm, by decide +kernel⟩,
    ⟨s0, 671, cm, by decide +kernel⟩⟩

theorem witness_TileFaultsAndSpares_part3 :
    (∃ (s : State) (tile : Fin 672), (Running s ∧ s.tileState tile.val = 1 ∧ s.tiles.testing.contains tile.val = false)) ∧
    (∃ (s : State) (tile : Fin 672), (Running s ∧ s.tileState tile.val ≠ 1)) ∧
    (∃ (s : State) (tile : Fin 672), (Running s ∧ s.tiles.testing.contains tile.val = false)) ∧
    (∃ (s : State) (tile : Fin 672), (Running s ∧ s.tiles.testing.contains tile.val = true ∧ s.tileState tile.val = 1)) ∧
    (∃ (s : State) (tile : Fin 672), (Running s ∧ s.tiles.testing.contains tile.val = true ∧ s.tileState tile.val = 3)) ∧
    (∃ (s : State) (tile : Fin 672), (Running s ∧ s.tiles.testing.contains tile.val = true ∧ s.tileState tile.val = 3 ∧ ((∀ x ∈ s.tiles.lost, spareGroup x ≠ spareGroup tile.val)))) ∧
    (∃ (s : State) (tile : Fin 672) (site : _), (Running s ∧ s.tiles.testing.contains tile.val = true ∧ s.tileState tile.val = 3 ∧ s.tiles.lost = [site] ∧ site < 672 ∧ spareGroup site = spareGroup tile.val ∧ ((∀ x, x < 672 → x ≠ tile.val → spareGroup x = spareGroup tile.val → s.tileState x ≠ 1)))) :=
  ⟨⟨s0, 34, by decide +kernel⟩,
    ⟨s0, 671, by decide +kernel⟩,
    ⟨s0, 34, by decide +kernel⟩,
    ⟨{ s0 with tiles := { s0.tiles with testing := [34] } }, 34, by decide +kernel⟩,
    ⟨{ s0.wr (F.tileStateState 671) 3 with tiles := { s0.tiles with testing := [671] } }, 671, by decide +kernel⟩,
    ⟨{ s0.wr (F.tileStateState 671) 3 with tiles := { s0.tiles with testing := [671] } }, 671, by decide +kernel⟩,
    ⟨{ (((s0.wr (F.tileStateState 34) 3).wr (F.tileStateState 35) 3).wr (F.tileStateState 0) 3) with tiles := { s0.tiles with testing := [34], lost := [0] } }, 34, 0, by decide +kernel⟩⟩

theorem witness_PatternImages_part1 :
    (∃ (s : State) (c : Cmd), (Running s ∧ Accepts s 862 c ∧ s.on F.dispPatCmdBusy = true)) ∧
    (∃ (s : State) (c : Cmd), (Running s ∧ Accepts s 862 c ∧ s.on F.dispPatCmdBusy = true)) :=
  ⟨⟨s0.wr F.dispPatCmdBusy 1, cm, by decide +kernel⟩,
    ⟨s0.wr F.dispPatCmdBusy 1, cm, by decide +kernel⟩⟩

theorem witness_PatternImages_part2 :
    (∃ (s : State) (strip : BitVec 3) (c : Cmd), (Running s ∧ Accepts s 862 c ∧ s.on F.secPartCtlEn = false ∧ s.on F.dispPatCmdBusy = false ∧ (s.atLoad strip c).imageHeld = true)) ∧
    (∃ (s : State) (u : State) (strip : BitVec 3) (c : Cmd), ((s.atLoad strip c).poolBytes (s.rd F.dispPatImgPtr) 256) = (none, u) ∧
      (Running s ∧ Accepts s 862 c ∧ s.on F.secPartCtlEn = false ∧ s.on F.dispPatCmdBusy = false ∧ s.disp.loading = none ∧ (s.atLoad strip c).imageHeld = false)) :=
  ⟨⟨heldLine (sImg imgA), 0, cm, by decide +kernel⟩,
    ⟨s0, ((s0.atLoad 0 cm).poolBytes (s0.rd F.dispPatImgPtr) 256).2, 0, cm, pair_of (by decide +kernel), by decide +kernel⟩⟩

theorem witness_PatternImages_part3 :
    (∃ (s : State) (u : State) (v : State) (strip : BitVec 3) (c : Cmd) (hd : List Byte) (img : List Byte), (s.atLoad strip c).poolBytes (s.rd F.dispPatImgPtr) 256 = (some hd, u) ∧
      u.poolBytes (s.rd F.dispPatImgPtr) (dN hd 8 4) = (some img, v) ∧
      (Running s ∧ Accepts s 862 c ∧ s.on F.secPartCtlEn = false ∧ s.on F.dispPatCmdBusy = false ∧ s.disp.loading = none ∧ (s.atLoad strip c).imageHeld = false ∧ digestOk img = false)) ∧
    (∃ (s : State) (u : State) (v : State) (strip : BitVec 3) (c : Cmd) (hd : List Byte) (img : List Byte) (i : _), (s.atLoad strip c).poolBytes (s.rd F.dispPatImgPtr) 256 = (some hd, u) ∧
      u.poolBytes (s.rd F.dispPatImgPtr) (dN hd 8 4) = (some img, v) ∧
      (Running s ∧ Accepts s 862 c ∧ s.on F.secPartCtlEn = false ∧ s.on F.dispPatCmdBusy = false ∧ s.disp.loading = none ∧ (s.atLoad strip c).imageHeld = false ∧ digestOk img = true ∧ formatBad img strip.toNat = some i)) :=
  ⟨⟨sImg imgS, uImg imgS, vImg imgS, 0, cm, (imgBytes imgS).take 256, (imgBytes imgS).take 100, pair_of (by decide +kernel), pair_of (by decide +kernel), by decide +kernel⟩,
    ⟨sImg imgB, uImg imgB, vImg imgB, 0, cm, (imgBytes imgB).take 256, imgBytes imgB, 0, pair_of (by decide +kernel), pair_of (by decide +kernel), by decide +kernel⟩⟩

theorem witness_PatternImages_part4 :
    (∃ (s : State) (u : State) (v : State) (strip : BitVec 3) (c : Cmd) (hd : List Byte) (img : List Byte) (n : _), (s.atLoad strip c).poolBytes (s.rd F.dispPatImgPtr) 256 = (some hd, u) ∧
      u.poolBytes (s.rd F.dispPatImgPtr) (dN hd 8 4) = (some img, v) ∧
      (Running s ∧ Accepts s 862 c ∧ s.on F.secPartCtlEn = false ∧ s.on F.dispPatCmdBusy = false ∧ s.disp.loading = none ∧ (s.atLoad strip c).imageHeld = false ∧ digestOk img = true ∧ formatBad img strip.toNat = none) ∧
      findLow 256 (fun x => (v.place? x).isNone) = some n) ∧
    (∃ (s : State) (place : BitVec 8) (c : Cmd) (p : _), (Running s ∧ Accepts s 862 c ∧ s.on F.dispPatCmdBusy = false ∧ s.place? place.toNat = some p)) :=
  ⟨⟨sImg imgA, uImg imgA, vImg imgA, 0, cm, (imgBytes imgA).take 256, imgBytes imgA, 0, pair_of (by decide +kernel), pair_of (by decide +kernel), by decide +kernel, by decide +kernel⟩,
    ⟨sPl plc ins, 0, cm, plc, by decide +kernel⟩⟩

theorem witness_PatternImages_part5 :
    (∃ (s : State) (place : BitVec 8) (c : Cmd), (Running s ∧ Accepts s 862 c ∧ s.on F.dispPatCmdBusy = false ∧ s.place? place.toNat = none)) ∧
    (∃ (s : State) (n : BitVec 8) (p : Placement), (Running s ∧ s.place? n.toNat = some p ∧ p.unloading = true ∧ ((∀ i ∈ s.disp.insts, i.place = some n.toNat → 2 < i.state)))) :=
  ⟨⟨s0, 0, cm, by decide +kernel⟩,
    ⟨sPl { plc with unloading := true } ins, 0, { plc with unloading := true }, by decide +kernel⟩⟩

theorem witness_PatternImages_part6 :
    (∃ (s : State) (n : BitVec 8), (Running s ∧ s.place? n.toNat = none)) ∧
    (∃ (s : State) (n : BitVec 8) (p : Placement), (Running s ∧ s.place? n.toNat = some p ∧ ((p.unloading = false ∨ ∃ i ∈ s.disp.insts, i.place = some n.toNat ∧ i.state ≤ 2)))) :=
  ⟨⟨s0, 0, by decide +kernel⟩,
    ⟨sPl plc ins, 0, plc, by decide +kernel⟩⟩

theorem witness_InvocationsAndJobs_part1 :
    (∃ (s : State) (p : Pkt) (tenant : Nat) (n : Nat), (DispReady s ∧ (asInvoke p).dloc = false ∧ 16 ≤ (asInvoke p).dlen ∧ (asInvoke p).dlen ≤ 224 ∧ InvokeValid s (asInvoke p) (inlineDesc p (asInvoke p).dlen) (s.attach p.host.toNat none) tenant ∧ s.on F.dispOpsCtlEn = true ∧ s.disp.insts.length < 4096 ∧ (s.jobsOf none).length < 1024) ∧
      findLow 4096 (fun i => (s.inst? i).isNone) = some n) ∧
    (∃ (s : State) (p : Pkt) (tenant : Nat), (DispReady s ∧ (asInvoke p).dloc = false ∧ 16 ≤ (asInvoke p).dlen ∧ (asInvoke p).dlen ≤ 224 ∧ InvokeValid s (asInvoke p) (inlineDesc p (asInvoke p).dlen) (s.attach p.host.toNat none) tenant ∧ s.on F.dispOpsCtlEn = false)) ∧
    (∃ (s : State) (p : Pkt) (g : Rgn) (e : Tlb) (l : LcLine) (tenant : Nat) (n : Nat), (DispReady s ∧ (asInvoke p).dloc = true ∧ TileReady s (dispMsg 0x1000 (asInvoke p).dptr) g e l ∧ l.poison = false ∧ s.homes.filter = [] ∧ (asInvoke p).dlen ≤ 128 ∧ 16 ≤ (asInvoke p).dlen ∧ InvokeValid s (asInvoke p) ((lineBytes l.data).take (asInvoke p).dlen) (s.attach p.host.toNat none) tenant) ∧
      (s.on F.dispOpsCtlEn = true ∧ s.disp.insts.length < 4096 ∧ (s.jobsOf none).length < 1024 ∧ s.disp.reads = [] ∧ findLow 4096 (fun i => (s.inst? i).isNone) = some n)) ∧
    (∃ (s : State) (p : Pkt) (st : Nat), (DispReady s ∧ (asInvoke p).dloc = false ∧ (((((asInvoke p).zeros && opKnown (asInvoke p).opid) = false ∧ st = 2) ∨ ((asInvoke p).zeros = true ∧ opKnown (asInvoke p).opid = true ∧ ((asInvoke p).dlen < 16 ∨ 224 < (asInvoke p).dlen) ∧ st = 2) ∨ ((asInvoke p).zeros = true ∧ opKnown (asInvoke p).opid = true ∧ 16 ≤ (asInvoke p).dlen ∧ (asInvoke p).dlen ≤ 224 ∧ ((descOk (asInvoke p).opid (inlineDesc p (asInvoke p).dlen) (asInvoke p).dlen = false ∧ st = 2) ∨ (descOk (asInvoke p).opid (inlineDesc p (asInvoke p).dlen) (asInvoke p).dlen = true ∧ pointersOk (asInvoke p) (strmsOf (inlineDesc p (asInvoke p).dlen)) = false ∧ st = 3))))))) ∧
    (∃ (s : State) (p : Pkt) (c : Nat) (ten : Option Nat), (DispReady s ∧ (asInvoke p).dloc = false ∧ (asInvoke p).zeros = true ∧ opKnown (asInvoke p).opid = true ∧ 16 ≤ (asInvoke p).dlen ∧ (asInvoke p).dlen ≤ 224 ∧ descOk (asInvoke p).opid (inlineDesc p (asInvoke p).dlen) (asInvoke p).dlen = true ∧ pointersOk (asInvoke p) (strmsOf (inlineDesc p (asInvoke p).dlen)) = true) ∧
      (s.admitExtents (s.attach p.host.toNat none) (extentsOf (asInvoke p) (strmsOf (inlineDesc p (asInvoke p).dlen))) = (some c, ten) ∧ c ≠ 0 ∧ (s.frz p.host.toNat).state = 0)) ∧
    (∃ (s : State) (p : Pkt), (DispReady s ∧ bit p.body.toNat 16 = 0)) ∧
    (∃ (s : State) (p : Pkt), (DispReady s ∧ bit p.body.toNat 16 = 1 ∧ opGrant (s.attach p.host.toNat none) (bits p.body.toNat 39 32) = false)) ∧
    (∃ (s : State) (p : Pkt), (DispReady s ∧ bit p.body.toNat 16 = 1 ∧ opGrant (s.attach p.host.toNat none) (bits p.body.toNat 39 32) = true)) :=
  ⟨⟨sInv, pkI, 0, 0, by decide +kernel, by decide +kernel⟩,
    ⟨sInv.wr F.dispOpsCtlEn 0, pkI, 0, by decide +kernel⟩,
    ⟨sInvD, pkD, rgnOf 7 (rgn7 1), leaf1 (homeOfPtr p1), lineD, 0, 0, by decide +kernel, by decide +kernel⟩,
    ⟨sInv, { pkI with body := 0x100 }, 2, by decide +kernel⟩,
    ⟨sInv, { pkI with body := BitVec.ofNat 2048 (0x100 + 32 * 2 ^ 48 + (1 + (2 * p1 + 128 * 2 ^ 64) * 2 ^ 128) * 2 ^ 256) }, 3, none, by decide +kernel, by decide +kernel⟩,
    ⟨sIns (ins5 0), { pk5 with body := BitVec.ofNat 2048 (8 * 2 ^ 17) }, by decide +kernel⟩,
    ⟨sIns (ins5 0), { pk5 with body := BitVec.ofNat 2048 (3 + 2 ^ 16 + 9 * 2 ^ 32) }, by decide +kernel⟩,
    ⟨sIns (ins5 0), { pk5 with body := BitVec.ofNat 2048 (3 + 2 ^ 16) }, by decide +kernel⟩⟩

theorem witness_InvocationsAndJobs_part2 :
    (∃ (s : State) (c : Cmd), (Running s ∧ Accepts s 862 c ∧ s.on F.dispJobKillBusy = true)) ∧
    (∃ (s : State) (c : Cmd), (Running s ∧ Accepts s 862 c ∧ s.on F.dispJobKillBusy = false ∧ s.disp.insts.length ≤ 4096)) ∧
    (∃ (s : State) (n : BitVec 12) (i : Inst), (Running s ∧ s.inst? n.toNat = some i ∧ ((i.state = 0 ∨ 2 < i.state ∨ (i.state = 1 ∧ i.done = false))))) ∧
    (∃ (s : State) (n : BitVec 12) (i : Inst), (Running s ∧ s.inst? n.toNat = some i ∧ ((i.state = 2 ∨ (i.state = 1 ∧ i.done = true ∧ i.stopping = none))) ∧ s.dispBusy n.toNat = false ∧ s.dumping i = false ∧ s.pub.pins = [] ∧ ((i.cform = 0 ∨ 3 < i.cform)))) ∧
    (∃ (s : State) (n : BitVec 12) (i : Inst) (g : Rgn) (e : Tlb) (l : LcLine), (s.inst? n.toNat = some i ∧ TileReady s (dispMsg n.toNat i.cptr) g e l ∧ g.mode ≤ 1 ∧ s.homes.filter = [] ∧ i.cptr < 2 ^ 64 ∧ s.lineHeld (leafDpa e.entry e.bits (ptrOff i.cptr) / 128 * 128) = none ∧ ((i.state = 2 ∨ (i.state = 1 ∧ i.done = true ∧ i.stopping = none))) ∧ s.dispBusy n.toNat = false) ∧
      (s.dumping i = false ∧ (i.cform = 1 ∨ i.cform = 3))) ∧
    (∃ (s : State) (n : BitVec 12) (i : Inst) (g : Rgn) (e : Tlb) (l : LcLine), (s.inst? n.toNat = some i ∧ TileReady s (dispMsg n.toNat i.cptr) g e l ∧ g.mode ≤ 1 ∧ s.homes.filter = [] ∧ i.cptr < 2 ^ 64 ∧ s.lineHeld (leafDpa e.entry e.bits (ptrOff i.cptr) / 128 * 128) = none ∧ ((i.state = 2 ∨ (i.state = 1 ∧ i.done = true ∧ i.stopping = none))) ∧ s.dispBusy n.toNat = false) ∧
      (s.dumping i = false ∧ i.cform = 2 ∧ l.poison = false)) ∧
    (∃ (s : State) (n : BitVec 12) (i : Inst), (Running s ∧ s.inst? n.toNat = some i ∧ i.state ≠ 3)) ∧
    (∃ (s : State) (n : BitVec 12) (i : Inst), (Running s ∧ s.inst? n.toNat = some i ∧ i.state = 3 ∧ s.dispBusy n.toNat = false ∧ i.cform ≠ 3 ∧ i.mute = false)) ∧
    (∃ (s : State) (n : BitVec 12) (i : Inst), (Running s ∧ s.inst? n.toNat = some i ∧ i.state = 3 ∧ s.dispBusy n.toNat = false ∧ (i.cform = 3 ∨ i.mute = true))) :=
  ⟨⟨s0.wr F.dispJobKillBusy 1, cm, by decide +kernel⟩,
    ⟨sIns (ins5 1), cm, by decide +kernel⟩,
    ⟨sIns (ins5 0), 0, ins5 0, by decide +kernel⟩,
    ⟨sIns { ins5 2 with status := 9 }, 0, { ins5 2 with status := 9 }, by decide +kernel⟩,
    ⟨sIns { ins5 2 with status := 9, cform := 1, cptr := p1 }, 0, { ins5 2 with status := 9, cform := 1, cptr := p1 }, rgnOf 7 (rgn7 1), leaf1 (homeOfPtr p1), line1, by decide +kernel, by decide +kernel⟩,
    ⟨sIns { ins5 2 with status := 9, cform := 2, cptr := p1 }, 0, { ins5 2 with status := 9, cform := 2, cptr := p1 }, rgnOf 7 (rgn7 1), leaf1 (homeOfPtr p1), line1, by decide +kernel, by decide +kernel⟩,
    ⟨sIns (ins5 2), 0, ins5 2, by decide +kernel⟩,
    ⟨sIns (ins5 3), 0, ins5 3, by decide +kernel⟩,
    ⟨sIns { ins5 3 with mute := true }, 0, { ins5 3 with mute := true }, by decide +kernel⟩⟩

theorem witness_OperatorsDoTheirWork_part1 :
    (∃ (n : Nat) (op : Instr) (s : State), (n, op) ∈ ([(1, .gatherReduce), (2, .scatterAccumulate), (3, .prefixAttend), (4, .kvAppend), (5, .copy), (6, .fill), (7, .checksum)] : List (Nat × Instr)) ∧
      (Running s ∧ s.nextStart n = none)) ∧
    (∃ (s : State) (opid : BitVec 16), (Running s ∧ opBuiltin opid.toNat = true)) ∧
    (∃ (s : State) (opid : BitVec 16), (Running s ∧ s.nextStart opid.toNat = none)) ∧
    (∃ (s : State) (opid : BitVec 16) (i : Inst) (p : Placement) (tile : Nat), (OpStart s opid.toNat i p tile ∧ opBuiltin opid.toNat = false ∧ ((∀ x ∈ i.streams, x.gath = true ∨ x.len = 0)))) ∧
    (∃ (s : State) (i : Inst) (p : Placement) (tile : Nat) (x : Strm) (g : Rgn) (e : Tlb) (l : LcLine), (OpStart s 6 i p tile ∧ i.streams = [x] ∧ x.len = 128 ∧ Mapped s tile x e ∧ Cached s tile x.base g e l ∧ g.mode = 1 ∧ i.rpkt = false ∧ s.lineHeld (leafDpa e.entry e.bits (ptrOff x.base) / 128 * 128) = none) ∧
      dN i.desc 32 1 = 1) ∧
    (∃ (s : State) (i : Inst) (p : Placement) (tile : Nat) (x : Strm) (y : Strm) (g : Rgn) (e : Tlb) (l : LcLine), (OpStart s 7 i p tile ∧ i.streams = [x, y] ∧ x.len = 128 ∧ y.len = 0 ∧ Mapped s tile x e ∧ Cached s tile x.base g e l ∧ dN i.desc 48 1 ≤ 1)) :=
  ⟨⟨1, .gatherReduce, s0, .head _, by decide +kernel⟩,
    ⟨s0, 5, by decide +kernel⟩,
    ⟨s0, 0x100, by decide +kernel⟩,
    ⟨sOp (insO 0x100 [] [] false) [], 0x100, insO 0x100 [] [] false, plcO 0x100, 0, by decide +kernel⟩,
    ⟨sOp (insO 6 [stm 0 128 true false] [(32, 1), (40, 0x5A)] false) [7], insO 6 [stm 0 128 true false] [(32, 1), (40, 0x5A)] false, plcO 6, 0, stm 0 128 true false, rgnOf 7 (rgn7 1), leaf1 64, lineN 0 7, by decide +kernel, by decide +kernel⟩,
    ⟨sOp (insO 7 [stm 0 128 false false, no] [(48, 1)] false) [7], insO 7 [stm 0 128 false false, no] [(48, 1)] false, plcO 7, 0, stm 0 128 false false, no, rgnOf 7 (rgn7 1), leaf1 64, lineN 0 7, by decide +kernel⟩⟩

theorem witness_OperatorsDoTheirWork_part2 :
    (∃ (s : State) (i : Inst) (p : Placement) (tile : Nat) (x : Strm) (y : Strm) (g : Rgn) (h : Rgn) (e : Tlb) (f : Tlb) (l : LcLine) (m : LcLine), (OpStart s 5 i p tile ∧ i.streams = [x, y] ∧ x.len = 128 ∧ y.len = 128 ∧ Mapped s tile x e ∧ Mapped s tile y f ∧ Cached s tile x.base g e l ∧ Cached s tile y.base h f m) ∧
      (h.mode = 1 ∧ i.rpkt = false ∧ s.lineHeld (leafDpa f.entry f.bits (ptrOff y.base) / 128 * 128) = none)) ∧
    (∃ (s : State) (i : Inst) (p : Placement) (tile : Nat) (tb : Strm) (ix : Strm) (os : Strm) (ws : Strm) (ot : Strm) (sc : Strm) (gi : Rgn) (ei : Tlb) (eo : Tlb) (li : LcLine) (g : Rgn) (e : Tlb) (l : LcLine), (OpStart s 1 i p tile ∧ i.streams = [tb, ix, os, ws, ot, sc] ∧ i.rpkt = true ∧ i.mute = false ∧ tb.gath = true ∧ os.len = 0 ∧ ws.len = 0 ∧ sc.len = 0) ∧
      (ix.len = 4 ∧ ot.len = 128 ∧ Mapped s tile ix ei ∧ Mapped s tile ot eo ∧ Cached s tile ix.base gi ei li ∧ dN i.desc 116 4 = 1 ∧ dN i.desc 122 2 = 1 ∧ dN i.desc 120 2 = 32) ∧
      (dN i.desc 124 1 = 0 ∧ dN i.desc 125 1 = 0x30 ∧ dN i.desc 128 4 = 128 ∧ bits li.data.toNat 31 0 < dN i.desc 112 4 ∧ dN i.desc 112 4 ≤ 2 ^ 31 ∧ dN i.desc 112 4 * 128 ≤ tb.len ∧ Cached s tile (tb.base + bits li.data.toNat 31 0 * 128) g e l)) ∧
    (∃ (s : State) (i : Inst) (p : Placement) (tile : Nat) (tb : Strm) (ix : Strm) (os : Strm) (ws : Strm) (ot : Strm) (sc : Strm) (gi : Rgn) (ei : Tlb) (eo : Tlb) (li : LcLine), (OpStart s 1 i p tile ∧ i.streams = [tb, ix, os, ws, ot, sc] ∧ i.rpkt = true ∧ i.mute = false ∧ tb.gath = true ∧ os.len = 0 ∧ ws.len = 0 ∧ sc.len = 0) ∧
      (ix.len = 4 ∧ ot.len = 128 ∧ Mapped s tile ix ei ∧ Mapped s tile ot eo ∧ Cached s tile ix.base gi ei li ∧ dN i.desc 116 4 = 1 ∧ dN i.desc 122 2 = 1 ∧ dN i.desc 120 2 = 32) ∧
      (dN i.desc 124 1 = 0 ∧ dN i.desc 125 1 = 0x30 ∧ dN i.desc 128 4 = 128 ∧ dN i.desc 112 4 ≤ bits li.data.toNat 31 0 ∧ bits li.data.toNat 31 0 ≠ 2 ^ 32 - 1)) ∧
    (∃ (s : State) (i : Inst) (p : Placement) (tile : Nat) (tb : Strm) (ix : Strm) (gd : Strm) (st : Strm) (gi : Rgn) (gg : Rgn) (g : Rgn) (ei : Tlb) (eg : Tlb) (e : Tlb) (li : LcLine) (lg : LcLine) (l : LcLine), (OpStart s 2 i p tile ∧ i.streams = [tb, ix, gd, st] ∧ i.rpkt = false ∧ tb.gath = true ∧ st.len = 0 ∧ ix.len = 4 ∧ gd.len = 128 ∧ Mapped s tile ix ei) ∧
      (Mapped s tile gd eg ∧ Cached s tile ix.base gi ei li ∧ Cached s tile gd.base gg eg lg ∧ Cached s tile (tb.base + bits li.data.toNat 31 0 * 128) g e l ∧ g.mode = 1 ∧ s.lineHeld (leafDpa e.entry e.bits (ptrOff (tb.base + bits li.data.toNat 31 0 * 128)) / 128 * 128) = none ∧ dN i.desc 80 4 * 128 ≤ tb.len ∧ dN i.desc 80 4 ≤ 2 ^ 31) ∧
      (dN i.desc 84 4 = 1 ∧ dN i.desc 88 2 = 32 ∧ dN i.desc 90 1 = 0 ∧ dN i.desc 91 1 = 0 ∧ dN i.desc 92 4 = 128 ∧ bits li.data.toNat 31 0 < dN i.desc 80 4)) ∧
    (∃ (s : State) (i : Inst) (p : Placement) (tile : Nat) (ks : Strm) (vs : Strm) (qs : Strm) (os : Strm) (ls : Strm) (g : Rgn) (e : Tlb) (eo : Tlb) (el : Tlb) (l : LcLine), (OpStart s 3 i p tile ∧ i.streams = [ks, vs, qs, os, ls] ∧ i.rpkt = true ∧ i.mute = false ∧ ks.len = 0 ∧ vs.len = 0 ∧ qs.len = 128 ∧ os.len = 256) ∧
      (ls.len = 4 ∧ Mapped s tile qs e ∧ Mapped s tile os eo ∧ Mapped s tile ls el ∧ Cached s tile qs.base g e l ∧ dN i.desc 96 4 = 0 ∧ dN i.desc 104 1 = 1 ∧ dN i.desc 105 1 = 1) ∧
      (dN i.desc 106 2 = 1 ∧ dN i.desc 108 1 = 0 ∧ dN i.desc 109 1 = 0x22 ∧ dN i.desc 110 1 = 2)) ∧
    (∃ (s : State) (i : Inst) (p : Placement) (tile : Nat) (ko : Strm) (vo : Strm) (ki : Strm) (vi : Strm) (gk : Rgn) (gv : Rgn) (eko : Tlb) (evo : Tlb) (ek : Tlb) (ev : Tlb) (lk : LcLine) (lv : LcLine) (pos : Nat), (OpStart s 4 i p tile ∧ i.streams = [ko, vo, ki, vi] ∧ i.rpkt = true ∧ i.mute = false ∧ dN i.desc 80 4 = pos ∧ ko.len = 128 * (pos + 1) ∧ vo.len = 128 * (pos + 1) ∧ ki.len = 128) ∧
      (vi.len = 128 ∧ Mapped s tile ko eko ∧ Mapped s tile vo evo ∧ Mapped s tile ki ek ∧ Mapped s tile vi ev ∧ Cached s tile ki.base gk ek lk ∧ Cached s tile vi.base gv ev lv ∧ dN i.desc 84 2 = 1) ∧
      (dN i.desc 86 1 = 1 ∧ dN i.desc 87 1 = 0 ∧ dN i.desc 88 1 = 0x22 ∧ dN i.desc 89 1 = 2)) :=
  ⟨⟨sOp (insO 5 [stm 0 128 false false, stm 1 128 true false] [] false) [7, 9], insO 5 [stm 0 128 false false, stm 1 128 true false] [] false, plcO 5, 0, stm 0 128 false false, stm 1 128 true false, rgnOf 7 (rgn7 1), rgnOf 7 (rgn7 1), leaf1 64, leaf1 64, lineN 0 7, lineN 1 9, by decide +kernel, by decide +kernel⟩,
    ⟨sOp (insG 2) [1, 0, 0, 0x40400000BF800000], insG 2, plcO 1, 0, stm 2 256 false true, stm 0 4 false false, no, no, stm 1 128 true false, no, rgnOf 7 (rgn7 1), leaf1 64, leaf1 64, lineN 0 1, rgnOf 7 (rgn7 1), leaf1 64, lineN 3 0x40400000BF800000, by decide +kernel, by decide +kernel, by decide +kernel⟩,
    ⟨sOp (insG 2) [5, 0, 0, 0x40400000BF800000], insG 2, plcO 1, 0, stm 2 256 false true, stm 0 4 false false, no, no, stm 1 128 true false, no, rgnOf 7 (rgn7 1), leaf1 64, leaf1 64, lineN 0 5, by decide +kernel, by decide +kernel, by decide +kernel⟩,
    ⟨sOp insS [1, 0x3F8000003F800000, 0, 0x40400000BF800000], insS, plcO 2, 0, stm 2 256 true true, stm 0 4 false false, stm 1 128 false false, no, rgnOf 7 (rgn7 1), rgnOf 7 (rgn7 1), rgnOf 7 (rgn7 1), leaf1 64, leaf1 64, leaf1 64, lineN 0 1, lineN 1 0x3F8000003F800000, lineN 3 0x40400000BF800000, by decide +kernel, by decide +kernel, by decide +kernel⟩,
    ⟨sOp insP [7], insP, plcO 3, 0, no, no, stm 0 128 false false, stm 1 256 true false, stm 3 4 true false, rgnOf 7 (rgn7 1), leaf1 64, leaf1 64, leaf1 64, lineN 0 7, by decide +kernel, by decide +kernel, by decide +kernel⟩,
    ⟨sOp insK [0, 0, 0, 0, 0xBF803FC0, 0x40403F80], insK, plcO 4, 0, stm 0 256 true false, stm 2 256 true false, stm 4 128 false false, stm 5 128 false false, rgnOf 7 (rgn7 1), rgnOf 7 (rgn7 1), leaf1 64, leaf1 64, leaf1 64, leaf1 64, lineN 4 0xBF803FC0, lineN 5 0x40403F80, 1, by decide +kernel, by decide +kernel, by decide +kernel⟩⟩

theorem witness_FlitsLanesAndLasers_part1 :
    (∃ (s : State) (p : Fin 64), (Running s ∧ s.lstate p.val ≠ 3)) ∧
    (∃ (s : State) (p : Fin 64), (Running s ∧ s.on (F.hdrStateInreset (768 + p.val)) = true)) ∧
    (∃ (s : State) (p : Fin 64), (Running s ∧ s.lstate p.val = 3 ∧ s.on (F.hdrStateInreset (768 + p.val)) = false)) ∧
    (∃ (s : State) (p : Fin 64) (x : LaneFlit) (f : FlitIn) (us : _), (LinkIdle s p.val ∧ s.on (F.hdrStateInreset (768 + p.val)) = false ∧ OneFlit s p.val x f ∧ NothingToSend s p.val ∧ PlainFlit f 2 (s.link p.val).expect 0 us)) ∧
    (∃ (s : State) (p : Fin 64) (x : LaneFlit) (f : FlitIn) (v : Nat) (a : BitVec 128) (b : BitVec 128) (us : List (BitVec 128)), (LinkIdle s p.val ∧ s.on (F.hdrStateInreset (768 + p.val)) = false ∧ OneFlit s p.val x f ∧ NothingToSend s p.val ∧ v < 6 ∧ PlainFlit f 1 (s.link p.val).expect v (a :: b :: 0 :: us) ∧ a.toNat % 256 ≠ 0 ∧ bits a.toNat 12 8 = 2) ∧
      ((s.link p.val).stream = [[], [], [], [], [], []] ∧ (s.link p.val).held = [0, 0, 0, 0, 0, 0])) ∧
    (∃ (s : State) (p : Fin 64) (x : LaneFlit) (f : FlitIn) (v : Nat) (n : Nat) (us : List (BitVec 128)), (LinkIdle s p.val ∧ s.on (F.hdrStateInreset (768 + p.val)) = false ∧ OneFlit s p.val x f ∧ NothingToSend s p.val ∧ PlainFlit f 1 n v us ∧ v < 6 ∧ n ≠ (s.link p.val).expect ∧ (s.link p.val).rr = false)) ∧
    (∃ (s : State) (p : Fin 64) (x : LaneFlit) (f : FlitIn), (LinkIdle s p.val ∧ s.on (F.hdrStateInreset (768 + p.val)) = false ∧ OneFlit s p.val x f ∧ NothingToSend s p.val ∧ flitBad f = true)) ∧
    (∃ (s : State) (p : Fin 64) (lane : Fin 4) (m : _), (LinkIdle s p.val ∧ s.on (F.hdrStateInreset (768 + p.val)) = false ∧ tst (s.rd (F.fportLstatTxmask p.val)) lane.val = true ∧ (s.link p.val).lit = 2 ^ lane.val ∧ (s.link p.val).roll = [] ∧ NoCopies s p.val ∧ (s.link p.val).replay.length < 4096 ∧ (s.link p.val).ctl = [m])) :=
  ⟨⟨s0, 3, by decide +kernel⟩,
    ⟨sL.wr (F.hdrStateInreset 771) 1, 3, by decide +kernel⟩,
    ⟨sL, 3, by decide +kernel⟩,
    ⟨sL, 3, peerFlit 2 0 0 (units [0x105]), (fecFlit 0 1 (peerFlit 2 0 0 (units [0x105])).words), units [0x105], by decide +kernel⟩,
    ⟨sL, 3, peerFlit 1 0 2 (units [0x221, 7]), (fecFlit 0 1 (peerFlit 1 0 2 (units [0x221, 7])).words), 2, 0x221, 7, List.replicate 12 0, by decide +kernel, by decide +kernel⟩,
    ⟨sL, 3, peerFlit 1 5 2 (units [0x221, 7]), (fecFlit 0 1 (peerFlit 1 5 2 (units [0x221, 7])).words), 2, 5, units [0x221, 7], by decide +kernel⟩,
    ⟨sL, 3, (⟨0, []⟩ : LaneFlit), (fecFlit 0 1 ((⟨0, []⟩ : LaneFlit)).words), by decide +kernel⟩,
    ⟨onL (fun l => { l with lit := 1, ctl := [linkMsg 2 7] }) sL, 3, 0, linkMsg 2 7, by decide +kernel⟩⟩

theorem witness_FlitsLanesAndLasers_part2 :
    (∃ (s : State) (p : Fin 64) (lane : Fin 4) (k : Pkt), (LinkIdle s p.val ∧ s.on (F.hdrStateInreset (768 + p.val)) = false ∧ tst (s.rd (F.fportLstatTxmask p.val)) lane.val = true ∧ (s.link p.val).lit = 2 ^ lane.val ∧ (s.link p.val).roll = [] ∧ NoCopies s p.val ∧ (s.link p.val).replay.length < 4096 ∧ (s.link p.val).ctl = []) ∧
      (s.out = [k] ∧ k.port = p ∧ systemPkt k.opc.toNat = true ∧ k.len.toNat ≤ 15 ∧ (s.link p.val).sending = [[], [], [], [], [], []] ∧ (s.link p.val).credit.getD (vcOf k.opc.toNat) 0 ≠ 0 ∧ s.on (F.fportShapeEn p.val) = false)) ∧
    (∃ (s : State) (p : Fin 64) (lane : Fin 4), (LinkIdle s p.val ∧ s.on (F.hdrStateInreset (768 + p.val)) = false ∧ tst (s.rd (F.fportLstatTxmask p.val)) lane.val = true ∧ (s.link p.val).lit = 2 ^ lane.val ∧ (s.link p.val).roll = [] ∧ NoCopies s p.val ∧ (s.link p.val).replay.length < 4096 ∧ (s.link p.val).ctl = []) ∧
      (s.out = [] ∧ (s.link p.val).sending = [[], [], [], [], [], []])) ∧
    (∃ (s : State) (p : Fin 64) (lanes : BitVec 4), (Running s ∧ ((s.lstate p.val ≠ 3 ∨ lanes.toNat &&& s.rd (F.fportLstatRxmask p.val) = 0)))) ∧
    (∃ (s : State) (p : Fin 64) (lanes : BitVec 4), (LinkIdle s p.val ∧ lanes.toNat &&& s.rd (F.fportLstatRxmask p.val) ≠ 0 ∧ without (s.rd (F.fportLstatRxmask p.val)) (lanes.toNat &&& s.rd (F.fportLstatRxmask p.val)) ≠ 0)) ∧
    (∃ (s : State) (p : Fin 64) (lanes : BitVec 4), (LinkIdle s p.val ∧ lanes.toNat &&& s.rd (F.fportLstatRxmask p.val) ≠ 0 ∧ without (s.rd (F.fportLstatRxmask p.val)) (lanes.toNat &&& s.rd (F.fportLstatRxmask p.val)) = 0 ∧ (s.link p.val).lostAt = none)) ∧
    (∃ (s : State) (p : Fin 64), (Running s ∧ (s.link p.val).lostAt = none)) ∧
    (∃ (s : State) (p : Fin 64) (lane : Fin 4) (n : Nat), (Running s ∧ s.lstate p.val = 3 ∧ (s.link p.val).lostAt = some n ∧ s.beat < n + 500 ∧ tst (s.link p.val).dark lane.val = true)) ∧
    (∃ (s : State) (p : Fin 64) (n : Nat), (Running s ∧ s.lstate p.val = 3 ∧ (s.link p.val).lostAt = some n ∧ s.beat < n + 500)) :=
  ⟨⟨{ onL (fun l => { l with lit := 1 }) sL with out := [pkS] }, 3, 0, pkS, by decide +kernel, by decide +kernel⟩,
    ⟨onL (fun l => { l with lit := 1 }) sL, 3, 0, by decide +kernel, by decide +kernel⟩,
    ⟨s0, 3, 1, by decide +kernel⟩,
    ⟨sL, 3, 1, by decide +kernel⟩,
    ⟨sL, 3, 15, by decide +kernel⟩,
    ⟨sL, 3, by decide +kernel⟩,
    ⟨onL (fun l => { l with lostAt := some 3999900, dark := 15 }) sL, 3, 1, 3999900, by decide +kernel⟩,
    ⟨onL (fun l => { l with lostAt := some 3999900, dark := 15 }) sL, 3, 3999900, by decide +kernel⟩⟩

theorem witness_FlitsLanesAndLasers_part3 :
    (∃ (s : State) (p : Fin 64) (n : Nat), (Running s ∧ s.lstate p.val = 3 ∧ (s.link p.val).lostAt = some n ∧ n + 500 ≤ s.beat)) ∧
    (∃ (s : State) (p : Fin 64), (Running s ∧ s.lstate p.val = 3 ∧ s.beat < (s.link p.val).lastGood + 500)) ∧
    (∃ (s : State) (p : Fin 64), (Running s ∧ s.lstate p.val = 3 ∧ (s.link p.val).lastGood + 500 ≤ s.beat)) ∧
    (∃ (s : State) (p : Fin 64), (Running s ∧ ((s.lstate p.val ≠ 3 ∨ (s.link p.val).rr = false ∨ s.beat < (s.link p.val).rrSince + max 64 (ceilDiv (2 * s.rd (F.fportLstatRtt p.val)) 32))))) ∧
    (∃ (s : State) (p : Fin 64), (LinkIdle s p.val ∧ (s.link p.val).rr = true ∧ (s.link p.val).rrSince + max 64 (ceilDiv (2 * s.rd (F.fportLstatRtt p.val)) 32) ≤ s.beat ∧ (s.link p.val).rrCount < 7)) ∧
    (∃ (s : State) (p : Fin 64), (LinkIdle s p.val ∧ (s.link p.val).rr = true ∧ (s.link p.val).rrSince + max 64 (ceilDiv (2 * s.rd (F.fportLstatRtt p.val)) 32) ≤ s.beat ∧ 7 ≤ (s.link p.val).rrCount)) ∧
    (∃ (s : State), Running s) ∧
    (∃ (s : State) (g : Fin 8) (c : Cmd), (Running s ∧ Accepts s (768 + 8 * g.val) c ∧ s.on (if s.rd (F.fportLaserActive g.val) = 0 then F.fportLaserBok g.val else F.fportLaserAok g.val) = true)) ∧
    (∃ (s : State) (g : Fin 8) (c : Cmd), (Running s ∧ Accepts s (768 + 8 * g.val) c ∧ s.on (if s.rd (F.fportLaserActive g.val) = 0 then F.fportLaserBok g.val else F.fportLaserAok g.val) = false)) :=
  ⟨⟨onL (fun l => { l with lostAt := some 3999500, dark := 15 }) sL, 3, 3999500, by decide +kernel⟩,
    ⟨onL (fun l => { l with lastGood := 3999900 }) sL, 3, by decide +kernel⟩,
    ⟨onL (fun l => { l with lastGood := 3999500 }) sL, 3, by decide +kernel⟩,
    ⟨sL, 3, by decide +kernel⟩,
    ⟨onL (fun l => { l with rr := true, rrSince := 3999900, rrCount := 2 }) sL, 3, by decide +kernel⟩,
    ⟨onL (fun l => { l with rr := true, rrSince := 3999900, rrCount := 7 }) sL, 3, by decide +kernel⟩,
    ⟨sL, by decide +kernel⟩,
    ⟨sL.wr (F.fportLaserBok 1) 1, 1, cm, by decide +kernel⟩,
    ⟨(sL.wr (F.fportLaserBok 1) 0).wr (F.fportLaserActive 1) 0, 1, cm, by decide +kernel⟩⟩

theorem witness_LinkMessages_part1 :
    (∃ (s : State) (p : Fin 64) (mask : BitVec 4) (c : Cmd), (LinkIdle s p.val ∧ Accepts s (768 + p.val) c ∧ s.on (F.fportLctlDisable p.val) = false ∧ mask ≠ 0 ∧ mask.toNat ≠ s.rd (F.fportLstatTxmask p.val))) ∧
    (∃ (s : State) (p : Fin 64) (mask : BitVec 4) (c : Cmd), (LinkIdle s p.val ∧ Accepts s (768 + p.val) c ∧ s.on (F.fportLctlDisable p.val) = false ∧ mask ≠ 0 ∧ mask.toNat = s.rd (F.fportLstatTxmask p.val))) ∧
    (∃ (s : State) (p : Fin 64) (c : Cmd), (LinkIdle s p.val ∧ Accepts s (768 + p.val) c ∧ s.on (F.fportLctlDisable p.val) = false)) ∧
    (∃ (s : State) (p : Fin 64), (LinkIdle s p.val ∧ s.on (F.fportLctlAutow p.val) = true ∧ (s.link p.val).widenAt + 3125000 ≤ s.beat ∧ without (s.rd (F.fportLctlWmask p.val)) (s.rd (F.fportLstatTxmask p.val)) ≠ 0)) ∧
    (∃ (s : State) (p : Fin 64), (Running s ∧ ((s.on (F.fportLctlAutow p.val) = false ∨ s.beat < (s.link p.val).widenAt + 3125000 ∨ s.lstate p.val ≠ 3)))) ∧
    (∃ (s : State) (p : Fin 64) (r : LinkReq), (Running s ∧ (s.link p.val).req = some r ∧ (r.retrain = true ∨ s.beat < r.since + 31250))) ∧
    (∃ (s : State) (p : Fin 64) (r : LinkReq), (Running s ∧ (s.link p.val).req = some r ∧ r.retrain = false ∧ r.since + 31250 ≤ s.beat ∧ (s.link p.val).want = [])) ∧
    (∃ (s : State) (p : Fin 64) (mask : BitVec 4), (LinkIdle s p.val ∧ mask ≠ 0)) ∧
    (∃ (s : State) (p : Fin 64) (mask : BitVec 4) (r : LinkReq), (Running s ∧ s.lstate p.val = 3 ∧ mask ≠ 0 ∧ (s.link p.val).req = some r ∧ s.rd (F.fportPeerIdId p.val) < s.rd (F.fportEndIdId p.val))) ∧
    (∃ (s : State) (p : Fin 64) (mask : BitVec 4) (r : LinkReq), (Running s ∧ s.lstate p.val = 3 ∧ mask ≠ 0 ∧ (s.link p.val).req = some r ∧ (s.link p.val).ctl = [] ∧ s.rd (F.fportEndIdId p.val) ≤ s.rd (F.fportPeerIdId p.val))) :=
  ⟨⟨sL, 3, 3, cm, by decide +kernel⟩,
    ⟨sL, 3, 15, cm, by decide +kernel⟩,
    ⟨sL, 3, cm, by decide +kernel⟩,
    ⟨(sL.wr (F.fportLctlAutow 3) 1).wr (F.fportLstatTxmask 3) 3, 3, by decide +kernel⟩,
    ⟨sL.wr (F.fportLctlAutow 3) 0, 3, by decide +kernel⟩,
    ⟨onL (fun l => { l with req := some ⟨false, 7, 3, 3999900⟩ }) sL, 3, (⟨false, 7, 3, 3999900⟩ : LinkReq), by decide +kernel⟩,
    ⟨onL (fun l => { l with req := some ⟨false, 7, 3, 3000000⟩ }) sL, 3, (⟨false, 7, 3, 3000000⟩ : LinkReq), by decide +kernel⟩,
    ⟨sL, 3, 3, by decide +kernel⟩,
    ⟨onL (fun l => { l with req := some ⟨false, 7, 3, 3000000⟩ }) (raw sL (F.fportEndIdId 3).csa 9), 3, 3, (⟨false, 7, 3, 3000000⟩ : LinkReq), by decide +kernel⟩,
    ⟨onL (fun l => { l with req := some ⟨false, 7, 3, 3000000⟩ }) (raw (sL.wr (F.fportPeerIdId 3) 10) (F.fportEndIdId 3).csa 9), 3, 3, (⟨false, 7, 3, 3000000⟩ : LinkReq), by decide +kernel⟩⟩

theorem witness_LinkMessages_part2 :
    (∃ (s : State) (p : Fin 64) (token : BitVec 8) (r : LinkReq), (Running s ∧ s.lstate p.val = 3 ∧ (s.link p.val).req = some r ∧ r.retrain = false ∧ r.token = token.toNat)) ∧
    (∃ (s : State) (p : Fin 64) (token : BitVec 8) (mask : BitVec 4) (w : WidthCh), (Running s ∧ s.lstate p.val = 3 ∧ (s.link p.val).width = some w ∧ w.token = token.toNat ∧ w.mask = mask.toNat ∧ w.sent = none)) ∧
    (∃ (s : State) (p : Fin 64) (token : BitVec 8) (mask : BitVec 4) (w : WidthCh) (n : _), (Running s ∧ s.lstate p.val = 3 ∧ (s.link p.val).width = some w ∧ w.token = token.toNat ∧ w.mask = mask.toNat ∧ w.sent = some n ∧ ((∀ f ∈ (s.link p.val).replay, f.seq ≠ n)) ∧ (s.link p.val).dark = 0)) ∧
    (∃ (s : State) (p : Fin 64), (Running s ∧ (s.link p.val).width = none)) ∧
    (∃ (s : State) (p : Fin 64), LinkIdle s p.val) ∧
    (∃ (s : State) (p : Fin 64) (token : BitVec 8) (r : LinkReq), (Running s ∧ (s.link p.val).req = some r ∧ s.lstate p.val = 3 ∧ r.retrain = true ∧ r.token = token.toNat)) ∧
    (∃ (s : State) (p : Fin 64) (token : BitVec 8) (r : LinkReq), (Running s ∧ (s.link p.val).req = some r ∧ r.token ≠ token.toNat)) ∧
    (∃ (s : State) (p : Fin 64) (token : BitVec 8) (w : WidthCh), (Running s ∧ (s.link p.val).width = some w ∧ w.token = token.toNat ∧ w.go = false ∧ (s.link p.val).want = [])) ∧
    (∃ (s : State) (p : Fin 64), (Running s ∧ (s.link p.val).width = none ∧ (s.link p.val).req = none)) ∧
    (∃ (s : State) (p : Fin 64) (x : BitVec 4), (LinkIdle s p.val ∧ s.rd (F.fportLstatTxmask p.val) &&& x.toNat ≠ 0 ∧ without (s.rd (F.fportLstatTxmask p.val)) x.toNat ≠ 0)) :=
  ⟨⟨onL (fun l => { l with req := some ⟨false, 7, 3, 3000000⟩ }) sL, 3, 7, (⟨false, 7, 3, 3000000⟩ : LinkReq), by decide +kernel⟩,
    ⟨onL (fun l => { l with width := some ⟨9, 3, false, none, false⟩ }) sL, 3, 9, 3, (⟨9, 3, false, none, false⟩ : WidthCh), by decide +kernel⟩,
    ⟨onL (fun l => { l with width := some ⟨9, 3, true, some 4, false⟩ }) sL, 3, 9, 3, (⟨9, 3, true, some 4, false⟩ : WidthCh), 4, by decide +kernel⟩,
    ⟨sL, 3, by decide +kernel⟩,
    ⟨sL, 3, by decide +kernel⟩,
    ⟨onL (fun l => { l with req := some ⟨true, 7, 3, 3000000⟩ }) sL, 3, 7, (⟨true, 7, 3, 3000000⟩ : LinkReq), by decide +kernel⟩,
    ⟨onL (fun l => { l with req := some ⟨true, 7, 3, 3000000⟩ }) sL, 3, 8, (⟨true, 7, 3, 3000000⟩ : LinkReq), by decide +kernel⟩,
    ⟨onL (fun l => { l with width := some ⟨9, 3, false, none, false⟩ }) sL, 3, 9, (⟨9, 3, false, none, false⟩ : WidthCh), by decide +kernel⟩,
    ⟨sL, 3, by decide +kernel⟩,
    ⟨sL, 3, 6, by decide +kernel⟩⟩

theorem witness_LinkMessages_part3 :
    (∃ (s : State) (p : Fin 64) (c : Cmd), (LinkIdle s p.val ∧ Accepts s (768 + p.val) c ∧ s.on (F.fportLctlDisable p.val) = false ∧ s.rd (F.fportLctlWmask p.val) = s.rd (F.fportLstatTxmask p.val) ∧ s.rd (F.fportLctlWmask p.val) ≠ 0)) ∧
    (∃ (s : State) (p : Fin 64) (c : Cmd), (Running s ∧ Accepts s (768 + p.val) c ∧ s.on (F.fportLctlDisable p.val) = false ∧ s.lstate p.val ≠ 3)) ∧
    (∃ (s : State) (p : Fin 64) (lane : Fin 4) (count : BitVec 32), (LinkIdle s p.val ∧ tst (s.rd (F.fportLstatRxmask p.val)) lane.val = true ∧ s.rd (F.fportLctlCsymMax p.val) < count.toNat)) ∧
    (∃ (s : State) (p : Fin 64) (lane : Fin 4) (count : BitVec 32), (LinkIdle s p.val ∧ tst (s.rd (F.fportLstatRxmask p.val)) lane.val = true ∧ count.toNat ≤ s.rd (F.fportLctlCsymMax p.val))) ∧
    (∃ (s : State) (p : Fin 64), (Running s ∧ (s.link p.val).ident = true ∧ (((s.lstate p.val = 4 ∧ s.beat < (s.link p.val).retrainAt + 2500) ∨ (s.lstate p.val = 5 ∧ (s.link p.val).training.isSome = true ∧ s.beat < (s.link p.val).expiry))) ∧ (s.link p.val).want = [])) ∧
    (∃ (s : State) (p : Fin 64), (Running s ∧ s.lstate p.val ≤ 3)) ∧
    (∃ (s : State) (p : Fin 64) (n : BitVec 96), (Running s ∧ s.lstate p.val = 2 ∧ ((∀ i, i < 6 → 8 ≤ bits n.toNat (16 * i + 15) (16 * i))))) ∧
    (∃ (s : State) (p : Fin 64) (n : BitVec 96), (Running s ∧ s.lstate p.val = 2 ∧ ((∃ i : Nat, i < 6 ∧ bits n.toNat (16 * i + 15) (16 * i) < 8)))) ∧
    (∃ (s : State) (p : Fin 64), (Running s ∧ s.lstate p.val = 0)) ∧
    (∃ (s : State) (p : Fin 64), (Running s ∧ s.lstate p.val ≠ 0 ∧ s.peers = [] ∧ s.homes.txns = [])) :=
  ⟨⟨sL, 3, cm, by decide +kernel⟩,
    ⟨sSt 4, 3, cm, by decide +kernel⟩,
    ⟨sL, 3, 2, 0xFFFFFFFF, by decide +kernel⟩,
    ⟨sL, 3, 2, 0, by decide +kernel⟩,
    ⟨onL (fun l => { l with ident := true, retrainAt := 3999000, training := some 3999000 }) (sSt 4), 3, by decide +kernel⟩,
    ⟨sSt 1, 3, by decide +kernel⟩,
    ⟨sSt 2, 3, 0x002000200020002000200020, by decide +kernel⟩,
    ⟨sSt 2, 3, 0, by decide +kernel⟩,
    ⟨sSt 0, 3, by decide +kernel⟩,
    ⟨sSt 3, 3, by decide +kernel⟩⟩

theorem witness_TrainingAndHold_part1 :
    (∃ (s : State) (p : Fin 64) (c : Cmd), (Running s ∧ Accepts s (768 + p.val) c ∧ s.on (F.fportLctlDisable p.val) = false ∧ s.rd (F.fportLctlWmask p.val) ≠ 0 ∧ s.peers = [] ∧ s.homes.txns = [])) ∧
    (∃ (s : State) (p : Fin 64) (c : Cmd), (Running s ∧ Accepts s (768 + p.val) c ∧ s.on (F.fportLctlDisable p.val) = true ∧ s.lstate p.val = 0 ∧ s.rd (F.fportLctlWmask p.val) ≠ 0)) ∧
    (∃ (s : State) (p : Fin 64), (Running s ∧ s.lstate p.val = 1)) ∧
    (∃ (s : State) (p : Fin 64), (Running s ∧ s.lstate p.val = 5 ∧ (s.link p.val).training = none)) ∧
    (∃ (s : State) (p : Fin 64), (Running s ∧ s.lstate p.val ≠ 1 ∧ s.lstate p.val ≠ 5)) ∧
    (∃ (s : State) (p : Fin 64) (id : BitVec 64) (full : Bool) (half : Bool) (lanes : BitVec 4) (rtt : BitVec 32) (r : _), (Running s ∧ s.lstate p.val = 2 ∧ pickRate (s.rd (F.fportLctlRate p.val)) rtt.toNat full half = some r ∧ lanes ≠ 0 ∧ id.toNat ≠ s.rd (F.fportEndIdId p.val) ∧ (s.link p.val).credited = true)) ∧
    (∃ (s : State) (p : Fin 64) (full : Bool) (half : Bool) (lanes : BitVec 4) (rtt : BitVec 32), (Running s ∧ s.lstate p.val = 2 ∧ (pickRate (s.rd (F.fportLctlRate p.val)) rtt.toNat full half = none ∨ lanes = 0))) :=
  ⟨⟨sL, 3, cm, by decide +kernel⟩,
    ⟨(sSt 0).wr (F.fportLctlDisable 3) 1, 3, cm, by decide +kernel⟩,
    ⟨sSt 1, 3, by decide +kernel⟩,
    ⟨sSt 5, 3, by decide +kernel⟩,
    ⟨sL, 3, by decide +kernel⟩,
    ⟨onL (fun l => { l with credited := true, training := some 3999000 }) (raw (sSt 2) (F.fportEndIdId 3).csa 9), 3, 77, true, true, 3, 100, 0, by decide +kernel⟩,
    ⟨sSt 2, 3, false, false, 3, 100, by decide +kernel⟩⟩

theorem witness_TrainingAndHold_part2 :
    (∃ (s : State) (p : Fin 64) (id : BitVec 64) (full : Bool) (half : Bool) (lanes : BitVec 4) (rtt : BitVec 32) (r : _), (Running s ∧ s.lstate p.val = 2 ∧ pickRate (s.rd (F.fportLctlRate p.val)) rtt.toNat full half = some r ∧ lanes ≠ 0 ∧ id.toNat = s.rd (F.fportEndIdId p.val))) ∧
    (∃ (s : State) (p : Fin 64) (id : BitVec 64) (full : Bool) (half : Bool) (lanes : BitVec 4) (rtt : BitVec 32) (r : _), (Running s ∧ s.lstate p.val = 2 ∧ pickRate (s.rd (F.fportLctlRate p.val)) rtt.toNat full half = some r ∧ lanes ≠ 0 ∧ id.toNat ≠ s.rd (F.fportEndIdId p.val) ∧ (s.link p.val).credited = false)) ∧
    (∃ (s : State) (p : Fin 64) (full : Bool) (half : Bool) (rtt : BitVec 32) (r : Nat), (Running s ∧ pickRate (s.rd (F.fportLctlRate p.val)) rtt.toNat full half = some r ∧ s.lstate p.val = 4 ∧ s.beat < (s.link p.val).retrainAt + 2500 ∧ (s.link p.val).resumed = none)) ∧
    (∃ (s : State) (p : Fin 64) (id : BitVec 64) (resumable : Bool) (full : Bool) (half : Bool) (lanes : BitVec 4) (rtt : BitVec 32) (r : Nat), (Running s ∧ pickRate (s.rd (F.fportLctlRate p.val)) rtt.toNat full half = some r ∧ s.lstate p.val = 5 ∧ (s.link p.val).training.isSome = true ∧ s.beat < (s.link p.val).expiry ∧ lanes ≠ 0 ∧ id.toNat = s.rd (F.fportPeerIdId p.val) ∧ resumable = true) ∧
      (s.link p.val).resumed = none) ∧
    (∃ (s : State) (p : Fin 64) (id : BitVec 64) (resumable : Bool) (full : Bool) (half : Bool) (lanes : BitVec 4) (rtt : BitVec 32) (r : Nat), (Running s ∧ pickRate (s.rd (F.fportLctlRate p.val)) rtt.toNat full half = some r ∧ s.lstate p.val = 5 ∧ (s.link p.val).training.isSome = true ∧ s.beat < (s.link p.val).expiry ∧ lanes ≠ 0 ∧ ((id.toNat ≠ s.rd (F.fportPeerIdId p.val) ∨ resumable = false)) ∧ s.peers = []) ∧
      s.homes.txns = []) ∧
    (∃ (s : State) (p : Fin 64), (Running s ∧ ((s.lstate p.val ≤ 1 ∨ s.lstate p.val = 3)))) ∧
    (∃ (s : State) (p : Fin 64), (Running s ∧ (s.link p.val).training = none)) :=
  ⟨⟨raw (sSt 2) (F.fportEndIdId 3).csa 9, 3, 9, true, false, 3, 100, 0, by decide +kernel⟩,
    ⟨raw (sSt 2) (F.fportEndIdId 3).csa 9, 3, 77, true, false, 3, 100, 0, by decide +kernel⟩,
    ⟨onL (fun l => { l with retrainAt := 3999000, training := some 3999000 }) (sSt 4), 3, true, false, 100, 0, by decide +kernel⟩,
    ⟨onL (fun l => { l with expiry := 5000000, training := some 3999000 }) (sSt 5), 3, 0, true, true, false, 3, 100, 0, by decide +kernel, by decide +kernel⟩,
    ⟨onL (fun l => { l with expiry := 5000000, training := some 3999000 }) (sSt 5), 3, 0, false, true, false, 3, 100, 0, by decide +kernel, by decide +kernel⟩,
    ⟨sL, 3, by decide +kernel⟩,
    ⟨sL, 3, by decide +kernel⟩⟩

theorem witness_TrainingAndHold_part3 :
    (∃ (s : State) (p : Fin 64) (failed : Bool) (n : _), (Running s ∧ (s.link p.val).training = some n ∧ failed = false ∧ s.beat < n + 625000)) ∧
    (∃ (s : State) (p : Fin 64) (failed : Bool) (n : _), (Running s ∧ (s.link p.val).training = some n ∧ ((failed = true ∨ n + 625000 ≤ s.beat)) ∧ s.lstate p.val = 2)) ∧
    (∃ (s : State) (p : Fin 64) (failed : Bool) (n : _), (Running s ∧ (s.link p.val).training = some n ∧ ((failed = true ∨ n + 625000 ≤ s.beat)) ∧ s.lstate p.val = 5)) ∧
    (∃ (s : State) (p : Fin 64), (Running s ∧ (s.lstate p.val ≠ 4 ∨ s.beat < (s.link p.val).retrainAt + 2500))) ∧
    (∃ (s : State) (p : Fin 64), (Running s ∧ s.lstate p.val = 4 ∧ (s.link p.val).retrainAt + 2500 ≤ s.beat)) ∧
    (∃ (s : State) (p : Fin 64), (Running s ∧ (s.lstate p.val ≠ 5 ∨ s.beat < (s.link p.val).expiry))) ∧
    (∃ (s : State) (p : Fin 64), (Running s ∧ s.lstate p.val = 5 ∧ (s.link p.val).expiry ≤ s.beat ∧ s.peers = [] ∧ s.homes.txns = [])) :=
  ⟨⟨onL (fun l => { l with training := some 3999000 }) (sSt 2), 3, false, 3999000, by decide +kernel⟩,
    ⟨onL (fun l => { l with training := some 3999000 }) (sSt 2), 3, true, 3999000, by decide +kernel⟩,
    ⟨onL (fun l => { l with training := some 3000000 }) (sSt 5), 3, false, 3000000, by decide +kernel⟩,
    ⟨sL, 3, by decide +kernel⟩,
    ⟨onL (fun l => { l with retrainAt := 3999000 - 2000 }) (sSt 4), 3, by decide +kernel⟩,
    ⟨sL, 3, by decide +kernel⟩,
    ⟨onL (fun l => { l with expiry := 3999000 }) (sSt 5), 3, by decide +kernel⟩⟩

theorem witness_TenantsAndPartitions_part1 :
    (∃ (s : State) (n : BitVec 8) (c : Cmd), (Running s ∧ Accepts s 857 c ∧ s.tenState n.toNat = 0)) ∧
    (∃ (s : State) (n : BitVec 8) (c : Cmd), (Running s ∧ Accepts s 857 c ∧ s.tenState n.toNat ≠ 0)) ∧
    (∃ (s : State) (n : BitVec 8) (c : Cmd), (Running s ∧ Accepts s 857 c ∧ s.tenState n.toNat = 1 ∧ ((∀ g ∈ s.rgns, g.tenant ≠ n.toNat)))) ∧
    (∃ (s : State) (n : BitVec 8) (c : Cmd) (g : Rgn), (Running s ∧ Accepts s 857 c ∧ s.tenState n.toNat = 1 ∧ s.on F.homeRgnCmdBusy = false ∧ s.rgn? g.id = some g ∧ g.tenant = n.toNat ∧ g.tier ≠ 2 ∧ ((∀ h ∈ s.rgns, h.tenant = n.toNat → h.id = g.id))) ∧
      (Quiet s ∧ s.homes.filter = [] ∧ s.homes.lc = [] ∧ s.homes.faults = [] ∧ s.homes.faultWait = [] ∧ s.homes.recs = [] ∧ s.pub.stagings = [] ∧ s.pub.copies = []) ∧
      (s.pub.commits = [] ∧ s.pub.olds = [] ∧ s.pub.pins = [] ∧ s.flash.moves = [] ∧ s.disp.insts = [])) ∧
    (∃ (s : State) (n : BitVec 8) (c : Cmd), (Running s ∧ Accepts s 857 c ∧ s.tenState n.toNat ≠ 1)) ∧
    (∃ (s : State) (n : BitVec 8), (Running s ∧ (s.tenState n.toNat ≠ 2 ∨ (∃ i ∈ s.disp.insts, i.tenant = n.toNat) ∨ s.jobBusy (jobTenant n.toNat) = true ∨ (∃ e ∈ s.disp.lastTen, e.2 = n.toNat + 1 ∧ s.tileState e.1 = 0)))) :=
  ⟨⟨s0, 3, cm, by decide +kernel⟩,
    ⟨{ s0 with sec := { s0.sec with tenants := [(3, 1)] } }, 3, cm, by decide +kernel⟩,
    ⟨let s := sIns { ins5 1 with tenant := 3 }; { s with sec := { s.sec with tenants := [(3, 1)] } }, 3, cm, by decide +kernel⟩,
    ⟨let s := sHost 1; { s with sec := { s.sec with tenants := [(0, 1)] }, homes := { s.homes with lc := [] } }, 0, cm, rgnOf 7 (rgn7 1), by decide +kernel, by decide +kernel, by decide +kernel⟩,
    ⟨s0, 3, cm, by decide +kernel⟩,
    ⟨s0, 3, by decide +kernel⟩⟩

theorem witness_TenantsAndPartitions_part2 :
    (∃ (s : State) (n : BitVec 8), (Running s ∧ s.tenState n.toNat = 2 ∧ ((∀ i ∈ s.disp.insts, i.tenant ≠ n.toNat)) ∧ s.jobBusy (jobTenant n.toNat) = false ∧ ((∀ e ∈ s.disp.lastTen, e.2 = n.toNat + 1 → s.tileState e.1 ≠ 0)))) ∧
    (∃ (s : State) (tile : Fin 672), (Running s ∧ (SMap.get 0 s.disp.lastTen tile.val = 0 ∨ s.tileBusy tile.val = true))) ∧
    (∃ (s : State) (tile : Fin 672), (Running s ∧ SMap.get 0 s.disp.lastTen tile.val ≠ 0 ∧ s.tileBusy tile.val = false ∧ s.disp.places = [])) ∧
    (∃ (s : State) (c : Cmd) (u : State), u = s.atHook F.secPartCtlEn.csa (s.compose F.secPartCtlEn.csa [(F.secPartCtlEn, 1)]) c ∧
      u.partFails = none ∧
      (Running s ∧ Accepts s 857 c ∧ s.on F.secPartCtlEn = false)) ∧
    (∃ (s : State) (c : Cmd) (u : State) (k : _), u = s.atHook F.secPartCtlEn.csa (s.compose F.secPartCtlEn.csa [(F.secPartCtlEn, 1)]) c ∧
      u.partFails = some k ∧
      (Running s ∧ Accepts s 857 c ∧ s.on F.secPartCtlEn = false)) ∧
    (∃ (s : State) (c : Cmd) (u : State), u = s.atHook F.secPartCtlEn.csa (s.compose F.secPartCtlEn.csa [(F.secPartCtlEn, 1)]) c ∧
      (Running s ∧ Accepts s 857 c ∧ s.on F.secPartCtlEn = true)) :=
  ⟨⟨{ s0 with sec := { s0.sec with tenants := [(3, 2)], gone := [⟨3, 1, 0, 16⟩] } }, 3, by decide +kernel⟩,
    ⟨s0, 671, by decide +kernel⟩,
    ⟨{ sCore with disp := { s0.disp with lastTen := [(671, 4)] } }, 671, by decide +kernel⟩,
    ⟨sStrict, cm, uStrict, rfl, strict_holds, by decide +kernel⟩,
    ⟨s0.wr (F.secPartEn 0) 1, cm, (s0.wr (F.secPartEn 0) 1).atHook F.secPartCtlEn.csa ((s0.wr (F.secPartEn 0) 1).compose F.secPartCtlEn.csa [(F.secPartCtlEn, 1)]) cm, ((((s0.wr (F.secPartEn 0) 1).atHook F.secPartCtlEn.csa ((s0.wr (F.secPartEn 0) 1).compose F.secPartCtlEn.csa [(F.secPartCtlEn, 1)]) cm).partFails).getD 99), rfl, some_getD (by decide +kernel), by decide +kernel⟩,
    ⟨s0.wr F.secPartCtlEn 1, cm, (s0.wr F.secPartCtlEn 1).atHook F.secPartCtlEn.csa ((s0.wr F.secPartCtlEn 1).compose F.secPartCtlEn.csa [(F.secPartCtlEn, 1)]) cm, rfl, by decide +kernel⟩⟩

theorem witness_SessionsAndRecords_part1 :
    (∃ (s : State) (conn : BitVec 16), (MgtServes s ∧ (s.session? conn.toNat).isSome = true)) ∧
    (∃ (s : State) (conn : BitVec 16), (MgtServes s ∧ s.session? conn.toNat = none ∧ s.sec.endorsed = false)) ∧
    (∃ (s : State) (conn : BitVec 16) (src : BitVec 128) (body : List Byte), (MgtServes s ∧ s.session? conn.toNat = none ∧ s.sec.endorsed = true ∧ ((s.srcBlocked src.toNat = true ∨ 16 ≤ s.sec.sessions.length ∨ (s.cfg? = none ∧ s.sec.sessions ≠ []) ∨ body.length < 1601 ∨ body.headD 0#8 ≠ 1#8)))) ∧
    (∃ (s : State) (conn : BitVec 16) (src : BitVec 128) (nc : List Byte) (key : List Byte) (nd : List Byte) (ct : List Byte) (ss : BitVec 256) (h1 : List Byte) (kd : Nat) (plain : List Byte), nd = natLe 32 (Config.secRandom s.free).toNat ∧
      (ct, ss) = Config.mlkemEncaps key s.free ∧
      h1 = 1#8 :: nc ++ key ++ nd ++ ct ∧
      kd = shakeWords 11 (ascii "T7-MGT-v1" ++ natLe 32 ss.toNat ++ dig (shake256 h1)) ∧
      plain = Config.idkCertificate ++ dig s.akPub ++ s.endorsement ++ Config.slhSign true s.akSeed (ascii "T7-MGT-DEVICE") (dig (shake256 h1)) ∧
      (MgtServes s ∧ nc.length = 32 ∧ key.length = 1568 ∧ s.session? conn.toNat = none ∧ s.sec.endorsed = true ∧ s.srcBlocked src.toNat = false ∧ s.sec.sessions.length < 16 ∧ ((s.cfg?.isSome = true ∨ s.sec.sessions = [])))) ∧
    (∃ (s : State) (conn : BitVec 16), (MgtServes s ∧ s.session? conn.toNat = none)) ∧
    (∃ (s : State) (conn : BitVec 16) (x : _), (MgtServes s ∧ s.session? conn.toNat = some x ∧ (x.last + 18750000000 ≤ s.beat ∨ 2 ^ 32 ≤ x.nIn ∨ 2 ^ 32 ≤ x.nOut))) :=
  ⟨⟨sSes none none, 4, by decide +kernel⟩,
    ⟨{ sSes none none with sec := { s0.sec with endorsed := false } }, 4, by decide +kernel⟩,
    ⟨sSes none none, 5, 9, [1], by decide +kernel⟩,
    ⟨{ sAt 1000 with sec := { s0.sec with endorsed := true } }, 5, 9, List.replicate 32 7, List.replicate 1568 9, _, (Config.mlkemEncaps (List.replicate 1568 9) ({ sAt 1000 with sec := { s0.sec with endorsed := true } }).free).1, (Config.mlkemEncaps (List.replicate 1568 9) ({ sAt 1000 with sec := { s0.sec with endorsed := true } }).free).2, _, _, _, rfl, pair_eta, rfl, rfl, rfl, by decide +kernel⟩,
    ⟨s0, 4, by decide +kernel⟩,
    ⟨{ sSes none none with beat := 18750001000 }, 4, ses none, by decide +kernel⟩⟩

theorem witness_SessionsAndRecords_part2 :
    (∃ (s : State) (conn : BitVec 16) (x : _), (MgtServes s ∧ s.session? conn.toNat = some x ∧ s.beat < x.last + 18750000000 ∧ x.nIn < 2 ^ 32 ∧ x.nOut < 2 ^ 32)) ∧
    (∃ (s : State), (MgtServes s ∧ ((4 ≤ s.rd F.rstCtlStage ∧ s.sec.fw.isSome = true) ∨ s.recovering = true))) ∧
    (∃ (s : State), (MgtServes s ∧ s.recovering = false ∧ ((s.rd F.rstCtlStage < 4 ∨ s.sec.fw = none)))) ∧
    (∃ (c : Cred), c.role = .owner) ∧
    (∃ (c : Cred), (c.role = .operator ∨ c.role = .auditor)) ∧
    (∃ (c : Cred), c.role = .tenantAdmin) :=
  ⟨⟨sSes none none, 4, ses none, by decide +kernel⟩,
    ⟨sRec none none, by decide +kernel⟩,
    ⟨sAt 1000, by decide +kernel⟩,
    ⟨who .owner, by decide +kernel⟩,
    ⟨who .auditor, by decide +kernel⟩,
    ⟨who .tenantAdmin, by decide +kernel⟩⟩

theorem witness_MeasurementsAndRecovery_part1 :
    (∃ (s : State) (region : BitVec 16) (c : Cmd) (i : _), i ∈ ([.measureMark region c, .measureUnmark region c, .measureAgain region c] : List Instr) ∧
      (Running s ∧ Accepts s 857 c ∧ s.on F.secMeasCmdBusy = true)) ∧
    (∃ (s : State) (region : BitVec 16) (c : Cmd) (g : Rgn), (Running s ∧ Accepts s 857 c ∧ s.on F.secMeasCmdBusy = false ∧ s.rgn? region.toNat = some g ∧ s.sec.meas.length < 64 ∧ ((∀ m ∈ s.sec.meas, m.region ≠ region.toNat)))) ∧
    (∃ (s : State) (region : BitVec 16) (c : Cmd), (Running s ∧ Accepts s 857 c ∧ s.on F.secMeasCmdBusy = false ∧ 64 ≤ s.sec.meas.length ∧ ((∀ m ∈ s.sec.meas, m.region ≠ region.toNat)))) ∧
    (∃ (s : State) (region : BitVec 16) (c : Cmd), (Running s ∧ Accepts s 857 c ∧ s.on F.secMeasCmdBusy = false ∧ s.sec.meas.length < 64 ∧ s.rgn? region.toNat = none)) ∧
    (∃ (s : State) (c : Cmd), (Running s ∧ Accepts s 857 c ∧ s.on F.secMeasCmdBusy = false ∧ s.sec.meas.length ≤ 64)) ∧
    (∃ (s : State) (region : BitVec 16) (c : Cmd), (Running s ∧ Accepts s 857 c ∧ s.on F.secMeasCmdBusy = false ∧ ((∀ m ∈ s.sec.meas, m.region ≠ region.toNat)))) ∧
    (∃ (s : State) (region : BitVec 16) (c : Cmd), (Running s ∧ Accepts s 857 c ∧ s.on F.secMeasCmdBusy = false ∧ ((∃ m ∈ s.sec.meas, m.region = region.toNat)) ∧ s.rgn? region.toNat = none)) :=
  ⟨⟨s0.wr F.secMeasCmdBusy 1, 7, cm, .measureMark (7) (cm), .head _, by decide +kernel⟩,
    ⟨let s := sMeas 1; { s with sec := s0.sec }, 7, cm, rgnOf 7 (rgn7 1), by decide +kernel⟩,
    ⟨{ s0 with sec := { s0.sec with meas := (List.range 64).map fun k => ⟨k, none, 0, 0, 0, 0, 0⟩ } }, 77, cm, by decide +kernel⟩,
    ⟨s0, 7, cm, by decide +kernel⟩,
    ⟨sMeas 1, cm, by decide +kernel⟩,
    ⟨s0, 7, cm, by decide +kernel⟩,
    ⟨{ s0 with sec := { s0.sec with meas := [⟨7, none, 0, 0, 0, 0, 0⟩] } }, 7, cm, by decide +kernel⟩⟩

theorem witness_MeasurementsAndRecovery_part2 :
    (∃ (s : State) (region : BitVec 16) (c : Cmd) (g : Rgn), (Running s ∧ Accepts s 857 c ∧ s.on F.secMeasCmdBusy = false ∧ ((∃ m ∈ s.sec.meas, m.region = region.toNat)) ∧ s.rgn? region.toNat = some g ∧ ((∃ p ∈ s.disp.places, p.opid = 7 ∧ p.unloading = false)))) ∧
    (∃ (s : State), (Running s ∧ s.sec.measRun = none)) ∧
    (∃ (s : State) (id : _), (Running s ∧ s.sec.measRun = some id ∧ s.rgn? id = none)) ∧
    (∃ (s : State) (id : _) (g : _), (Running s ∧ s.sec.measRun = some id ∧ s.rgn? id = some g ∧ ((∀ p ∈ s.disp.places, p.opid = 7 → (s.instOn p.num).isSome = true)))) ∧
    (∃ (s : State) (id : _) (g : _) (p : _) (v : _), v = ((s.pub.pins.find? fun q => q.region == id && q.holder == measHolder).map (·.version)).getD g.version ∧
      (Running s ∧ s.sec.measRun = some id ∧ s.rgn? id = some g ∧ p ∈ s.disp.places ∧ p.opid = 7 ∧ s.instOn p.num = none ∧ (s.measLeaves g v).1 = .wait)) ∧
    (∃ (s : State) (id : _) (g : _) (p : _) (v : _), v = ((s.pub.pins.find? fun q => q.region == id && q.holder == measHolder).map (·.version)).getD g.version ∧
      (Running s ∧ s.sec.measRun = some id ∧ s.rgn? id = some g ∧ p ∈ s.disp.places ∧ p.opid = 7 ∧ s.instOn p.num = none ∧ (s.measLeaves g v).1 = .poison)) ∧
    (∃ (s : State) (id : _) (g : _) (p : _) (v : _) (ls : _), v = ((s.pub.pins.find? fun q => q.region == id && q.holder == measHolder).map (·.version)).getD g.version ∧
      (s.measLeaves g v).1 = .got ls ∧
      (Running s ∧ s.sec.measRun = some id ∧ s.rgn? id = some g ∧ p ∈ s.disp.places ∧ p.opid = 7 ∧ s.instOn p.num = none)) :=
  ⟨⟨let s := sMeas 1; { s with sec := { s.sec with measRun := none } }, 7, cm, rgnOf 7 (rgn7 1), by decide +kernel⟩,
    ⟨s0, by decide +kernel⟩,
    ⟨{ s0 with sec := { s0.sec with meas := [⟨7, none, 0, 0, 0, 0, 0⟩], measRun := some 7 } }, 7, by decide +kernel⟩,
    ⟨let s := sMeas 1; { s with disp := s0.disp }, 7, rgnOf 7 (rgn7 1), by decide +kernel⟩,
    ⟨heldLine (sMeas 1), 7, rgnOf 7 (rgn7 1), plcO 7, _, rfl, by decide +kernel⟩,
    ⟨sMeas 1, 7, rgnOf 7 (rgn7 1), plcO 7, _, rfl, by decide +kernel⟩,
    ⟨sPage, 7, rgnOf 7 (rgn7 1 - 15 * 2 ^ 96), plcO 7, _, gotOf ((sPage).measLeaves (rgnOf 7 (rgn7 1 - 15 * 2 ^ 96)) ((((sPage).pub.pins.find? fun q => q.region == (7) && q.holder == measHolder).map (·.version)).getD (rgnOf 7 (rgn7 1 - 15 * 2 ^ 96)).version)).1, rfl, got_of (by decide +kernel), by decide +kernel⟩⟩

/-! ## Sessions: what rests on AES-256-GCM, SLH-DSA or an image that verifies takes it as a premise, since those are open
values of the model -/

/-- The frame opens in the session. -/
abbrev Opens : Prop := (Config.gcmOpen 1 (nonce 3 1) (frameHead 7 1) [2#8]).isSome = true

theorem serves : MgtServes (sAt 1000) := by decide +kernel

theorem serves_rec : MgtServes (((sAt 1000).wr F.rstCtlStage 3).wr F.rstBootFail 1) := by decide +kernel

theorem serves_ses (w : Option Cred) (r : Option CfgRecord) : MgtServes (sSes w r) := serves

theorem good_ses (w : Option Cred) (r : Option CfgRecord) (h : Opens) : GoodFrame (sSes w r) 4 fm (ses w) :=
  ⟨serves, rfl, h, (by show 1 < 2 ^ 32; decide), by show 1 < 2 ^ 32; decide⟩

theorem good_rec (w : Option Cred) (r : Option CfgRecord) (h : Opens) : GoodFrame (sRec w r) 4 fm (ses w) :=
  ⟨serves_rec, rfl, h, (by show 1 < 2 ^ 32; decide), by show 1 < 2 ^ 32; decide⟩

theorem witness_SessionsAndRecords_5 (h : Config.gcmOpen 1 (nonce 3 1) (frameHead 7 1) [255#8] = none) :
    ∃ (s : State) (conn : BitVec 16) (f : Frame) (c : Cred) (sig : List Byte) (img : List Byte) (op : SessOp) (r : CfgRecord) (m : MinRecord) (n : BitVec 256) (sc : Option (BitVec 8)) (b : Bool) (x : Session) (i : _), i ∈ ([.auth conn f c sig, .sessionCommand conn f op, .installRecord conn f r, .installMinver conn f m, .attestationRequest conn f n sc, .readState conn f, .writeImage conn f b img, .writeRecord conn f (.inl r), .attest conn f n, .reboot conn f b] : List Instr) ∧
    MgtServes s ∧
    s.session? conn.toNat = some x ∧
    Config.gcmOpen x.keyIn (nonce x.ivIn x.nIn) (frameHead f.ty.toNat f.body.length) f.body = none :=
  ⟨sSes none none, 4, (⟨7, [0xFF]⟩ : Frame), who .owner, [1], [], .read 0, cfgR 1, minR 1, 0, none, false, ses none, .auth (4) ((⟨7, [0xFF]⟩ : Frame)) (who .owner) ([1]), .head _, serves_ses _ _, rfl, h⟩

theorem witness_SessionsAndRecords_6 (h : Opens) (hs : Config.slhVerify true 0xAB (ascii "T7-MGT-CLIENT") (dig 0) [1#8] = true) :
    ∃ (s : State) (conn : BitVec 16) (f : Frame) (c : Cred) (sig : List Byte) (x : Session), GoodFrame s conn.toNat f x ∧
    x.who = none ∧
    Config.slhVerify true c.key (ascii "T7-MGT-CLIENT") (dig x.h2) sig = true ∧
    credOk s.cfg? c = true ∧
    ((s.recovering = false ∨ c.role ≠ .tenantAdmin)) :=
  ⟨sSes none none, 4, fm, who .owner, [1], ses none, good_ses _ _ h, rfl, hs, by decide +kernel, .inl (by decide +kernel)⟩

theorem witness_SessionsAndRecords_7 (h : Opens) :
    ∃ (s : State) (conn : BitVec 16) (f : Frame) (x : Session), GoodFrame s conn.toNat f x ∧
    x.who.isSome = true :=
  ⟨sSes (some (who .operator)) none, 4, fm, ses (some (who .operator)), good_ses _ _ h, rfl⟩

theorem witness_SessionsAndRecords_8 (h : Opens) :
    ∃ (s : State) (conn : BitVec 16) (f : Frame) (c : Cred) (sig : List Byte) (x : Session), GoodFrame s conn.toNat f x ∧
    x.who = none ∧
    ((Config.slhVerify true c.key (ascii "T7-MGT-CLIENT") (dig x.h2) sig = false ∨ credOk s.cfg? c = false ∨ (s.recovering = true ∧ c.role = .tenantAdmin))) :=
  ⟨sRec none none, 4, fm, who .tenantAdmin, [0], ses none, good_rec _ _ h, rfl, .inr (.inr (by decide +kernel))⟩

theorem witness_SessionsAndRecords_9 (h : Opens) :
    ∃ (s : State) (conn : BitVec 16) (f : Frame) (op : SessOp) (x : Session) (c : Cred), GoodFrame s conn.toNat f x ∧
    x.who = some c ∧
    s.permits c op = true ∧
    s.recovering = false :=
  ⟨sSes (some (who .operator)) none, 4, fm, .read 0, ses (some (who .operator)), who .operator, good_ses _ _ h, rfl, by decide +kernel, by decide +kernel⟩

theorem witness_SessionsAndRecords_10 (h : Opens) :
    ∃ (s : State) (conn : BitVec 16) (f : Frame) (op : SessOp) (x : Session) (c : Cred), GoodFrame s conn.toNat f x ∧
    x.who = some c ∧
    (s.permits c op = false ∨ s.recovering = true) :=
  ⟨sSes (some (who .auditor)) none, 4, fm, .write 0 0, ses (some (who .auditor)), who .auditor, good_ses _ _ h, rfl, .inl (by decide +kernel)⟩

theorem witness_SessionsAndRecords_11 (h : Opens) :
    ∃ (s : State) (conn : BitVec 16) (f : Frame) (op : SessOp) (x : Session) (c : Cred) (a : _) (v : _), GoodFrame s conn.toNat f x ∧
    x.who = some c ∧
    op = .write a v ∧
    c.role ≠ .owner ∧
    csaPart a.toNat = true :=
  ⟨sSes (some (who .operator)) none, 4, fm, .write (BitVec.ofNat 32 (857 * 0x100000 + 0x400)) 0, ses (some (who .operator)), who .operator, BitVec.ofNat 32 (857 * 0x100000 + 0x400), 0, good_ses _ _ h, rfl, rfl, by decide, by decide +kernel⟩

theorem witness_SessionsAndRecords_12 (h : Opens) :
    ∃ (s : State) (conn : BitVec 16) (f : Frame) (x : Session), GoodFrame s conn.toNat f x ∧
    x.who = none :=
  ⟨sSes none none, 4, fm, ses none, good_ses _ _ h, rfl⟩

theorem witness_SessionsAndRecords_16 (h : Opens) (hv : cfgValid (cfgR 1) = true) :
    ∃ (s : State) (conn : BitVec 16) (f : Frame) (r : CfgRecord) (x : Session) (c : Cred), GoodFrame s conn.toNat f x ∧
    x.who = some c ∧
    s.sec.flash ≠ [] ∧
    s.recovering = false ∧
    c.role = .owner ∧
    cfgValid r = true ∧
    (((∃ old : CfgRecord, s.cfg? = some old ∧ old.gen.toNat < r.gen.toNat) ∨ (s.cfg? = none ∧ c.key = r.owner))) :=
  ⟨sSes (some (who .owner)) none, 4, fm, cfgR 1, ses (some (who .owner)), who .owner, good_ses _ _ h, rfl, by decide +kernel, by decide +kernel, rfl, hv, .inr ⟨by decide +kernel, rfl⟩⟩

theorem witness_SessionsAndRecords_17 (h : Opens) :
    ∃ (s : State) (conn : BitVec 16) (f : Frame) (r : CfgRecord) (x : Session) (c : Cred), GoodFrame s conn.toNat f x ∧
    x.who = some c ∧
    s.sec.flash ≠ [] ∧
    s.recovering = false ∧
    (c.role ≠ .owner ∨ cfgValid r = false ∨ (∃ old : CfgRecord, s.cfg? = some old ∧ r.gen.toNat ≤ old.gen.toNat) ∨ (s.cfg? = none ∧ c.key ≠ r.owner)) :=
  ⟨sSes (some (who .operator)) none, 4, fm, cfgR 1, ses (some (who .operator)), who .operator, good_ses _ _ h, rfl, by decide +kernel, by decide +kernel, .inl (by decide)⟩

theorem witness_SessionsAndRecords_18 (h : Opens) (hm : (sSes (some (who .owner)) (some (cfgR 1))).minValid (minR 1) = true) :
    ∃ (s : State) (conn : BitVec 16) (f : Frame) (m : MinRecord) (x : Session) (c : Cred), GoodFrame s conn.toNat f x ∧
    x.who = some c ∧
    s.recovering = false ∧
    c.role = .owner ∧
    s.minValid m = true ∧
    ((∀ old, s.min? = some old → old.gen.toNat < m.gen.toNat)) :=
  ⟨sSes (some (who .owner)) (some (cfgR 1)), 4, fm, minR 1, ses (some (who .owner)), who .owner, good_ses _ _ h, rfl, by decide +kernel, rfl, hm, fun _ e => nomatch (show none = some _ from e)⟩

theorem witness_SessionsAndRecords_19 (h : Opens) :
    ∃ (s : State) (conn : BitVec 16) (f : Frame) (m : MinRecord) (x : Session) (c : Cred), GoodFrame s conn.toNat f x ∧
    x.who = some c ∧
    s.recovering = false ∧
    (c.role ≠ .owner ∨ s.minValid m = false ∨ (∃ old : MinRecord, s.min? = some old ∧ m.gen.toNat ≤ old.gen.toNat)) :=
  ⟨sSes (some (who .operator)) none, 4, fm, minR 1, ses (some (who .operator)), who .operator, good_ses _ _ h, rfl, by decide +kernel, .inl (by decide)⟩

theorem witness_SessionsAndRecords_20 (h : Opens) :
    ∃ (s : State) (conn : BitVec 16) (f : Frame) (r : CfgRecord) (m : MinRecord) (x : Session) (i : _), i ∈ ([.installRecord conn f r, .installMinver conn f m] : List Instr) ∧
    GoodFrame s conn.toNat f x ∧
    ((x.who = none ∨ s.recovering = true)) :=
  ⟨sSes none none, 4, fm, cfgR 1, minR 1, ses none, .installRecord (4) (fm) (cfgR 1), .head _, good_ses _ _ h, .inl rfl⟩

theorem witness_SessionsAndRecords_23 (h : Opens) :
    ∃ (s : State) (conn : BitVec 16) (f : Frame) (sc : Option (BitVec 8)) (x : Session) (c : Cred), GoodFrame s conn.toNat f x ∧
    x.who = some c ∧
    s.recovering = false ∧
    scopeOk c sc = true ∧
    s.sec.endorsed = true :=
  ⟨sSes (some (who .owner)) none, 4, fm, none, ses (some (who .owner)), who .owner, good_ses _ _ h, rfl, by decide +kernel, rfl, rfl⟩

theorem witness_SessionsAndRecords_24 (h : Opens) :
    ∃ (s : State) (conn : BitVec 16) (f : Frame) (sc : Option (BitVec 8)) (x : Session) (c : Cred), GoodFrame s conn.toNat f x ∧
    x.who = some c ∧
    s.recovering = false ∧
    scopeOk c sc = true ∧
    s.sec.endorsed = false :=
  ⟨{ sSes (some (who .owner)) none with sec := { (sSes (some (who .owner)) none).sec with endorsed := false } }, 4, fm, none, ses (some (who .owner)), who .owner, ⟨serves, rfl, h, (by show 1 < 2 ^ 32; decide), by show 1 < 2 ^ 32; decide⟩, rfl, by decide +kernel, rfl, rfl⟩

theorem witness_SessionsAndRecords_25 (h : Opens) :
    ∃ (s : State) (conn : BitVec 16) (f : Frame) (sc : Option (BitVec 8)) (x : Session) (c : Cred), GoodFrame s conn.toNat f x ∧
    x.who = some c ∧
    (scopeOk c sc = false ∨ s.recovering = true) :=
  ⟨sSes (some (who .tenantAdmin)) none, 4, fm, none, ses (some (who .tenantAdmin)), who .tenantAdmin, good_ses _ _ h, rfl, .inl (by decide)⟩

theorem witness_MeasurementsAndRecovery_15 (h : Opens) :
    ∃ (s : State) (conn : BitVec 16) (f : Frame) (slotB : Bool) (img : List Byte) (r : CfgRecord) (m : MinRecord) (n : BitVec 256) (x : Session) (i : _), i ∈ ([.readState conn f, .writeImage conn f slotB img, .writeRecord conn f (.inl r), .writeRecord conn f (.inr m), .attest conn f n, .reboot conn f slotB] : List Instr) ∧
    GoodFrame s conn.toNat f x ∧
    (s.recovering = false ∨ x.who = none ∨ HasRole x .tenantAdmin) :=
  ⟨sSes (some (who .owner)) none, 4, fm, false, [], cfgR 1, minR 1, 5, ses (some (who .owner)), .readState (4) (fm), .head _, good_ses _ _ h, .inl (by decide +kernel)⟩

theorem witness_MeasurementsAndRecovery_16 (h : Opens) :
    ∃ (s : State) (conn : BitVec 16) (f : Frame) (slotB : Bool) (img : List Byte) (r : CfgRecord) (m : MinRecord) (x : Session) (i : _), i ∈ ([.writeImage conn f slotB img, .writeRecord conn f (.inl r), .writeRecord conn f (.inr m), .reboot conn f slotB] : List Instr) ∧
    GoodFrame s conn.toNat f x ∧
    HasRole x .auditor :=
  ⟨sRec (some (who .auditor)) none, 4, fm, false, [], cfgR 1, minR 1, ses (some (who .auditor)), .writeImage (4) (fm) (false) ([]), .head _, good_rec _ _ h, ⟨_, rfl, rfl⟩⟩

theorem witness_MeasurementsAndRecovery_17 (h : Opens) :
    ∃ (s : State) (conn : BitVec 16) (f : Frame) (r : CfgRecord) (m : MinRecord) (x : Session) (i : _), i ∈ ([.writeRecord conn f (.inl r), .writeRecord conn f (.inr m)] : List Instr) ∧
    GoodFrame s conn.toNat f x ∧
    HasRole x .operator :=
  ⟨sRec (some (who .operator)) none, 4, fm, cfgR 1, minR 1, ses (some (who .operator)), .writeRecord (4) (fm) (.inl (cfgR 1)), .head _, good_rec _ _ h, ⟨_, rfl, rfl⟩⟩

theorem witness_MeasurementsAndRecovery_18 (h : Opens) :
    ∃ (s : State) (conn : BitVec 16) (f : Frame) (x : Session), GoodFrame s conn.toNat f x ∧
    s.recovering = true ∧
    (HasRole x .owner ∨ HasRole x .operator ∨ HasRole x .auditor) :=
  ⟨sRec (some (who .operator)) none, 4, fm, ses (some (who .operator)), good_rec _ _ h, by decide +kernel, .inr (.inl ⟨_, rfl, rfl⟩)⟩

theorem witness_MeasurementsAndRecovery_19 (h : Opens) (img : List Byte) (hi : (sRec (some (who .operator)) none).imageOk img = true) :
    ∃ (s : State) (conn : BitVec 16) (f : Frame) (img : List Byte) (x : Session), GoodFrame s conn.toNat f x ∧
    s.recovering = true ∧
    (HasRole x .owner ∨ HasRole x .operator) ∧
    s.imageOk img = true ∧
    s.sec.flash.length = 2 :=
  ⟨sRec (some (who .operator)) none, 4, fm, img, ses (some (who .operator)), good_rec _ _ h, by decide +kernel, .inr ⟨_, rfl, rfl⟩, hi, rfl⟩

theorem witness_MeasurementsAndRecovery_20 (h : Opens) :
    ∃ (s : State) (conn : BitVec 16) (f : Frame) (img : List Byte) (x : Session), GoodFrame s conn.toNat f x ∧
    s.recovering = true ∧
    (HasRole x .owner ∨ HasRole x .operator) ∧
    s.imageOk img = false :=
  ⟨sRec (some (who .operator)) none, 4, fm, [], ses (some (who .operator)), good_rec _ _ h, by decide +kernel, .inr ⟨_, rfl, rfl⟩, by decide +kernel⟩

theorem witness_MeasurementsAndRecovery_21 (h : Opens) :
    ∃ (s : State) (conn : BitVec 16) (f : Frame) (x : Session), GoodFrame s conn.toNat f x ∧
    s.recovering = true ∧
    (HasRole x .owner ∨ HasRole x .operator) :=
  ⟨sRec (some (who .operator)) none, 4, fm, ses (some (who .operator)), good_rec _ _ h, by decide +kernel, .inr ⟨_, rfl, rfl⟩⟩

theorem witness_MeasurementsAndRecovery_22 (h : Opens) (hv : cfgValid (cfgR 1) = true) :
    ∃ (s : State) (conn : BitVec 16) (f : Frame) (r : CfgRecord) (x : Session) (c : _), GoodFrame s conn.toNat f x ∧
    s.recovering = true ∧
    x.who = some c ∧
    c.role = .owner ∧
    s.sec.flash ≠ [] ∧
    cfgValid r = true ∧
    (((∃ old : CfgRecord, s.cfg? = some old ∧ old.gen.toNat < r.gen.toNat) ∨ (s.cfg? = none ∧ c.key = r.owner))) :=
  ⟨sRec (some (who .owner)) none, 4, fm, cfgR 1, ses (some (who .owner)), who .owner, good_rec _ _ h, by decide +kernel, rfl, rfl, by decide +kernel, hv, .inr ⟨by decide +kernel, rfl⟩⟩

theorem witness_MeasurementsAndRecovery_23 (h : Opens) (hm : (sRec (some (who .owner)) (some (cfgR 1))).minValid (minR 1) = true) :
    ∃ (s : State) (conn : BitVec 16) (f : Frame) (m : MinRecord) (x : Session), GoodFrame s conn.toNat f x ∧
    s.recovering = true ∧
    HasRole x .owner ∧
    s.minValid m = true ∧
    ((∀ old, s.min? = some old → old.gen.toNat < m.gen.toNat)) :=
  ⟨sRec (some (who .owner)) (some (cfgR 1)), 4, fm, minR 1, ses (some (who .owner)), good_rec _ _ h, by decide +kernel, ⟨_, rfl, rfl⟩, hm, fun _ e => nomatch (show none = some _ from e)⟩

end Sys2Proof.Tests
end

section
/-! The statements of the architecture chapter settled: steps, the beat, the control space, events and power. -/

namespace Sys2Proof.Machine

/-! ## How a command is served, and what control-space fields read

A command's meaning keeps the queue and the beat, so that the state it answers is the state after the command itself. -/

/-- A command of the running part answers the state after it. -/
theorem live_eq {s u : State} {f : State → State} (h : Running s) (hf : f s = u) (hp : u.pending = s.pending)
    (hb : u.beat = s.beat) : live s f = .next u := by
  rw [live_running s f h, hf, ← hp, ← hb]

/-- A command that is served in the fatal halt as well answers the state after it. -/
theorem always_eq {s u : State} {f : State → State} (h : s.rst.porHeld = false) (hf : f s = u) (hp : u.pending = s.pending)
    (hb : u.beat = s.beat) : always s f = .next u := by
  rw [always_powered s f h, hf, ← hp, ← hb]

/-- A conditional value is one of its two branches. -/
theorem ite_branch {α : Type} (q : Prop) [Decidable q] (a b : α) : (if q then a else b) = a ∨ (if q then a else b) = b := by
  by_cases h : q
  · exact .inl (if_pos h)
  · exact .inr (if_neg h)

/-- Registers are read from the register words alone. -/
theorem State.reg_of_regs {s t : State} (h : t.regs = s.regs) (d : Nat) : t.reg d = s.reg d := by
  simp only [State.reg, h]

theorem State.rd_of_reg {s t : State} {f : Fld} (h : t.reg f.csa = s.reg f.csa) : t.rd f = s.rd f := by
  simp only [State.rd, h]

theorem State.on_of_rd {s t : State} {f : Fld} (h : t.rd f = s.rd f) : t.on f = s.on f := by
  simp only [State.on, h]

theorem State.rd_of_regs {s t : State} (h : t.regs = s.regs) (f : Fld) : t.rd f = s.rd f :=
  State.rd_of_reg (State.reg_of_regs h _)

theorem State.on_of_regs {s t : State} (h : t.regs = s.regs) (f : Fld) : t.on f = s.on f :=
  State.on_of_rd (State.rd_of_regs h f)

/-- A flag that is set reads as set. -/
theorem State.on_wr_one (s : State) (f : Fld) (h : f.hi = f.lo) (h64 : f.hi < 64) : (s.wr f 1).on f = true := by
  simp [State.on, State.rd_wr_same s f 1 (Nat.le_of_eq h.symm) h64, h]

theorem State.on_wr_ne (s : State) (f g : Fld) (v : Nat) (h : g.csa ≠ f.csa) : (s.wr f v).on g = s.on g :=
  State.on_of_rd (State.rd_wr_ne s f g v h)

theorem State.halted_of_regs {s t : State} (h : t.regs = s.regs) : t.halted = s.halted := State.on_of_regs h _

theorem State.halted_wr_ne (s : State) (f : Fld) (v : Nat) (h : F.rstCtlHalted.csa ≠ f.csa) : (s.wr f v).halted = s.halted :=
  State.on_wr_ne s f _ v h

theorem State.halted_wr_rstCtlHalted (s : State) : (s.wr F.rstCtlHalted 1).halted = true :=
  State.on_wr_one s _ rfl (by decide)

/-! ## The step: one command or one beat (R19) -/

/-- A step with a command waiting performs it on the state with the queue's rest. -/
theorem step_cons (s : State) {c : Instr} {rest : List Instr} (h : s.pending = c :: rest) :
    step s = exec c { s with pending := rest } := by
  unfold step; rw [h]

/-- A step with no command waiting lets a beat pass. -/
theorem step_nil (s : State) (h : s.pending = []) : step s = .next s.passBeat := by
  unfold step; rw [h]

/-- Settles O1: the front command is what `step` dispatches on. -/
theorem stepPerformsTheFrontCommand : Obligations.StepPerformsTheFrontCommand :=
  fun c rest s => step_cons { s with pending := c :: rest } rfl

/-- Settles O3: each of the three ways in which a command is served answers a next state with the queue as it was. -/
theorem everyCommandCompletes : Obligations.EveryCommandCompletes := by
  intro c s
  rcases exec_shape c s with ⟨hsup, f, hf⟩ | ⟨-, -, f, hf⟩ | ⟨-, -, f, hf⟩
  · obtain ⟨t, ht, hp⟩ := supply_next s f
    exact ⟨t, hf.trans ht, hp, fun h => absurd (hsup.symm.trans h) (by decide)⟩
  · obtain ⟨t, ht, hp, hb⟩ := always_next s f
    exact ⟨t, hf.trans ht, hp, fun _ => hb⟩
  · obtain ⟨t, ht, hp, hb⟩ := live_next s f
    exact ⟨t, hf.trans ht, hp, fun _ => hb⟩

/-! ### What a beat counts (R489 to R493) -/

/-- Is the word a count or a control word of one of its block's 16 counters? -/
def counterWord (d : Nat) : Prop := 0xF00 ≤ d % 0x100000 ∧ d % 0x100000 < 0x1000

/-- What the counters do in one beat: their own words change, and events of class 9 stamped with the beat are appended. -/
def CountsInBeat (s t : State) : Prop :=
  ∃ r e, t = { s with regs := r, events := s.events ++ e } ∧ (∀ x ∈ e, x.stamp = s.beat ∧ x.cls = 9) ∧
    ∀ d, ¬ counterWord d → t.reg d = s.reg d

theorem CountsInBeat.refl (s : State) : CountsInBeat s s :=
  ⟨s.regs, [], by rw [List.append_nil], by simp, fun _ _ => rfl⟩

theorem CountsInBeat.trans {s t u : State} (h1 : CountsInBeat s t) (h2 : CountsInBeat t u) : CountsInBeat s u := by
  obtain ⟨r1, e1, rfl, c1, g1⟩ := h1
  obtain ⟨r2, e2, rfl, c2, g2⟩ := h2
  refine ⟨r2, e1 ++ e2, by simp, fun x hx => ?_, fun d hd => (g2 d hd).trans (g1 d hd)⟩
  exact (List.mem_append.1 hx).elim (c1 x) (c2 x)

theorem CountsInBeat.beat_eq {s t : State} (h : CountsInBeat s t) : t.beat = s.beat := by
  obtain ⟨_, _, rfl, -⟩ := h; rfl

theorem CountsInBeat.rst_eq {s t : State} (h : CountsInBeat s t) : t.rst = s.rst := by
  obtain ⟨_, _, rfl, -⟩ := h; rfl

theorem CountsInBeat.pending_eq {s t : State} (h : CountsInBeat s t) : t.pending = s.pending := by
  obtain ⟨_, _, rfl, -⟩ := h; rfl

theorem wr_countsInBeat (s : State) (f : Fld) (v : Nat) (h : counterWord f.csa) : CountsInBeat s (s.wr f v) :=
  ⟨_, [], by rw [List.append_nil]; rfl, by simp, fun _ hd => State.reg_setReg_ne _ _ _ (fun e => hd (e ▸ h))⟩

theorem raise_countsInBeat (s : State) (blk : Nat) (b : Option Nat) : CountsInBeat s (s.raise blk 9 b) :=
  ⟨s.regs, [_], rfl, by simp, fun _ _ => rfl⟩

theorem counterWord_cntCount (blk : Nat) {m : Nat} (hm : m < 16) : counterWord (F.cntCount blk m).csa := by
  simp only [counterWord, F.cntCount]; omega

theorem counterWord_cntCtlOvf (blk : Nat) {m : Nat} (hm : m < 16) : counterWord (F.cntCtlOvf blk m).csa := by
  simp only [counterWord, F.cntCtlOvf]; omega

theorem cntAdd_countsInBeat (s : State) (blk n : Nat) {m : Nat} (hm : m < 16) : CountsInBeat s (s.cntAdd blk m n) := by
  have hc := fun v => wr_countsInBeat s _ v (counterWord_cntCount blk hm)
  have ho := fun v => (hc v).trans (wr_countsInBeat _ _ 1 (counterWord_cntCtlOvf blk hm))
  unfold State.cntAdd
  simp only
  split
  · exact hc _
  · split
    · exact (ho _).trans (raise_countsInBeat _ _ _)
    · exact ho _

/-- A counter in a beat: COUNT and SUM add to it, MAX overwrites its count (R489). -/
theorem countOne_countsInBeat (s : State) (blk ctl : Nat) {m : Nat} (hm : m < 16) :
    CountsInBeat s (s.countOne blk m ctl) := by
  unfold State.countOne
  simp only
  split
  · split
    · exact .refl s
    · exact cntAdd_countsInBeat s blk _ hm
  · split
    · exact .refl s
    · exact cntAdd_countsInBeat s blk _ hm
  · split
    · exact wr_countsInBeat s _ _ (counterWord_cntCount blk hm)
    · exact .refl s

theorem countBeat_countsInBeat (s : State) : CountsInBeat s s.countBeat := by
  unfold State.countBeat
  split
  · exact .refl s
  · refine each_keeps_mem (CountsInBeat s) _ _ (fun e t he ht => ?_) s (.refl s)
    simp only [List.mem_filter, Bool.and_eq_true, decide_eq_true_eq] at he
    obtain ⟨-, ⟨hlo, hhi⟩, -⟩ := he
    exact ht.trans (countOne_countsInBeat t _ _ (counter_index_lt hlo hhi))

/-- Frozen counters, the fatal halt and the want of an enabled counter leave every counter as it stands (R492, R493). -/
theorem countBeat_idle (s : State) (h : s.on F.beatTelCtlFrozen = true ∨ s.halted = true ∨
    ∀ e ∈ s.regs, 0xF80 ≤ e.1 % 0x100000 → e.1 % 0x100000 < 0x1000 → tst e.2.toNat 10 = false) : s.countBeat = s := by
  unfold State.countBeat
  split
  · rfl
  · next hrun =>
    rcases h with h | h | h
    · simp [h] at hrun
    · simp [h] at hrun
    · have hnone : (s.regs.filter fun e =>
          0xF80 ≤ e.1 % 0x100000 && e.1 % 0x100000 < 0x1000 && tst e.2.toNat 10) = [] := by
        simpa [List.filter_eq_nil_iff] using h
      simp only [hnone]
      rfl

theorem passBeat_porHeld (s : State) (h : s.rst.porHeld = true) : s.passBeat = s := by
  simp [State.passBeat, h]

/-- A beat passes: the counters count, and the master counter counts on (R19). -/
theorem passBeat_powered (s : State) (h : s.rst.porHeld = false) :
    s.passBeat = { s.countBeat with beat := (s.beat + 1) % 2 ^ 64 } := by
  have hc := countBeat_countsInBeat s
  simp [State.passBeat, State.nextBeat, h, hc.rst_eq, hc.beat_eq]

/-- Settles O2: the frame of a beat is the frame of its counters, `CountsInBeat`. -/
theorem emptyQueueIsOneBeat : Obligations.EmptyQueueIsOneBeat := by
  refine ⟨fun s hp hpor => ?_, fun s hp hpor => ?_, fun s hp hpor hidle => ?_⟩
  · rw [step_nil s hp, passBeat_porHeld s hpor]
  · obtain ⟨r, l, ht, hl, hregs⟩ := countBeat_countsInBeat s
    refine ⟨s.passBeat, l, step_nil s hp, ?_, hl, fun d hd => ?_⟩
    · rw [passBeat_powered s hpor, ht]
    · rw [passBeat_powered s hpor]
      exact hregs d (fun hc => by obtain ⟨hlo, hhi⟩ := hc; omega)
  · rw [step_nil s hp, passBeat_powered s hpor, countBeat_idle s hidle]

/-! ### The queue and the beat counter along a run -/

theorem passBeat_pending (s : State) : s.passBeat.pending = s.pending := by
  cases hpor : s.rst.porHeld with
  | true => rw [passBeat_porHeld s hpor]
  | false => rw [passBeat_powered s hpor]; exact (countBeat_countsInBeat s).pending_eq

theorem passBeat_beat_lt (s : State) (h : BeatInv s) : BeatInv s.passBeat := by
  cases hpor : s.rst.porHeld with
  | true => rwa [passBeat_porHeld s hpor]
  | false => rw [passBeat_powered s hpor]; exact Nat.mod_lt _ (by decide)

/-- Every step goes on and takes the front command, if any, from the queue. -/
theorem step_next (s : State) : ∃ t, step s = .next t ∧ t.pending = s.pending.drop 1 := by
  cases hp : s.pending with
  | nil => exact ⟨_, step_nil s hp, (passBeat_pending s).trans hp⟩
  | cons c rest =>
    obtain ⟨t, ht, hq, -⟩ := everyCommandCompletes c { s with pending := rest }
    exact ⟨t, (step_cons s hp).trans ht, hq⟩

theorem run_succ_of_next (M : Host.Core) (k : Nat) {s t : M.State} (h : M.step s = .next t) :
    M.run (k + 1) s = M.run k t := by
  rw [Host.Core.run, h]

/-- Settles O4, by induction on the number of steps: each drops one command. -/
theorem queueDrainsInOrder : Obligations.QueueDrainsInOrder := by
  intro k
  induction k with
  | zero => exact fun s => ⟨s, rfl, rfl⟩
  | succ k ih =>
    intro s
    obtain ⟨u, hu, hqu⟩ := step_next s
    obtain ⟨t, ht, hqt⟩ := ih u
    refine ⟨t, (run_succ_of_next Sys2Proof.core k hu).trans ht, ?_⟩
    rw [hqt, hqu, List.drop_drop, Nat.add_comm]

theorem keepLasers_beat (s old : State) : (s.keepLasers old).beat = s.beat := by
  unfold State.keepLasers
  refine each_keeps (fun t => t.beat = s.beat) _ _ (fun g t ht => ?_) s rfl
  rw [State.wr_beat, State.wr_beat, State.wr_beat, ht]

theorem strapSets_beat (s : State) : s.strapSets.beat = s.beat := by
  unfold State.strapSets
  simp only
  generalize hu : (s.wr F.homeMirCtlRole _).wr F.homeMirSyncOrderer _ = u
  have hb : u.beat = s.beat := by rw [← hu, State.wr_beat, State.wr_beat]
  split
  · refine each_keeps (fun t => t.beat = s.beat) _ _ (fun p t ht => ?_) u hb
    rw [State.wr_beat, State.wr_beat, ht]
  · exact hb

theorem readStrap_beat (s : State) (k : Nat) : (s.readStrap k).beat = s.beat := by
  unfold State.readStrap
  simp only
  split
  · rw [State.raise_beat, strapSets_beat, State.wr_beat, State.wr_beat, State.wr_beat, State.wr_beat]
  · rw [strapSets_beat, State.wr_beat, State.wr_beat, State.wr_beat, State.wr_beat]

/-- Power-on starts the beat counter anew (R443). -/
theorem powerOn_beat (s : State) (k : Nat) : (s.powerOn k).beat = 0 := by
  unfold State.powerOn
  simp only [readStrap_beat, keepLasers_beat]
  rfl

theorem supply_beat (s u : State) (f : State → State) (h : f s = u) : ∃ t, supply s f = .next t ∧ t.beat = u.beat :=
  ⟨_, rfl, h ▸ rfl⟩

theorem ofSupply_cases (c : Instr) (h : ofSupply c = true) : (∃ v, c = .powerOnReset v) ∨ c = .vaonLoss := by
  cases c with
  | powerOnReset v => exact .inl ⟨v, rfl⟩
  | vaonLoss => exact .inr rfl
  | _ => cases h

theorem exec_powerOnReset_beat (v : BitVec 256) (s : State) : ∃ t, exec (.powerOnReset v) s = .next t ∧ t.beat = 0 := by
  obtain ⟨t, ht, hb⟩ := supply_beat s (s.powerOn (strapCode v)) (fun s => s.powerOn (strapCode v)) rfl
  refine ⟨t, ?_, ?_⟩
  · exact (execPowerOnReset.eq_1 v s).trans ht
  · rw [hb, powerOn_beat]

theorem exec_vaonLoss_beat (s : State) : ∃ t, exec .vaonLoss s = .next t ∧ t.beat = s.beat := by
  obtain ⟨t, ht, hb⟩ := supply_beat s (s.setRst fun r => { r with porHeld := true }) (fun s => s.setRst fun r => { r with porHeld := true }) rfl
  exact ⟨t, (execVaonLoss.eq_1 s).trans ht, hb⟩

/-- No command moves the beat counter forward: it stands, or power-on clears it (R19, R443). -/
theorem exec_beat (c : Instr) (s : State) : ∃ t, exec c s = .next t ∧ (t.beat = s.beat ∨ t.beat = 0) := by
  cases hsup : ofSupply c with
  | false =>
    obtain ⟨t, ht, -, hb⟩ := everyCommandCompletes c s
    exact ⟨t, ht, .inl (hb hsup)⟩
  | true =>
    rcases ofSupply_cases c hsup with ⟨v, rfl⟩ | rfl
    · obtain ⟨t, ht, hb⟩ := exec_powerOnReset_beat v s
      exact ⟨t, ht, .inr hb⟩
    · obtain ⟨t, ht, hb⟩ := exec_vaonLoss_beat s
      exact ⟨t, ht, .inl hb⟩

/-- Settles O5: a passing beat counts modulo 2^64, and a command lets the counter stand or clears it. -/
theorem beatCounterInvariant : Obligations.BeatCounterInvariant := by
  intro s t hs hstep
  cases hp : s.pending with
  | nil =>
    cases (step_nil s hp).symm.trans hstep
    exact passBeat_beat_lt s hs
  | cons c rest =>
    obtain ⟨u, hu, hb⟩ := exec_beat c { s with pending := rest }
    cases ((step_cons s hp).trans hu).symm.trans hstep
    rcases hb with hb | hb
    · exact Nat.lt_of_le_of_lt (Nat.le_of_eq hb) hs
    · exact Nat.lt_of_le_of_lt (Nat.le_of_eq hb) (by decide)
/-! ## The fatal halt (R426, R446) -/

/-- The waiting events, PWR, the beat and the queue stand. -/
def KeepsPower (s t : State) : Prop := t.events = s.events ∧ t.pwr = s.pwr ∧ t.beat = s.beat ∧ t.pending = s.pending

theorem KeepsPower.refl (s : State) : KeepsPower s s := ⟨rfl, rfl, rfl, rfl⟩

theorem KeepsPower.trans {s t u : State} (h1 : KeepsPower s t) (h2 : KeepsPower t u) : KeepsPower s u := by
  obtain ⟨he1, hp1, hb1, hq1⟩ := h1
  obtain ⟨he2, hp2, hb2, hq2⟩ := h2
  exact ⟨he2.trans he1, hp2.trans hp1, hb2.trans hb1, hq2.trans hq1⟩

theorem KeepsPower.setReg {s t : State} (h : KeepsPower s t) (csa v : Nat) : KeepsPower s (t.setReg csa v) :=
  h.trans ⟨rfl, rfl, rfl, rfl⟩

theorem KeepsPower.wr {s t : State} (h : KeepsPower s t) (f : Fld) (v : Nat) : KeepsPower s (t.wr f v) := h.setReg _ _

theorem KeepsPower.inc {s t : State} (h : KeepsPower s t) (f : Fld) : KeepsPower s (t.inc f) := h.wr _ _

theorem KeepsPower.ite {s t u : State} {q : Prop} [Decidable q] (ht : KeepsPower s t) (hu : KeepsPower s u) :
    KeepsPower s (if q then t else u) := by split <;> assumption

/-- The record of the first fatal error: HALTED, and where and when it lay (R426). -/
def State.recordFatal (s : State) (blk : Nat) : State :=
  ((s.wr F.rstCtlHalted 1).wr F.rstCauseFblk blk).wr F.rstCauseFbeat (s.beat % 2 ^ 32)

/-- The fabric lanes muted, as the fatal halt leaves them. -/
def State.muteLanes (s : State) : State := each (List.range 64) (fun p s => s.wr (F.fportLstatTxmask p) 0) s

/-- The fatal halt dated, and no run of an image left. -/
def State.endInstances (s : State) : State :=
  { s with rst := { s.rst with haltAt := some s.eff }, disp := { s.disp with insts := [] } }

theorem recordFatal_keeps (s : State) (blk : Nat) : KeepsPower s (s.recordFatal blk) :=
  (((KeepsPower.refl s).wr _ _).wr _ _).wr _ _

theorem recordFatal_halted (s : State) (blk : Nat) : (s.recordFatal blk).halted = true := by
  unfold State.recordFatal
  rw [State.halted_wr_ne _ _ _ (by decide), State.halted_wr_ne _ _ _ (by decide), State.halted_wr_rstCtlHalted]

theorem muteLanes_keeps (s : State) : KeepsPower s s.muteLanes :=
  each_keeps (KeepsPower s) _ _ (fun _ _ h => h.wr _ _) s (.refl s)

theorem muteLanes_halted (s : State) : s.muteLanes.halted = s.halted := by
  refine each_keeps (fun t => t.halted = s.halted) _ _ (fun p t ht => ?_) s rfl
  rw [State.halted_wr_ne, ht]
  simp only [F.rstCtlHalted, F.fportLstatTxmask]; omega

theorem endInstances_keeps (s : State) : KeepsPower s s.endInstances := ⟨rfl, rfl, rfl, rfl⟩

theorem endInstances_halted (s : State) : s.endInstances.halted = s.halted := State.halted_of_regs rfl

theorem fatal_of_halted (s : State) (blk : Nat) (b : Option Nat) (h : s.halted = true) : s.fatal blk b = s.raise blk 3 b :=
  if_pos (by rw [State.halted_of_regs (State.raise_regs s blk 3 b), h])

theorem fatal_of_running (s : State) (blk : Nat) (b : Option Nat) (h : s.halted = false) :
    s.fatal blk b = ((s.raise blk 3 b).recordFatal blk).muteLanes.endInstances :=
  if_neg (by rw [State.halted_of_regs (State.raise_regs s blk 3 b), h]; decide)

/-- A fatal error leaves the T7 halted (R426). -/
theorem fatal_halted (s : State) (blk : Nat) (b : Option Nat) : (s.fatal blk b).halted = true := by
  cases h : s.halted with
  | true => rw [fatal_of_halted s blk b h, State.halted_of_regs (State.raise_regs s blk 3 b), h]
  | false => rw [fatal_of_running s blk b h, endInstances_halted, muteLanes_halted, recordFatal_halted]

/-- Beside its event a fatal error leaves the waiting events, PWR, the beat and the queue as they were. -/
theorem fatal_keeps (s : State) (blk : Nat) (b : Option Nat) : KeepsPower (s.raise blk 3 b) (s.fatal blk b) := by
  cases h : s.halted with
  | true => rw [fatal_of_halted s blk b h]; exact .refl _
  | false =>
    rw [fatal_of_running s blk b h]
    exact ((recordFatal_keeps _ blk).trans (muteLanes_keeps _)).trans (endInstances_keeps _)

/-! ## The beat distribution (R19, R20) -/

theorem exec_beatReplicaReload (island : Fin 100) (count : Word) (s : State) :
    exec (.beatReplicaReload island count) s = live s fun s => s.beatPulse island.val count.toNat := rfl

theorem exec_beatTreeFailure (island : Fin 100) (tree : Fin 2) (s : State) :
    exec (.beatTreeFailure island tree) s = live s fun s => s.treeFail island.val tree.val := rfl

/-- The record of an island's failed trees replaced. -/
def State.setTrees (s : State) (island t : Nat) : State :=
  { s with beatNet := { s.beatNet with trees := SMap.set 0 s.beatNet.trees island t } }

/-- A replica that held `count` counts from `count` after its offset to the master is stored (R20). -/
theorem replica_offset_add_master (count : Word) (beat : Nat) (h : beat < 2 ^ 64) :
    BitVec.ofNat 64 ((count.toNat + 2 ^ 64 - beat) % 2 ^ 64) + BitVec.ofNat 64 beat = count := by
  apply BitVec.eq_of_toNat_eq
  have hc := count.isLt
  rw [BitVec.toNat_add, BitVec.toNat_ofNat, BitVec.toNat_ofNat]
  omega

/-- Settles O9: the four clauses are the two branches of a pulse and the two of a tree failure. -/
theorem beatReplicasFollowTheMaster : Obligations.BeatReplicasFollowTheMaster := by
  refine ⟨fun s island count hrun hne => ?_, fun s island count hrun hinv heq => ?_,
    fun s island tree hrun hone => ?_, fun s island tree hrun hboth => ?_⟩
  · rw [exec_beatReplicaReload]
    exact live_eq hrun (if_neg hne) rfl rfl
  · rw [exec_beatReplicaReload]
    refine ⟨_, live_eq hrun (if_pos heq) rfl rfl, rfl, ?_⟩
    rw [SMap.get_set_same]
    exact replica_offset_add_master count s.beat hinv
  · rw [exec_beatTreeFailure]
    exact live_eq hrun (if_neg hone) rfl rfl
  · rw [exec_beatTreeFailure]
    obtain ⟨hevents, -, hbeat, hpending⟩ := fatal_keeps (s.setTrees island.val
      (SMap.get 0 s.beatNet.trees island.val ||| 2 ^ tree.val)) blkBeat none
    exact ⟨_, live_eq hrun (if_pos hboth) hpending hbeat, fatal_halted _ _ _, hevents⟩

/-! ## An accepted write of a register (R505 to R510) -/

theorem writeField_fst_congr (f : FieldDesc) (v : Nat) {x y : Nat × Nat} (h : x.1 = y.1) :
    (writeField f v x).1 = (writeField f v y).1 := by
  unfold writeField
  split
  · exact h
  · exact h
  · simp only [h]
  · simp only [h]

/-- What a write stores does not depend on the flags it has earned so far. -/
theorem foldl_writeField_fst_congr (fs : List FieldDesc) (v : Nat) {x y : Nat × Nat} (h : x.1 = y.1) :
    (fs.foldl (fun acc f => writeField f v acc) x).1 = (fs.foldl (fun acc f => writeField f v acc) y).1 := by
  induction fs generalizing x y with
  | nil => exact h
  | cons f fs ih => exact ih (writeField_fst_congr f v h)

theorem logCmd_frozenWriter (s : State) (csa v : Nat) (c c' : Cmd) : (s.logCmd csa v c).frozenWriter c' = s.frozenWriter c' := by
  have h0 : (s.logCmd csa v c).rd F.cpTrioRole0 = s.rd F.cpTrioRole0 := logCmd_rd s csa v c (by decide)
  have h1 : (s.logCmd csa v c).rd F.cpTrioRole1 = s.rd F.cpTrioRole1 := logCmd_rd s csa v c (by decide)
  have h2 : (s.logCmd csa v c).rd F.cpTrioRole2 = s.rd F.cpTrioRole2 := logCmd_rd s csa v c (by decide)
  simp only [State.frozenWriter, h0, h1, h2]

theorem hdrSeqSeq_csa_ne_logfill (w : Nat) : (F.hdrSeqSeq w).csa ≠ F.cpCkptLogfill.csa := by
  simp only [F.hdrSeqSeq, F.cpCkptLogfill]; omega

theorem hdrStateInreset_csa_ne_logfill (w : Nat) : (F.hdrStateInreset w).csa ≠ F.cpCkptLogfill.csa := by
  simp only [F.hdrStateInreset, F.cpCkptLogfill]; omega

/-- Logging a command leaves what a block judges it by as it was (R435, R436). -/
theorem accepts_logCmd {s : State} {w : Nat} {c : Cmd} (h : Accepts s w c) (csa v : Nat) : Accepts (s.logCmd csa v c) w c := by
  obtain ⟨hclaim, hseq, hreset, hfrozen⟩ := h
  refine ⟨?_, ?_, ?_, ?_⟩
  · rw [logCmd_rd s csa v c (by decide), hclaim]
  · rwa [logCmd_rd s csa v c (hdrSeqSeq_csa_ne_logfill w)]
  · rw [State.on_of_rd (logCmd_rd s csa v c (hdrStateInreset_csa_ne_logfill w)), hreset]
  · rw [logCmd_frozenWriter, hfrozen]

/-- An accepted write of a register answers what its command bit makes of the written state, reported in the clamp report
where it earned a flag. -/
theorem ctlWrite_register (s : State) (csa v : Nat) (c : Cmd) (hook : Hook) (r : RegDesc) (ha : csa % 8 = 0)
    (hw : csa / 0x100000 < 863) (h : Accepts s (csa / 0x100000) c)
    (hr : findReg (blkOfWindow (csa / 0x100000)).1 (blkOfWindow (csa / 0x100000)).2 (csa % 0x100000) = some r) :
    ∃ u, u = (hook v (s.atHook csa v c)).1 ∧ (s.ctlWrite csa v c hook = u ∨
      ∃ fl, s.ctlWrite csa v c hook = u.clampEntry (csa / 0x100000) (csa % 0x100000) c.writer.toNat fl v (u.reg csa)) := by
  have hstored : ∀ x, (r.fields.foldl (fun acc f => writeField f v acc)
      (x, if v &&& reservedBits r = 0 then 0 else fReserved)).1 =
      (r.fields.foldl (fun acc f => writeField f v acc) (x, 0)).1 := fun x => foldl_writeField_fst_congr r.fields v rfl
  rw [ctlWrite_accepted s csa v c hook ha hw h, clapped_register _ csa v c hook r (accepts_logCmd h csa v) hr]
  refine ⟨_, rfl, ?_⟩
  simp only [State.atHook, hr, hstored]
  exact (ite_branch _ _ _).imp_right fun h => ⟨_, h⟩

/-! ## What a control-space write changes (R434 to R439, R505 to R510) -/

/-- A write of the control space: registers selected by `P`, the command log, and the clamp report's events. -/
def WriteEffect (P : Nat → Prop) (s t : State) : Prop :=
  ∃ l, t = { s with regs := t.regs, cpx := t.cpx, events := s.events ++ l } ∧
    (∀ e ∈ l, e = ⟨s.beat, 9, 860, some 16⟩) ∧ ∀ d, ¬ P d → t.reg d = s.reg d

theorem WriteEffect.refl (P : Nat → Prop) (s : State) : WriteEffect P s s :=
  ⟨[], by rw [List.append_nil], by simp, fun _ _ => rfl⟩

theorem WriteEffect.trans {P : Nat → Prop} {s t u : State} (h1 : WriteEffect P s t) (h2 : WriteEffect P t u) :
    WriteEffect P s u := by
  obtain ⟨l1, e1, c1, g1⟩ := h1
  obtain ⟨l2, e2, c2, g2⟩ := h2
  have hb : t.beat = s.beat := by rw [e1]
  refine ⟨l1 ++ l2, ?_, fun x hx => ?_, fun d hd => (g2 d hd).trans (g1 d hd)⟩
  · rw [e2, e1, List.append_assoc]
  · rcases List.mem_append.1 hx with h | h
    · exact c1 x h
    · rw [c2 x h, hb]

theorem WriteEffect.mono {P Q : Nat → Prop} {s t : State} (h : WriteEffect P s t) (hpq : ∀ d, P d → Q d) :
    WriteEffect Q s t := by
  obtain ⟨l, e, c, g⟩ := h
  exact ⟨l, e, c, fun d hd => g d (fun hp => hd (hpq d hp))⟩

theorem WriteEffect.beat_eq {P : Nat → Prop} {s t : State} (h : WriteEffect P s t) : t.beat = s.beat := by
  obtain ⟨l, e, -⟩ := h; rw [e]

theorem WriteEffect.pending_eq {P : Nat → Prop} {s t : State} (h : WriteEffect P s t) : t.pending = s.pending := by
  obtain ⟨l, e, -⟩ := h; rw [e]

theorem WriteEffect.pwr_eq {P : Nat → Prop} {s t : State} (h : WriteEffect P s t) : t.pwr = s.pwr := by
  obtain ⟨l, e, -⟩ := h; rw [e]

theorem WriteEffect.disp_eq {P : Nat → Prop} {s t : State} (h : WriteEffect P s t) : t.disp = s.disp := by
  obtain ⟨l, e, -⟩ := h; rw [e]

theorem WriteEffect.reg_eq {P : Nat → Prop} {s t : State} (h : WriteEffect P s t) {d : Nat} (hd : ¬ P d) :
    t.reg d = s.reg d := by
  obtain ⟨l, -, -, g⟩ := h; exact g d hd

theorem WriteEffect.rd_eq {P : Nat → Prop} {s t : State} (h : WriteEffect P s t) {f : Fld} (hf : ¬ P f.csa) :
    t.rd f = s.rd f := State.rd_of_reg (h.reg_eq hf)

/-- Nothing but registers, the command log and the waiting events changes. -/
theorem WriteEffect.frame {P : Nat → Prop} {s t : State} (h : WriteEffect P s t) :
    t = { s with regs := t.regs, cpx := t.cpx, events := t.events } := by
  obtain ⟨l, e, -⟩ := h
  have he : t.events = s.events ++ l := by rw [e]
  rwa [← he] at e

theorem WriteEffect.frame_of_events {P : Nat → Prop} {s t : State} (h : WriteEffect P s t) (he : t.events = s.events) :
    t = { s with regs := t.regs, cpx := t.cpx } := by
  have e := h.frame
  rwa [he] at e

theorem WriteEffect.setReg {P : Nat → Prop} {s t : State} (h : WriteEffect P s t) {csa : Nat} (v : Nat) (hc : P csa) :
    WriteEffect P s (t.setReg csa v) :=
  h.trans ⟨[], by rw [List.append_nil]; rfl, by simp, fun _ hd => State.reg_setReg_ne _ _ _ (fun e => hd (e ▸ hc))⟩

theorem WriteEffect.wr {P : Nat → Prop} {s t : State} (h : WriteEffect P s t) {f : Fld} (v : Nat) (hc : P f.csa) :
    WriteEffect P s (t.wr f v) := h.setReg _ hc

theorem logCmd_writeEffect (s : State) (csa v : Nat) (c : Cmd) :
    WriteEffect (· = F.cpCkptLogfill.csa) s (s.logCmd csa v c) := by
  refine ⟨[], ?_, by simp, fun _ hd => logCmd_reg s csa v c hd⟩
  rw [List.append_nil]
  unfold State.logCmd
  split
  · rfl
  · rfl

/-- A clamp shows in CLAMPED of the block's HDR_STATE (R510). -/
theorem clamped_rd (s : State) (blk : Nat) :
    ((s.wr (F.hdrStateClamped blk) 1).inc (F.hdrStateClamps blk)).rd (F.hdrStateClamped blk) = 1 := by
  unfold State.inc
  rw [State.rd_wr_disjoint _ (F.hdrStateClamps blk) (F.hdrStateClamped blk) _ rfl (.inl (by simp [F.hdrStateClamped, F.hdrStateClamps]))
    (by simp [F.hdrStateClamps]) (by simp [F.hdrStateClamped]) (by simp [F.hdrStateClamps]),
    State.rd_wr_same _ _ _ (by simp [F.hdrStateClamped]) (by simp [F.hdrStateClamped])]
  simp [F.hdrStateClamped]

/-- A clamp report entry but for its event: the ring, its head and total, and the block's CLAMPED and CLAMPS (R510). -/
theorem clampEntry_recorded (s : State) (blk off wr fl v st : Nat) :
    ∃ y, KeepsPower s y ∧ y.rd (F.hdrStateClamped blk) = 1 ∧
      s.clampEntry blk off wr fl v st = if y.on F.rstClampCtlIe then y.raise blkRst 9 (some 16) else y := by
  refine ⟨_, ?_, clamped_rd _ blk, rfl⟩
  refine .inc (.wr (.ite (.wr ?_ _ _) ?_) _ _) _
  · exact .inc (.wr (.setReg (.setReg (.setReg (.setReg (.refl s) _ _) _ _) _ _) _ _) _ _) _
  · exact .inc (.wr (.setReg (.setReg (.setReg (.setReg (.refl s) _ _) _ _) _ _) _ _) _ _) _

theorem clampEntry_clamped (s : State) (blk off wr fl v st : Nat) :
    (s.clampEntry blk off wr fl v st).rd (F.hdrStateClamped blk) = 1 := by
  obtain ⟨y, -, hy, h⟩ := clampEntry_recorded s blk off wr fl v st
  rw [h]
  split
  · rw [State.raise_rd, hy]
  · exact hy

theorem clampEntry_writeEffect (s : State) (blk off wr fl v st : Nat) :
    WriteEffect (clampWord blk) s (s.clampEntry blk off wr fl v st) := by
  obtain ⟨r, l, heq, hreg⟩ := clampEntry_writes s blk off wr fl v st
  obtain ⟨y, ⟨hevents, -, hbeat, -⟩, -, hy⟩ := clampEntry_recorded s blk off wr fl v st
  refine ⟨l, ?_, ?_, hreg⟩
  · rw [heq]
  · have hl : s.events ++ l = (s.clampEntry blk off wr fl v st).events := by rw [heq]
    rw [hy] at hl
    split at hl
    · rw [State.raise_events, hevents, hbeat] at hl
      simp [List.append_cancel_left hl, blkRst]
    · rw [hevents] at hl
      simp [List.append_right_eq_self.1 hl]

/-! ### What waited does not go on -/

theorem nothingResumes_of_writeEffect {P : Nat → Prop} {s t : State} (h : NothingResumes s) (e : WriteEffect P s t)
    (hp : ¬ P F.homeRgnCmdBusy.csa) : NothingResumes t := by
  obtain ⟨hbusy, hloading, hdescs⟩ := h
  exact ⟨(State.on_of_rd (e.rd_eq hp)).trans hbusy, e.disp_eq ▸ hloading, e.disp_eq ▸ hdescs⟩

/-- Nothing that waits goes on where no region command, LOAD or descriptor read waits (R149). -/
theorem resumeHeld_of_nothingResumes {s : State} (h : NothingResumes s) : s.resumeHeld = s := by
  obtain ⟨hbusy, hloading, hdescs⟩ := h
  have h1 : s.rgnResume = s := by simp [State.rgnResume, hbusy]
  have h2 : s.resumeLoad = s := by simp [State.resumeLoad, hloading]
  have h3 : s.resumeInvokes = s := by simp [State.resumeInvokes, hdescs, each]
  rw [State.resumeHeld, h1, h2, h3]

theorem exec_configWrite (csa : BitVec 32) (value : BitVec 64) (c : Cmd) (s : State) :
    exec (.configWrite csa value c) s = always s fun s => s.configWrite csa.toNat value.toNat c := rfl

theorem configWrite_running {s : State} (h : Running s) (csa v : Nat) (c : Cmd) :
    s.configWrite csa v c = (s.ctlWrite csa v c (s.hookOf csa c.writer.toNat)).resumeHeld := by
  obtain ⟨hh, -⟩ := h
  simp [State.configWrite, hh]

/-- CONFIG_WRITE answers what the write path of the control space makes of the write, where nothing waits to go on. -/
theorem exec_configWrite_of_writeEffect {P : Nat → Prop} {s t : State} {csa : BitVec 32} {value : BitVec 64} {c : Cmd}
    (hrun : Running s) (hres : NothingResumes s)
    (ht : s.ctlWrite csa.toNat value.toNat c (s.hookOf csa.toNat c.writer.toNat) = t) (e : WriteEffect P s t)
    (hp : ¬ P F.homeRgnCmdBusy.csa) : exec (.configWrite csa value c) s = .next t := by
  rw [exec_configWrite]
  refine always_eq hrun.2 ?_ e.pending_eq e.beat_eq
  rw [configWrite_running hrun, ht, resumeHeld_of_nothingResumes (nothingResumes_of_writeEffect hres e hp)]

/-! ### An accepted write -/

/-- The words that an accepted write of a register changes before its command bit acts. -/
def writtenWord (csa d : Nat) : Prop :=
  d = csa ∨ d = (F.hdrSeqSeq (csa / 0x100000)).csa ∨ d = F.cpCkptLogfill.csa

theorem atHook_writeEffect (s : State) (csa v : Nat) (c : Cmd) : WriteEffect (writtenWord csa) s (s.atHook csa v c) := by
  have hseq := ((logCmd_writeEffect s csa v c).mono (Q := writtenWord csa) fun d hd => .inr (.inr hd)).wr
    (f := F.hdrSeqSeq (csa / 0x100000)) c.seq.toNat (.inr (.inl rfl))
  unfold State.atHook
  simp only
  split
  · exact hseq
  · exact hseq.setReg _ (.inl rfl)

/-- An accepted write takes its sequence number (R505). -/
theorem atHook_seq (s : State) (csa v : Nat) (c : Cmd) (h : csa ≠ (F.hdrSeqSeq (csa / 0x100000)).csa) :
    (s.atHook csa v c).rd (F.hdrSeqSeq (csa / 0x100000)) = c.seq.toNat := by
  have hseq : ∀ x : State, (x.wr (F.hdrSeqSeq (csa / 0x100000)) c.seq.toNat).rd (F.hdrSeqSeq (csa / 0x100000)) = c.seq.toNat := by
    intro x
    rw [State.rd_wr_same _ _ _ (by simp [F.hdrSeqSeq]) (by simp [F.hdrSeqSeq])]
    exact Nat.mod_eq_of_lt c.seq.isLt
  unfold State.atHook
  simp only
  split
  · exact hseq _
  · rw [State.rd_of_reg (State.reg_setReg_ne _ _ _ h.symm), hseq]


/-- The words that a write of a register without a command bit changes: those it writes, and the clamp report. -/
def judgedWord (csa d : Nat) : Prop := writtenWord csa d ∨ clampWord (csa / 0x100000) d

/-- An accepted write of a register without a command bit stores what its fields admit (R505 to R510). -/
theorem ctlWrite_noHook (s : State) (csa v : Nat) (c : Cmd) (r : RegDesc) (ha : csa % 8 = 0) (hw : csa / 0x100000 < 863)
    (hrst : csa / 0x100000 ≠ 860) (hoff : csa % 0x100000 < 0xE00 ∨ 0xE30 ≤ csa % 0x100000) (h : Accepts s (csa / 0x100000) c)
    (hr : findReg (blkOfWindow (csa / 0x100000)).1 (blkOfWindow (csa / 0x100000)).2 (csa % 0x100000) = some r) :
    WriteEffect (judgedWord csa) s (s.ctlWrite csa v c noHook) ∧
      (s.ctlWrite csa v c noHook).reg csa = (s.atHook csa v c).reg csa ∧
      (s.ctlWrite csa v c noHook).rd (F.hdrSeqSeq (csa / 0x100000)) = c.seq.toNat := by
  have hx := (atHook_writeEffect s csa v c).mono (Q := judgedWord csa) fun d hd => .inl hd
  have hseq := atHook_seq s csa v c (by simp only [F.hdrSeqSeq]; omega)
  obtain ⟨u, rfl, hu | ⟨fl, hu⟩⟩ := ctlWrite_register s csa v c noHook r ha hw h hr
  · rw [hu]
    exact ⟨hx, rfl, hseq⟩
  · have hcsa : ¬ clampWord (csa / 0x100000) csa := by
      simp only [clampWord, F.hdrStateClamps]; omega
    have hsq : ¬ clampWord (csa / 0x100000) (F.hdrSeqSeq (csa / 0x100000)).csa := by
      simp only [clampWord, F.hdrStateClamps, F.hdrSeqSeq]; omega
    rw [hu]
    refine ⟨hx.trans ((clampEntry_writeEffect _ _ _ _ _ _ _).mono fun d hd => .inr hd), clampEntry_reg _ _ _ _ _ _ _ hcsa, ?_⟩
    rw [clampEntry_rd _ _ _ _ _ _ _ hsq]
    exact hseq

theorem homeRgnCmdBusy_not_judgedWord (csa : Nat) (h : csa ≠ F.homeRgnCmdGo.csa) :
    ¬ judgedWord csa F.homeRgnCmdBusy.csa := by
  simp only [judgedWord, writtenWord, clampWord, F.homeRgnCmdBusy, F.homeRgnCmdGo, F.hdrSeqSeq, F.cpCkptLogfill,
    F.hdrStateClamps] at h ⊢
  omega

/-! ### A write of an event mask (R504) -/

/-- EVT_EN, which every block has. -/
def evtEnReg : RegDesc := ⟨.any, false, 0xe18, 8, 1, [⟨63, 0, .rwc, 0xffffffffffffffff, .any⟩]⟩

theorem findReg_evtEn (t : BlkType) (i : Nat) : findReg t i 0xE18 = some evtEnReg := by
  cases i <;> cases t <;> rfl

theorem groupCheck_evtEn (s : State) (t : BlkType) (i old new : Nat) : s.groupCheck t i 0xE18 old new = (new, 0) := by
  cases t <;> rfl

theorem hookOf_evtEn (s : State) (csa writer : Nat) (h : csa % 0x100000 = 0xE18) : s.hookOf csa writer = noHook := by
  unfold State.hookOf
  simp only [h]
  split <;> rfl

theorem evtEnReg_stores (v : Nat) (x : Nat × Nat) :
    evtEnReg.fields.foldl (fun acc f => writeField f v acc) x = (setBits x.1 63 0 (bits v 63 0), x.2) := rfl

theorem reservedBits_evtEnReg : reservedBits evtEnReg = 0 := by decide

theorem setReg_evtEn (s : State) (w v csa : Nat) (h : csa = w * 0x100000 + 0xE18) :
    s.setReg csa (setBits (s.reg csa) 63 0 v) = s.wr (F.hdrEvtEnEn w) v := by
  subst h; rfl

theorem atHook_evtEn (s : State) (w v : Nat) (c : Cmd) (csa : Nat) (h : csa = w * 0x100000 + 0xE18) :
    s.atHook csa v c = ((s.logCmd csa v c).wr (F.hdrSeqSeq w) c.seq.toNat).wr (F.hdrEvtEnEn w) (bits v 63 0) := by
  have hdiv : csa / 0x100000 = w := by omega
  have hmod : csa % 0x100000 = 0xE18 := by omega
  unfold State.atHook
  simp only [hdiv, hmod, findReg_evtEn, evtEnReg_stores, groupCheck_evtEn]
  exact setReg_evtEn _ w _ csa h

/-- An accepted write of EVT_EN is stored whole and earns no flag. -/
theorem ctlWrite_evtEn (s : State) (w v : Nat) (c : Cmd) (csa : Nat) (h : csa = w * 0x100000 + 0xE18) (hw : w < 863)
    (hacc : Accepts s w c) : s.ctlWrite csa v c noHook = s.atHook csa v c := by
  have hdiv : csa / 0x100000 = w := by omega
  have hmod : csa % 0x100000 = 0xE18 := by omega
  have hfind : ∀ t i, findReg t i (csa % 0x100000) = some evtEnReg := fun t i => hmod ▸ findReg_evtEn t i
  have hgroup : ∀ x : State, ∀ t i old new, x.groupCheck t i (csa % 0x100000) old new = (new, 0) :=
    fun x t i old new => hmod ▸ groupCheck_evtEn x t i old new
  rw [← hdiv] at hacc
  rw [ctlWrite_accepted s csa v c noHook (by omega) (by omega) hacc,
    clapped_register _ csa v c noHook evtEnReg (accepts_logCmd hacc csa v) (hfind _ _)]
  simp only [State.atHook, hfind, hgroup, evtEnReg_stores, reservedBits_evtEnReg, Nat.and_zero, noHook]
  rfl

theorem hdrEvtEnEn_rd (s : State) (w : Nat) (v : BitVec 64) :
    (s.wr (F.hdrEvtEnEn w) (bits v.toNat 63 0)).rd (F.hdrEvtEnEn w) = v.toNat := by
  rw [State.rd_wr_same _ _ _ (by simp [F.hdrEvtEnEn]) (by simp [F.hdrEvtEnEn]), bits_eq]
  have := v.isLt
  simp only [F.hdrEvtEnEn]
  omega

/-! ### A write that is not accepted (R434, R435, R505) -/

theorem ctlWrite_frozen (s : State) (csa v : Nat) (c : Cmd) (hook : Hook) (h : s.frozenWriter c = true) :
    s.ctlWrite csa v c hook = s := if_pos h

/-- A write of an aligned address of a block that is not under reset reaches the block's clapper. -/
theorem ctlWrite_judged (s : State) (csa v : Nat) (c : Cmd) (hook : Hook) (ha : csa % 8 = 0) (hw : csa / 0x100000 < 863)
    (hf : s.frozenWriter c = false) (hreset : s.on (F.hdrStateInreset (csa / 0x100000)) = false) :
    s.ctlWrite csa v c hook = (s.logCmd csa v c).clapped csa v c hook := by
  have hin : (s.logCmd csa v c).on (F.hdrStateInreset (csa / 0x100000)) = false :=
    (State.on_of_rd (logCmd_rd s csa v c (hdrStateInreset_csa_ne_logfill _))).trans hreset
  simp [State.ctlWrite, hf, ha, hin, Nat.not_le.2 hw]

theorem clapped_duplicate (s : State) (csa v : Nat) (c : Cmd) (hook : Hook)
    (h : c.seq.toNat ≤ s.rd (F.hdrSeqSeq (csa / 0x100000))) : s.clapped csa v c hook = s := by
  simp [State.clapped, h]

theorem clapped_oldClaim (s : State) (csa v : Nat) (c : Cmd) (hook : Hook)
    (hseq : s.rd (F.hdrSeqSeq (csa / 0x100000)) < c.seq.toNat) (hclaim : c.claim.toNat ≠ s.rd F.cpTrioClaim) :
    s.clapped csa v c hook = s.clampEntry (csa / 0x100000) (csa % 0x100000) c.writer.toNat fClaim v (s.reg csa) := by
  simp [State.clapped, Nat.not_le.2 hseq, hclaim]

/-! ### The clauses of CONFIG_WRITE -/

section
variable {s : State} {csa : BitVec 32} {value : BitVec 64} {c : Cmd}

/-- An accepted write of a register without a command bit. -/
theorem configWrite_accepted {r : RegDesc} (ha : csa.toNat % 8 = 0) (hw : csa.toNat / 0x100000 < 863)
    (hrst : csa.toNat / 0x100000 ≠ 860) (hoff : csa.toNat % 0x100000 < 0xE00 ∨ 0xE30 ≤ csa.toNat % 0x100000)
    (hrun : Running s) (hres : NothingResumes s) (hgo : csa.toNat ≠ F.homeRgnCmdGo.csa)
    (hacc : Accepts s (csa.toNat / 0x100000) c)
    (hr : findReg (blkOfWindow (csa.toNat / 0x100000)).1 (blkOfWindow (csa.toNat / 0x100000)).2 (csa.toNat % 0x100000) = some r)
    (hhook : s.hookOf csa.toNat c.writer.toNat = noHook) :
    ∃ t, exec (.configWrite csa value c) s = .next t ∧ WriteEffect (judgedWord csa.toNat) s t ∧
      t.reg csa.toNat = (s.atHook csa.toNat value.toNat c).reg csa.toNat ∧
      t.rd (F.hdrSeqSeq (csa.toNat / 0x100000)) = c.seq.toNat := by
  obtain ⟨heff, hreg, hsq⟩ := ctlWrite_noHook s csa.toNat value.toNat c r ha hw hrst hoff hacc hr
  exact ⟨_, exec_configWrite_of_writeEffect hrun hres (by rw [hhook]) heff (homeRgnCmdBusy_not_judgedWord _ hgo), heff,
    hreg, hsq⟩

/-- An accepted write of an event mask. -/
theorem configWrite_evtEn {w : Nat} (hw : w < 863) (hcsa : csa.toNat = w * 0x100000 + 0xE18) (hrun : Running s)
    (hres : NothingResumes s) (hacc : Accepts s w c) :
    ∃ t, exec (.configWrite csa value c) s = .next t ∧ WriteEffect (writtenWord csa.toNat) s t ∧
      t.rd (F.hdrEvtEnEn w) = value.toNat ∧ t.rd (F.hdrSeqSeq w) = c.seq.toNat ∧ t.events = s.events := by
  have heff := atHook_writeEffect s csa.toNat value.toNat c
  have hat := atHook_evtEn s w value.toNat c csa.toNat hcsa
  have hsq := atHook_seq s csa.toNat value.toNat c (by simp only [F.hdrSeqSeq]; omega)
  rw [show csa.toNat / 0x100000 = w by omega] at hsq
  refine ⟨_, exec_configWrite_of_writeEffect hrun hres ?_ heff ?_, heff, ?_, hsq, ?_⟩
  · rw [hookOf_evtEn s _ _ (by omega), ctlWrite_evtEn s w value.toNat c _ hcsa hw hacc]
  · simp only [writtenWord, F.homeRgnCmdBusy, F.hdrSeqSeq, F.cpCkptLogfill]
    omega
  · rw [hat, hdrEvtEnEn_rd]
  · rw [hat, State.wr_events, State.wr_events, logCmd_events]

/-- A write under an old claim. -/
theorem configWrite_oldClaim (ha : csa.toNat % 8 = 0) (hw : csa.toNat / 0x100000 < 863) (hrun : Running s)
    (hres : NothingResumes s) (hf : s.frozenWriter c = false)
    (hreset : s.on (F.hdrStateInreset (csa.toNat / 0x100000)) = false)
    (hseq : s.rd (F.hdrSeqSeq (csa.toNat / 0x100000)) < c.seq.toNat) (hclaim : c.claim.toNat ≠ s.rd F.cpTrioClaim) :
    ∃ t, exec (.configWrite csa value c) s = .next t ∧ t.rd (F.hdrStateClamped (csa.toNat / 0x100000)) = 1 ∧
      WriteEffect (fun d => d = F.cpCkptLogfill.csa ∨ clampWord (csa.toNat / 0x100000) d) s t := by
  have hlog := (logCmd_writeEffect s csa.toNat value.toNat c).mono (Q := fun d => d = F.cpCkptLogfill.csa ∨
    clampWord (csa.toNat / 0x100000) d) fun d hd => .inl hd
  rw [← logCmd_rd s csa.toNat value.toNat c (hdrSeqSeq_csa_ne_logfill _)] at hseq
  rw [← logCmd_rd s csa.toNat value.toNat c (f := F.cpTrioClaim) (by decide)] at hclaim
  have hclap := fun hook => (ctlWrite_judged s csa.toNat value.toNat c hook ha hw hf hreset).trans
    (clapped_oldClaim _ csa.toNat value.toNat c hook hseq hclaim)
  generalize s.logCmd csa.toNat value.toNat c = x at hlog hclap
  have heff := hlog.trans ((clampEntry_writeEffect x (csa.toNat / 0x100000) (csa.toNat % 0x100000) c.writer.toNat fClaim
    value.toNat (x.reg csa.toNat)).mono fun d hd => .inr hd)
  refine ⟨_, exec_configWrite_of_writeEffect hrun hres (hclap _) heff ?_, clampEntry_clamped _ _ _ _ _ _ _, heff⟩
  simp only [clampWord, F.homeRgnCmdBusy, F.hdrStateClamps, F.cpCkptLogfill]
  omega

/-- A write from a FROZEN processor. -/
theorem configWrite_frozen (hrun : Running s) (hres : NothingResumes s) (hf : s.frozenWriter c = true) :
    exec (.configWrite csa value c) s = .next s := by
  rw [exec_configWrite]
  refine always_eq hrun.2 ?_ rfl rfl
  rw [configWrite_running hrun, ctlWrite_frozen s _ _ c _ hf, resumeHeld_of_nothingResumes hres]

/-- A write whose sequence number is not above the block's last. -/
theorem configWrite_duplicate (ha : csa.toNat % 8 = 0) (hw : csa.toNat / 0x100000 < 863) (hrun : Running s)
    (hres : NothingResumes s) (hreset : s.on (F.hdrStateInreset (csa.toNat / 0x100000)) = false)
    (hseq : c.seq.toNat ≤ s.rd (F.hdrSeqSeq (csa.toNat / 0x100000))) :
    ∃ t, exec (.configWrite csa value c) s = .next t ∧ WriteEffect (· = F.cpCkptLogfill.csa) s t ∧ t.events = s.events := by
  cases hf : s.frozenWriter c with
  | true => exact ⟨s, configWrite_frozen hrun hres hf, .refl _ s, rfl⟩
  | false =>
    have heff := logCmd_writeEffect s csa.toNat value.toNat c
    rw [← logCmd_rd s csa.toNat value.toNat c (hdrSeqSeq_csa_ne_logfill _)] at hseq
    exact ⟨_, exec_configWrite_of_writeEffect hrun hres
      ((ctlWrite_judged s csa.toNat value.toNat c _ ha hw hf hreset).trans (clapped_duplicate _ _ _ c _ hseq)) heff (by decide),
      heff, logCmd_events _ _ _ _⟩

end

/-- Settles O15, a clause for each way in which a write is judged. -/
theorem controlWritesAreJudged : Obligations.ControlWritesAreJudged := by
  refine ⟨fun s csa value c r ha hw hrst hoff hrun hres hgo hacc hr hhook => ?_,
    fun s w csa value c hw hcsa hrun hres hacc => ?_, fun s csa value c ha hw hrun hres hf hreset hseq hclaim => ?_,
    fun s csa value c ha hw hrun hres hreset hseq => ?_, fun s csa value c hrun hres hf => configWrite_frozen hrun hres hf⟩
  · obtain ⟨t, hexec, ⟨l, ht, hl, hregs⟩, hreg, hsq⟩ := configWrite_accepted (value := value) ha hw hrst hoff hrun hres hgo hacc hr hhook
    refine ⟨t, l, hexec, hreg, hsq, ht, hl, fun d h1 h2 h3 h4 h5 => hregs d fun hd => ?_⟩
    exact hd.elim (fun hd => hd.elim h1 fun hd => hd.elim h2 h3) fun hd => hd.elim h4 h5
  · obtain ⟨t, hexec, heff, hen, hsq, hevents⟩ := configWrite_evtEn (value := value) hw hcsa hrun hres hacc
    refine ⟨t, hexec, hen, hsq, hevents, fun d h1 h2 h3 => heff.reg_eq fun hd => ?_⟩
    rw [writtenWord, show csa.toNat / 0x100000 = w by omega] at hd
    exact hd.elim h1 fun hd => hd.elim h2 h3
  · obtain ⟨t, hexec, hclamped, heff⟩ := configWrite_oldClaim (value := value) ha hw hrun hres hf hreset hseq hclaim
    refine ⟨t, hexec, hclamped, heff.frame, fun d h1 h2 h3 => heff.reg_eq fun hd => ?_⟩
    exact hd.elim h3 fun hd => hd.elim h1 h2
  · obtain ⟨t, hexec, heff, hevents⟩ := configWrite_duplicate (value := value) ha hw hrun hres hreset hseq
    exact ⟨t, hexec, heff.frame_of_events hevents, fun d hd => heff.reg_eq hd⟩

/-! ## Frequency steps (R25 to R30, R188, R520 to R522) -/

/-- Only PWR's record changes, and in it neither the step change under way nor a ceiling. -/
def KeepsCeilings (s t : State) : Prop :=
  ∃ p, t = { s with pwr := p } ∧ p.halt = s.pwr.halt ∧ p.thermCeil = s.pwr.thermCeil ∧ p.currCeil = s.pwr.currCeil

theorem KeepsCeilings.refl (s : State) : KeepsCeilings s s := ⟨s.pwr, rfl, rfl, rfl, rfl⟩

theorem KeepsCeilings.trans {s t u : State} (h1 : KeepsCeilings s t) (h2 : KeepsCeilings t u) : KeepsCeilings s u := by
  obtain ⟨p1, rfl, hh1, ht1, hc1⟩ := h1
  obtain ⟨p2, rfl, hh2, ht2, hc2⟩ := h2
  exact ⟨p2, rfl, hh2.trans hh1, ht2.trans ht1, hc2.trans hc1⟩

theorem KeepsCeilings.ite {s t u : State} {q : Prop} [Decidable q] (ht : KeepsCeilings s t) (hu : KeepsCeilings s u) :
    KeepsCeilings s (if q then t else u) := by split <;> assumption

section
variable {s t : State} (h : KeepsCeilings s t)
include h

theorem KeepsCeilings.regs_eq : t.regs = s.regs := by obtain ⟨p, rfl, -⟩ := h; rfl
theorem KeepsCeilings.beat_eq : t.beat = s.beat := by obtain ⟨p, rfl, -⟩ := h; rfl
theorem KeepsCeilings.pending_eq : t.pending = s.pending := by obtain ⟨p, rfl, -⟩ := h; rfl
theorem KeepsCeilings.mbar_eq : t.mbar = s.mbar := by obtain ⟨p, rfl, -⟩ := h; rfl
theorem KeepsCeilings.frame : t = { s with pwr := t.pwr } := by obtain ⟨p, rfl, -⟩ := h; rfl
theorem KeepsCeilings.halt_eq : t.pwr.halt = s.pwr.halt := by obtain ⟨p, rfl, hh, -⟩ := h; exact hh
theorem KeepsCeilings.thermCeil_eq : t.pwr.thermCeil = s.pwr.thermCeil := by obtain ⟨p, rfl, -, ht, -⟩ := h; exact ht
theorem KeepsCeilings.currCeil_eq : t.pwr.currCeil = s.pwr.currCeil := by obtain ⟨p, rfl, -, -, hc⟩ := h; exact hc
theorem KeepsCeilings.rd_eq (f : Fld) : t.rd f = s.rd f := State.rd_of_regs h.regs_eq f

end

theorem command_keepsCeilings (s : State) (st : Nat) : KeepsCeilings s (s.command st) := ⟨_, rfl, rfl, rfl, rfl⟩

theorem setRaise_keepsCeilings (s : State) (b : Option Nat) :
    KeepsCeilings s (s.setPwr fun p => { p with raiseAt := b, confirmed := none }) := ⟨_, rfl, rfl, rfl, rfl⟩

/-- Beginning a voltage raise moves the voltage command and its beats only (R521). -/
theorem beginRaise_keepsCeilings (s : State) (b : Nat) : KeepsCeilings s (s.beginRaise b) :=
  .ite ((command_keepsCeilings s _).trans (setRaise_keepsCeilings _ (some b))) (.refl s)

/-! ### A write of TARGET (R26, R28, R30, R238) -/

/-- The effect of a write of TARGET, stage by stage: TARGET is lifted to the ceiling of the placements. -/
def State.liftTarget (s : State) : State :=
  if s.rd F.pwrFstepCtlTarget < s.rd F.dispPatStatCeil then s.wr F.pwrFstepCtlTarget (s.rd F.dispPatStatCeil) else s

/-- FSTEP_AT is put off to 64 beats after the beat of effect, and the clamp recorded. -/
def State.postponeFstep (s : State) (writer : Nat) : State :=
  if s.rd F.pwrFstepAtBeat < s.eff + 64 then
    (s.wr F.pwrFstepAtBeat (s.eff + 64)).clampEntry blkPwr 0x108 writer fRange (s.rd F.pwrFstepAtBeat) (s.eff + 64)
  else s

/-- A raise that waits is given up, and the voltage of the current step commanded again. -/
def State.dropRaise (s : State) : State :=
  let u := s.setPwr fun p => { p with raiseAt := none, confirmed := none }
  if s.pwr.raiseAt.isSome then u.command u.step' else u

/-- The change to a target is pending unless the target holds anyway. -/
def State.armFstep (s : State) (t : Nat) : State :=
  if t = s.nextStep ∧ s.aboveCeil t = false then s.wr F.pwrFstepCtlPending 0
  else (s.wr F.pwrFstepCtlPending 1).beginRaise s.eff

theorem hookFstep_stages (writer v : Nat) (s : State) : (hookFstep writer v s).1 =
    ((s.liftTarget.postponeFstep writer).dropRaise).armFstep (max (s.rd F.pwrFstepCtlTarget) (s.rd F.dispPatStatCeil)) := by
  by_cases h : s.rd F.pwrFstepCtlTarget < s.rd F.dispPatStatCeil
  · simp only [hookFstep, State.liftTarget, if_pos h, Nat.max_eq_right (Nat.le_of_lt h), apply_ite Prod.fst, Bool.and_eq_true, decide_eq_true_eq,
      Bool.not_eq_true', State.postponeFstep, State.dropRaise, State.armFstep]
  · simp only [hookFstep, State.liftTarget, if_neg h, Nat.max_eq_left (Nat.le_of_not_lt h), apply_ite Prod.fst, Bool.and_eq_true,
      decide_eq_true_eq, Bool.not_eq_true', State.postponeFstep, State.dropRaise, State.armFstep]

/-- The current step, the ceiling in force and the step change under way stand. -/
def SameStep (s t : State) : Prop :=
  t.rd F.pwrFstepCtlCur = s.rd F.pwrFstepCtlCur ∧ t.rd F.pwrFstepCtlThermal = s.rd F.pwrFstepCtlThermal ∧
    t.rd F.pwrFstepCtlCeil = s.rd F.pwrFstepCtlCeil ∧ t.pwr.halt = s.pwr.halt

theorem SameStep.trans {s t u : State} (h1 : SameStep s t) (h2 : SameStep t u) : SameStep s u := by
  obtain ⟨a1, b1, c1, d1⟩ := h1
  obtain ⟨a2, b2, c2, d2⟩ := h2
  exact ⟨a2.trans a1, b2.trans b1, c2.trans c1, d2.trans d1⟩

theorem SameStep.nextStep_eq {s t : State} (h : SameStep s t) : t.nextStep = s.nextStep := by
  obtain ⟨hcur, -, -, hhalt⟩ := h
  unfold State.nextStep State.step'
  rw [hhalt, hcur]

theorem SameStep.aboveCeil_eq {s t : State} (h : SameStep s t) (st : Nat) : t.aboveCeil st = s.aboveCeil st := by
  obtain ⟨-, hthermal, hceil, -⟩ := h
  simp only [State.aboveCeil, State.on, hthermal, hceil]

theorem sameStep_of_keepsCeilings {s t : State} (h : KeepsCeilings s t) : SameStep s t :=
  ⟨h.rd_eq _, h.rd_eq _, h.rd_eq _, h.halt_eq⟩

theorem sameStep_of_writeEffect {P : Nat → Prop} {s t : State} (h : WriteEffect P s t) (hp : ¬ P F.pwrFstepCtlCur.csa) :
    SameStep s t :=
  ⟨h.rd_eq hp, h.rd_eq hp, h.rd_eq hp, congrArg Pwr.halt h.pwr_eq⟩

theorem wr_target_sameStep (s : State) (v : Nat) : SameStep s (s.wr F.pwrFstepCtlTarget v) := by
  refine ⟨?_, ?_, ?_, rfl⟩
  · exact State.rd_wr_disjoint s _ _ v (by decide) (by decide) (by decide) (by decide) (by decide)
  · exact State.rd_wr_disjoint s _ _ v (by decide) (by decide) (by decide) (by decide) (by decide)
  · exact State.rd_wr_disjoint s _ _ v (by decide) (by decide) (by decide) (by decide) (by decide)

theorem wr_pending_sameStep (s : State) (v : Nat) : SameStep s (s.wr F.pwrFstepCtlPending v) := by
  refine ⟨?_, ?_, ?_, rfl⟩
  · exact State.rd_wr_disjoint s _ _ v (by decide) (by decide) (by decide) (by decide) (by decide)
  · exact State.rd_wr_disjoint s _ _ v (by decide) (by decide) (by decide) (by decide) (by decide)
  · exact State.rd_wr_disjoint s _ _ v (by decide) (by decide) (by decide) (by decide) (by decide)

theorem liftTarget_writeEffect (s : State) : WriteEffect (· = F.pwrFstepCtlTarget.csa) s s.liftTarget := by
  unfold State.liftTarget
  split
  · exact (WriteEffect.refl _ s).wr _ rfl
  · exact .refl _ s

theorem liftTarget_sameStep (s : State) : SameStep s s.liftTarget := by
  unfold State.liftTarget
  split
  · exact wr_target_sameStep s _
  · exact ⟨rfl, rfl, rfl, rfl⟩

theorem liftTarget_target (s : State) :
    s.liftTarget.rd F.pwrFstepCtlTarget = max (s.rd F.pwrFstepCtlTarget) (s.rd F.dispPatStatCeil) := by
  unfold State.liftTarget
  split
  · next h =>
    rw [State.rd_wr_same _ _ _ (by decide) (by decide), Nat.max_eq_right (Nat.le_of_lt h)]
    exact Nat.mod_eq_of_lt (State.rd_lt s F.dispPatStatCeil)
  · next h => exact (Nat.max_eq_left (Nat.le_of_not_lt h)).symm

/-- The words that putting off FSTEP_AT may change. -/
def postponeWord (d : Nat) : Prop := d = F.pwrFstepAtBeat.csa ∨ clampWord blkPwr d

theorem postponeFstep_writeEffect (s : State) (w : Nat) : WriteEffect postponeWord s (s.postponeFstep w) := by
  unfold State.postponeFstep
  split
  · exact ((WriteEffect.refl _ s).wr _ (.inl rfl)).trans ((clampEntry_writeEffect _ _ _ _ _ _ _).mono fun d hd => .inr hd)
  · exact .refl _ s

theorem fstepCtl_not_postponeWord : ¬ postponeWord F.pwrFstepCtlCur.csa := by
  unfold postponeWord clampWord
  decide

theorem postponeFstep_at (s : State) (w : Nat) (h : s.beat + 66 < 2 ^ 64) :
    (s.postponeFstep w).rd F.pwrFstepAtBeat = max (s.rd F.pwrFstepAtBeat) (s.beat + 66) := by
  unfold State.postponeFstep State.eff
  split
  · next hlt =>
    have hne : ¬ clampWord blkPwr F.pwrFstepAtBeat.csa := by unfold clampWord; decide
    rw [clampEntry_rd _ _ _ _ _ _ _ hne, State.rd_wr_same _ _ _ (by decide) (by decide), Nat.max_eq_right (Nat.le_of_lt hlt)]
    exact Nat.mod_eq_of_lt h
  · next hlt => exact (Nat.max_eq_left (Nat.le_of_not_lt hlt)).symm

theorem dropRaise_keepsCeilings (s : State) : KeepsCeilings s s.dropRaise :=
  .ite ((setRaise_keepsCeilings s none).trans (command_keepsCeilings _ _)) (setRaise_keepsCeilings s none)

/-- Arming a change writes PENDING, and in PWR's record at most begins the raise. -/
theorem armFstep_keepsCeilings (s : State) (t : Nat) : ∃ p, KeepsCeilings (s.wr F.pwrFstepCtlPending p) (s.armFstep t) ∧
    p = if t = s.nextStep ∧ s.aboveCeil t = false then 0 else 1 := by
  refine ⟨_, ?_, rfl⟩
  unfold State.armFstep
  split
  · exact .refl _
  · exact beginRaise_keepsCeilings _ _

theorem exec_fstepTarget (target : BitVec 2) (c : Cmd) (s : State) :
    exec (.fstepTarget target c) s = always s fun s => s.ctlWrite F.pwrFstepCtlTarget.csa
      (s.compose F.pwrFstepCtlTarget.csa [(F.pwrFstepCtlTarget, target.toNat)]) c (hookFstep c.writer.toNat) := rfl

/-- FSTEP_CTL: CUR, TARGET, PENDING, THERMAL and CEIL. -/
def fstepCtlReg : RegDesc :=
  ⟨.pwr, false, 0x100, 8, 1, [⟨1, 0, .ro, 0x3, .any⟩, ⟨3, 2, .rwc, 0x3, .any⟩, ⟨8, 8, .ro, 0x0, .any⟩, ⟨9, 9, .ro, 0x0, .any⟩,
    ⟨11, 10, .ro, 0x0, .any⟩]⟩

theorem findReg_fstepCtl : findReg .pwr 0 0x100 = some fstepCtlReg := by decide

theorem fstepCtlReg_stores (v : Nat) (x : Nat × Nat) :
    fstepCtlReg.fields.foldl (fun acc f => writeField f v acc) x = (setBits x.1 3 2 (bits v 3 2), x.2) := rfl

theorem groupCheck_fstepCtl (s : State) (old new : Nat) : s.groupCheck .pwr 0 0x100 old new = (new, 0) := rfl

/-- A write of FSTEP_CTL stores TARGET alone. -/
theorem atHook_fstepCtl (s : State) (v : Nat) (c : Cmd) : s.atHook F.pwrFstepCtlTarget.csa v c =
    ((s.logCmd F.pwrFstepCtlTarget.csa v c).wr (F.hdrSeqSeq 861) c.seq.toNat).wr F.pwrFstepCtlTarget (bits v 3 2) := by
  have hwin : blkOfWindow 861 = (.pwr, 0) := by decide
  have hidx : F.pwrFstepCtlTarget.csa / 0x100000 = 861 := by decide
  have hoff : F.pwrFstepCtlTarget.csa % 0x100000 = 0x100 := by decide
  unfold State.atHook
  simp only [hidx, hwin, hoff, findReg_fstepCtl, fstepCtlReg_stores, groupCheck_fstepCtl]
  rfl

theorem compose_target (s : State) (target : BitVec 2) :
    bits (s.compose F.pwrFstepCtlTarget.csa [(F.pwrFstepCtlTarget, target.toNat)]) 3 2 = target.toNat :=
  (bits_setBits_same _ 3 2 _).trans (Nat.mod_eq_of_lt target.isLt)

/-- The state in which the write of TARGET takes effect. -/
theorem atHook_target (s : State) (target : BitVec 2) (c : Cmd) (x : State)
    (hx : x = s.atHook F.pwrFstepCtlTarget.csa (s.compose F.pwrFstepCtlTarget.csa [(F.pwrFstepCtlTarget, target.toNat)]) c) :
    x.rd F.pwrFstepCtlTarget = target.toNat ∧ x.rd F.dispPatStatCeil = s.rd F.dispPatStatCeil ∧
      x.rd F.pwrFstepAtBeat = s.rd F.pwrFstepAtBeat ∧ SameStep s x := by
  generalize hv : s.compose _ _ = v at hx
  have hb : bits v 3 2 = target.toNat := hv ▸ compose_target s target
  have heff := hx ▸ atHook_writeEffect s F.pwrFstepCtlTarget.csa v c
  rw [atHook_fstepCtl, hb] at hx
  refine ⟨?_, heff.rd_eq (by unfold writtenWord; decide), heff.rd_eq (by unfold writtenWord; decide), ?_⟩
  · rw [hx, State.rd_wr_same _ _ _ (by decide) (by decide)]
    exact Nat.mod_eq_of_lt target.isLt
  · rw [hx]
    refine SameStep.trans ?_ (wr_target_sameStep _ _)
    refine sameStep_of_writeEffect (P := fun d => d = F.cpCkptLogfill.csa ∨ d = (F.hdrSeqSeq 861).csa)
      (((logCmd_writeEffect s _ v c).mono fun d hd => .inl hd).wr _ (.inr rfl)) (by decide)

/-- What the write of TARGET leaves (R26, R28, R30). -/
theorem hookFstep_effect (writer v : Nat) (s : State) (hlim : s.beat + 66 < 2 ^ 64) :
    ∃ u, u = (hookFstep writer v s).1 ∧ u.rd F.pwrFstepCtlTarget = max (s.rd F.pwrFstepCtlTarget) (s.rd F.dispPatStatCeil) ∧
      u.rd F.pwrFstepAtBeat = max (s.rd F.pwrFstepAtBeat) (s.beat + 66) ∧
      u.rd F.pwrFstepCtlPending =
        (if max (s.rd F.pwrFstepCtlTarget) (s.rd F.dispPatStatCeil) = s.nextStep ∧
          s.aboveCeil (max (s.rd F.pwrFstepCtlTarget) (s.rd F.dispPatStatCeil)) = false then 0 else 1) ∧
      SameStep s u ∧ u.beat = s.beat ∧ u.pending = s.pending := by
  have hlift := liftTarget_writeEffect s
  have hpost := postponeFstep_writeEffect s.liftTarget writer
  have hdrop := dropRaise_keepsCeilings (s.liftTarget.postponeFstep writer)
  have hstep : SameStep s (s.liftTarget.postponeFstep writer).dropRaise :=
    ((liftTarget_sameStep s).trans (sameStep_of_writeEffect hpost fstepCtl_not_postponeWord)).trans (sameStep_of_keepsCeilings hdrop)
  have htarget := (hdrop.rd_eq F.pwrFstepCtlTarget).trans ((hpost.rd_eq (f := F.pwrFstepCtlTarget) fstepCtl_not_postponeWord).trans (liftTarget_target s))
  have hat := (hdrop.rd_eq F.pwrFstepAtBeat).trans (postponeFstep_at s.liftTarget writer (hlift.beat_eq.symm ▸ hlim))
  rw [hlift.beat_eq, hlift.rd_eq (by decide)] at hat
  have hbeat := hdrop.beat_eq.trans (hpost.beat_eq.trans hlift.beat_eq)
  have hpending := hdrop.pending_eq.trans (hpost.pending_eq.trans hlift.pending_eq)
  rw [hookFstep_stages]
  generalize (s.liftTarget.postponeFstep writer).dropRaise = x at *
  generalize max (s.rd F.pwrFstepCtlTarget) (s.rd F.dispPatStatCeil) = st at *
  obtain ⟨p, harm, hp⟩ := armFstep_keepsCeilings x st
  rw [hstep.nextStep_eq, hstep.aboveCeil_eq] at hp
  refine ⟨_, rfl, ?_, ?_, ?_, (hstep.trans (wr_pending_sameStep x p)).trans (sameStep_of_keepsCeilings harm), ?_, ?_⟩
  · rw [harm.rd_eq, State.rd_wr_disjoint x _ _ p (by decide) (by decide) (by decide) (by decide) (by decide), htarget]
  · rw [harm.rd_eq, State.rd_wr_ne x _ _ p (by decide), hat]
  · rw [harm.rd_eq, State.rd_wr_same _ _ _ (by decide) (by decide), hp]
    split <;> rfl
  · rw [harm.beat_eq, State.wr_beat, hbeat]
  · rw [harm.pending_eq, State.wr_pending, hpending]

theorem fstep_not_clampWord : ¬ clampWord 861 F.pwrFstepCtlCur.csa ∧ ¬ clampWord 861 F.pwrFstepAtBeat.csa := by
  unfold clampWord
  decide

/-- Settles O10: the write reaches `hookFstep`, and a clamp report beside it touches no field of FSTEP_CTL or FSTEP_AT. -/
theorem stepTargetArmsAChange : Obligations.StepTargetArmsAChange := by
  intro s target c hpor hacc hlim
  obtain ⟨x, hx⟩ : ∃ x, x = s.atHook F.pwrFstepCtlTarget.csa
    (s.compose F.pwrFstepCtlTarget.csa [(F.pwrFstepCtlTarget, target.toNat)]) c := ⟨_, rfl⟩
  obtain ⟨htarget, hceil, hat, hstep⟩ := atHook_target s target c x hx
  have hxw := hx ▸ atHook_writeEffect s F.pwrFstepCtlTarget.csa _ c
  obtain ⟨u, hu, utarget, uat, upending, ustep, ubeat, uqueue⟩ := hookFstep_effect c.writer.toNat
    (s.compose F.pwrFstepCtlTarget.csa [(F.pwrFstepCtlTarget, target.toNat)]) x (hxw.beat_eq.symm ▸ hlim)
  rw [htarget, hceil] at utarget upending
  rw [hat, hxw.beat_eq] at uat
  rw [hstep.nextStep_eq, hstep.aboveCeil_eq] at upending
  obtain ⟨ucur, -, -, uhalt⟩ := hstep.trans ustep
  obtain ⟨y, hy, hwrite⟩ := ctlWrite_register s F.pwrFstepCtlTarget.csa
    (s.compose F.pwrFstepCtlTarget.csa [(F.pwrFstepCtlTarget, target.toNat)]) c (hookFstep c.writer.toNat) fstepCtlReg
    (by decide) (by decide) hacc findReg_fstepCtl
  rw [← hx, ← hu] at hy
  subst hy
  rw [exec_fstepTarget]
  rcases hwrite with hwrite | ⟨fl, hwrite⟩
  · exact ⟨y, always_eq hpor hwrite (uqueue.trans hxw.pending_eq) (ubeat.trans hxw.beat_eq), utarget, uat, upending, ucur, uhalt⟩
  · have hrep := hwrite ▸ clampEntry_writeEffect y (F.pwrFstepCtlTarget.csa / 0x100000) (F.pwrFstepCtlTarget.csa % 0x100000)
      c.writer.toNat fl _ (y.reg F.pwrFstepCtlTarget.csa)
    obtain ⟨hctl, hatw⟩ := fstep_not_clampWord
    refine ⟨_, always_eq hpor rfl (hrep.pending_eq.trans (uqueue.trans hxw.pending_eq))
      (hrep.beat_eq.trans (ubeat.trans hxw.beat_eq)), ?_, ?_, ?_, ?_, ?_⟩
    · exact (hrep.rd_eq (f := F.pwrFstepCtlTarget) hctl).trans utarget
    · exact (hrep.rd_eq (f := F.pwrFstepAtBeat) hatw).trans uat
    · exact (hrep.rd_eq (f := F.pwrFstepCtlPending) hctl).trans upending
    · exact (hrep.rd_eq (f := F.pwrFstepCtlCur) hctl).trans ucur
    · exact (congrArg Pwr.halt hrep.pwr_eq).trans uhalt

/-! ### The halt of the tile clocks and the new step (R26, R29, R30, R188, R521, R522) -/

theorem exec_fstepBegin (s : State) : exec .fstepBegin s = live s fun s => s.fstepBegin := rfl

theorem exec_thermalStepDown (s : State) : exec .thermalStepDown s = live s fun s => s.thermalStep := rfl

theorem exec_fstepResume (s : State) : exec .fstepResume s = live s fun s => s.fstepResume := rfl

/-- The tile clocks halt for 64 beats, and no raise waits (R26). -/
theorem haltTiles_eq (s : State) (st : Nat) : s.haltTiles st =
    { s with pwr := { s.pwr with halt := some (st, s.beat + 64), raiseAt := none, confirmed := none } } := rfl

/-- A step that the ceiling in force does not forbid is at or below it. -/
theorem max_ceil_of_not_aboveCeil (s : State) (st : Nat) (h : s.aboveCeil st = false) :
    (if s.on F.pwrFstepCtlThermal then max st (s.rd F.pwrFstepCtlCeil) else st) = st := by
  split
  · next hon => simp_all [State.aboveCeil]
  · rfl

/-- A change that is due and allowed begins: PENDING clears and the tile clocks halt (R26, R521). -/
theorem fstepBegin_eq (s : State) (hpend : s.on F.pwrFstepCtlPending = true) (hdue : s.rd F.pwrFstepAtBeat ≤ s.beat)
    (hhalt : s.pwr.halt = none) (hceil : s.aboveCeil (s.rd F.pwrFstepCtlTarget) = false)
    (hvolt : s.rd F.pwrFstepCtlCur ≤ s.rd F.pwrFstepCtlTarget ∨ ∃ b, s.pwr.confirmed = some b ∧ b ≤ s.beat) :
    s.fstepBegin = (s.wr F.pwrFstepCtlPending 0).haltTiles (s.rd F.pwrFstepCtlTarget) := by
  have hmax := max_ceil_of_not_aboveCeil s _ hceil
  unfold State.fstepBegin
  simp only [hmax]
  rcases hvolt with h | ⟨b, hb, h⟩
  · exact if_pos (by simp [hpend, hdue, hhalt, hceil, State.step', h])
  · exact if_pos (by simp [hpend, hdue, hhalt, hceil, hb, h])

/-- The step to which a held ceiling lowers the current one: the ceiling's, or a slower target that is due (R29). -/
def State.loweredStep (s : State) : Nat :=
  if s.on F.pwrFstepCtlPending = true ∧ s.rd F.pwrFstepAtBeat ≤ s.beat ∧ s.rd F.pwrFstepCtlCur < s.rd F.pwrFstepCtlTarget then
    max (s.rd F.pwrFstepCtlTarget) (s.rd F.pwrFstepCtlCeil)
  else s.rd F.pwrFstepCtlCeil

/-- A held ceiling below the current step lowers it at once, to a slower target where one is due (R29, R522). -/
theorem thermalStep_eq (s : State) (hon : s.on F.pwrFstepCtlThermal = true)
    (hlt : s.rd F.pwrFstepCtlCur < s.rd F.pwrFstepCtlCeil) (hhalt : s.pwr.halt = none) :
    ∃ u w, (u = s ∨ u = s.wr F.pwrFstepCtlPending 0) ∧ KeepsCeilings u w ∧ s.thermalStep = w.haltTiles s.loweredStep := by
  unfold State.thermalStep State.step' State.loweredStep
  simp only [hon, hlt, hhalt, Option.isNone_none, Bool.and_self, decide_true, if_true, Bool.and_eq_true, decide_eq_true_eq, and_assoc]
  exact ⟨_, _, (ite_branch _ _ _).symm, .ite (command_keepsCeilings _ _) (.refl _), rfl⟩

/-- The bar counters restart at zero; registers, PWR, the beat and the queue stand (R188). -/
theorem rebase_effect (s : State) : s.rebase.mbar = 0 ∧ s.rebase.regs = s.regs ∧ KeepsPower s s.rebase := by
  unfold State.rebase
  simp only
  generalize hr : each (List.range 32) _ _ = r
  have hkeeps : r.regs = s.regs ∧ KeepsPower s r := by
    rw [← hr]
    refine each_keeps (fun t => t.regs = s.regs ∧ KeepsPower s t) _ _ (fun k t ht => ?_) _ ⟨rfl, rfl, rfl, rfl, rfl⟩
    split
    · exact ht
    · obtain ⟨hregs, hpow⟩ := ht
      exact ⟨(State.setDc_regs _ _ _).trans hregs, hpow.trans ⟨rfl, rfl, rfl, rfl⟩⟩
  obtain ⟨hregs, hevents, hpwr, hbeat, hpending⟩ := hkeeps
  exact ⟨trivial, hregs, hevents, hpwr, hbeat, hpending⟩

/-- When the 64 beats are over the clocks resume at the new step, and the bar counters restart (R26, R188). -/
theorem fstepResume_eq (s : State) (st b : Nat) (hhalt : s.pwr.halt = some (st, b)) (hb : b ≤ s.beat) :
    ∃ u, KeepsCeilings ((s.rebase.wr F.pwrFstepCtlCur st).setPwr fun p => { p with halt := none }) u ∧ s.fstepResume = u := by
  unfold State.fstepResume
  simp only [hhalt, if_pos hb]
  exact ⟨_, (command_keepsCeilings _ _).trans (beginRaise_keepsCeilings _ _), rfl⟩

theorem wr_pending_reg (s : State) (v : Nat) {d : Nat} (h : d ≠ F.pwrFstepCtlPending.csa) :
    (s.wr F.pwrFstepCtlPending v).reg d = s.reg d := State.reg_setReg_ne _ _ _ h

/-- Settles O11, a clause for each of FSTEP_BEGIN, THERMAL_STEP_DOWN and FSTEP_RESUME. -/
theorem stepChangeHaltsAndResumes : Obligations.StepChangeHaltsAndResumes := by
  refine ⟨fun s hrun hpend hdue hhalt hceil hvolt => ?_, fun s hrun hon hlt hhalt => ?_, fun s st b hrun hhalt hst hb => ?_⟩
  · rw [exec_fstepBegin]
    obtain ⟨x, hx⟩ : ∃ x, x = s.wr F.pwrFstepCtlPending 0 := ⟨_, rfl⟩
    have hcur : x.rd F.pwrFstepCtlCur = s.rd F.pwrFstepCtlCur := hx ▸ (wr_pending_sameStep s 0).1
    have hzero : x.rd F.pwrFstepCtlPending = 0 := by rw [hx, State.rd_wr_same _ _ _ (by decide) (by decide)]; rfl
    have hreg : ∀ d, d ≠ F.pwrFstepCtlPending.csa → x.reg d = s.reg d := fun d hd => hx ▸ wr_pending_reg s 0 hd
    have hframe : x = { s with regs := x.regs } := by rw [hx]; rfl
    have h := fstepBegin_eq s hpend hdue hhalt hceil hvolt
    rw [← hx, haltTiles_eq] at h
    generalize x.regs = r at hframe
    subst hframe
    exact ⟨_, live_eq hrun h rfl rfl, rfl, (State.rd_of_regs rfl _).trans hzero, (State.rd_of_regs rfl _).trans hcur,
      fun d hd => (State.reg_of_regs rfl d).trans (hreg d hd)⟩
  · rw [exec_thermalStepDown]
    obtain ⟨u, w, hu, hkeeps, h⟩ := thermalStep_eq s hon hlt hhalt
    have hreg : ∀ d, d ≠ F.pwrFstepCtlPending.csa → u.reg d = s.reg d := by
      rcases hu with rfl | rfl
      · exact fun _ _ => rfl
      · exact fun d hd => wr_pending_reg s 0 hd
    have hframe : u = { s with regs := u.regs } := by
      rcases hu with rfl | rfl
      · rfl
      · rfl
    obtain ⟨p, rfl, -⟩ := hkeeps
    rw [haltTiles_eq] at h
    generalize u.regs = r at hframe
    subst hframe
    exact ⟨_, live_eq hrun h rfl rfl, rfl, rfl, fun d hd => (State.reg_of_regs rfl d).trans (hreg d hd)⟩
  · rw [exec_fstepResume]
    obtain ⟨u, hkeeps, h⟩ := fstepResume_eq s st b hhalt hb
    obtain ⟨hmbar, -, -, -, hbeat, hpending⟩ := rebase_effect s
    refine ⟨u, live_eq hrun h ?_ ?_, hkeeps.halt_eq, ?_, ?_⟩
    · rw [hkeeps.pending_eq, State.setPwr_pending, State.wr_pending, hpending]
    · rw [hkeeps.beat_eq, State.setPwr_beat, State.wr_beat, hbeat]
    · rw [hkeeps.rd_eq, State.setPwr_rd, State.rd_wr_same _ _ _ (by decide) (by decide)]
      exact Nat.mod_eq_of_lt hst
    · rw [hkeeps.mbar_eq, State.setPwr_mbar, State.wr_mbar, hmbar]

/-! ## Thermal and current ceilings (R29, R30, R522 to R528) -/

theorem exec_thermalThreshold (temps : BitVec 360) (s : State) :
    exec (.thermalThreshold temps) s = always s fun s => s.junction (hottest temps) := rfl

theorem exec_thermalCeilingLift (s : State) : exec .thermalCeilingLift s = always s fun s => s.thermLift := rfl

theorem exec_thermalTrip (temps : BitVec 360) (s : State) :
    exec (.thermalTrip temps) s = always s fun s => s.thermTrip (hottest temps) := rfl

theorem exec_thermtripRelease (temps : BitVec 360) (s : State) :
    exec (.thermtripRelease temps) s = always s fun s => s.tripRelease (hottest temps) := rfl

theorem exec_currentCeiling (m1 mu m10 : BitVec 12) (s : State) :
    exec (.currentCeiling m1 mu m10) s = always s fun s => s.current m1.toNat mu.toNat m10.toNat := rfl

/-- The ceiling in force: the lower step of the thermal and the current ceiling. -/
def Pwr.ceiling (p : Pwr) : Nat := max ((p.thermCeil.map (·.1)).getD 0) ((p.currCeil.map (·.1)).getD 0)

theorem ceiling_of_thermCeil_none {p : Pwr} (h : p.thermCeil = none) : p.ceiling = (p.currCeil.map (·.1)).getD 0 := by
  rw [Pwr.ceiling, h]
  exact Nat.zero_max _

theorem ceiling_of_currCeil_none {p : Pwr} (h : p.currCeil = none) : p.ceiling = (p.thermCeil.map (·.1)).getD 0 := by
  rw [Pwr.ceiling, h]
  exact Nat.max_zero _

/-- FSTEP_CTL shows whether a ceiling holds, and the one in force (R29, R30). -/
theorem showCeil_thermal (s : State) : s.showCeil.rd F.pwrFstepCtlThermal =
    if s.pwr.thermCeil.isSome || s.pwr.currCeil.isSome then 1 else 0 := by
  unfold State.showCeil
  simp only
  rw [State.rd_wr_disjoint _ _ _ _ (by decide) (by decide) (by decide) (by decide) (by decide),
    State.rd_wr_same _ _ _ (by decide) (by decide)]
  split <;> rfl

theorem showCeil_ceil (s : State) (h : s.pwr.ceiling < 4) : s.showCeil.rd F.pwrFstepCtlCeil = s.pwr.ceiling := by
  unfold State.showCeil
  simp only
  rw [State.rd_wr_same _ _ _ (by decide) (by decide)]
  exact Nat.mod_eq_of_lt h

theorem showCeil_keeps (s : State) : KeepsPower s s.showCeil := ((KeepsPower.refl s).wr _ _).wr _ _

/-- A ceiling is set or lowered: PWR's record changes, FSTEP_CTL shows it, and an event of class 9 is raised. -/
def State.announceCeil (s : State) (f : Pwr → Pwr) (b : Nat) : State := ((s.setPwr f).showCeil).raise blkPwr 9 (some b)

section
variable (s : State) (f : Pwr → Pwr) (b : Nat)

theorem announceCeil_pwr : (s.announceCeil f b).pwr = f s.pwr := (showCeil_keeps (s.setPwr f)).2.1
theorem announceCeil_beat : (s.announceCeil f b).beat = s.beat := (showCeil_keeps (s.setPwr f)).2.2.1
theorem announceCeil_pending : (s.announceCeil f b).pending = s.pending := (showCeil_keeps (s.setPwr f)).2.2.2

theorem announceCeil_events : (s.announceCeil f b).events = s.events ++ [⟨s.beat, 9, 861, some b⟩] := by
  obtain ⟨hevents, -, hbeat, -⟩ := showCeil_keeps (s.setPwr f)
  rw [State.announceCeil, State.raise_events, hevents, hbeat]
  rfl

theorem announceCeil_thermal (h : (f s.pwr).thermCeil.isSome = true ∨ (f s.pwr).currCeil.isSome = true) :
    (s.announceCeil f b).rd F.pwrFstepCtlThermal = 1 := by
  rw [State.announceCeil, State.raise_rd, showCeil_thermal, State.setPwr_pwr]
  simp [h]

theorem announceCeil_ceil (h : (f s.pwr).ceiling < 4) : (s.announceCeil f b).rd F.pwrFstepCtlCeil = (f s.pwr).ceiling := by
  rw [State.announceCeil, State.raise_rd, showCeil_ceil]
  · rw [State.setPwr_pwr]
  · rwa [State.setPwr_pwr]

end

/-- The first lowering sets the ceiling one step below the current step (R527). -/
theorem lowerCeil_unset (cur beat : Nat) : lowerCeil none cur beat = some (some (min 3 (cur + 1), beat)) := rfl

/-- A held ceiling goes one step lower after each 10 ms (R527). -/
theorem lowerCeil_held {st b cur beat : Nat} (hst : st < 3) (hb : b + 312500 ≤ beat) :
    lowerCeil (some (st, b)) cur beat = some (some (st + 1, beat)) := by
  have hms : b + 10 * ms ≤ beat := hb
  exact if_pos (by simp [hms, hst])

/-- PWR with a junction reading taken (R526, R527). -/
def Pwr.readTemp (p : Pwr) (t : Int) (beat : Nat) : Pwr :=
  { p with temp := t, coolSince := if t < 92 then some (p.coolSince.getD beat) else none }

/-- From 102 °C on the ceiling becomes the slowest step (R527). -/
theorem junction_hot (s : State) (t : Int) (h : 102 ≤ t) (hne : s.pwr.thermCeil.map (·.1) ≠ some 3) :
    s.junction t = s.announceCeil (fun p => { p.readTemp t s.beat with thermCeil := some (3, s.beat) }) 19 := by
  unfold State.junction
  simp only [State.setPwr_pwr, h, hne, decide_true, ne_eq, not_false_eq_true, Bool.and_self, if_true]
  rfl

/-- Between 97 and 102 °C the ceiling is set or goes lower (R527). -/
theorem junction_warm (s : State) (t : Int) (c : Option (Nat × Nat)) (h97 : 97 ≤ t) (h102 : t < 102)
    (h : lowerCeil s.pwr.thermCeil (s.rd F.pwrFstepCtlCur) s.beat = some c) :
    s.junction t = s.announceCeil (fun p => { p.readTemp t s.beat with thermCeil := c }) 19 := by
  unfold State.junction State.step'
  simp only [State.setPwr_pwr, State.setPwr_rd, State.setPwr_beat, Int.not_le.2 h102, h97, h, decide_false, Bool.false_and,
    Bool.false_eq_true, if_false, if_true]
  rfl

/-- Below 97 °C a reading is recorded alone. -/
theorem junction_cool (s : State) (t : Int) (h : t < 97) : s.junction t = s.setPwr fun p => p.readTemp t s.beat := by
  have h102 : ¬ 102 ≤ t := by omega
  unfold State.junction
  simp only [h102, Int.not_le.2 h, decide_false, Bool.false_and, Bool.false_eq_true, if_false]
  rfl

/-- A current above either limit sets or lowers the current ceiling (R523). -/
theorem current_above (s : State) (m1 mu m10 : Nat) (c : Option (Nat × Nat)) (hover : 1900 < m1 ∨ 2300 < mu)
    (h : lowerCeil s.pwr.currCeil (s.rd F.pwrFstepCtlCur) s.beat = some c) :
    s.current m1 mu m10 = s.announceCeil (fun p => { p with amps := m1, currCeil := c }) 18 := by
  have hcond : (decide (1900 < m1) || decide (2300 < mu)) = true := by simpa using hover
  unfold State.current State.step'
  simp only [hcond, State.setPwr_pwr, State.setPwr_rd, State.setPwr_beat, h, if_true]
  rfl

/-- A ceiling lifts: PWR's record changes, FSTEP_CTL shows what still holds, and a raise may begin (R30). -/
def State.liftCeil (s : State) (f : Pwr → Pwr) : State := ((s.setPwr f).showCeil).beginRaise s.beat

/-- Below 1,700 A over 10 ms the current ceiling lifts (R523). -/
theorem current_lifts (s : State) (m1 mu m10 : Nat) (h1 : m1 ≤ 1900) (hu : mu ≤ 2300) (h10 : m10 < 1700)
    (h : s.pwr.currCeil.isSome = true) :
    s.current m1 mu m10 = s.liftCeil fun p => { p with amps := m1, currCeil := none } := by
  unfold State.current
  simp only [Nat.not_lt.2 h1, Nat.not_lt.2 hu, h10, State.setPwr_pwr, h, decide_true, decide_false, Bool.or_self, Bool.and_self,
    Bool.false_eq_true, if_false, if_true]
  rfl

/-- Below 92 °C for 1 ms the thermal ceiling lifts (R527). -/
theorem thermLift_lifts (s : State) (b : Nat) (hcool : s.pwr.coolSince = some b) (hb : b + 31250 ≤ s.beat)
    (h : s.pwr.thermCeil.isSome = true) : s.thermLift = s.liftCeil fun p => { p with thermCeil := none } := by
  have hms : b + ms ≤ s.beat := hb
  unfold State.thermLift
  simp only [hcool, hms, h, decide_true, Bool.and_self, if_true]
  rfl

section
variable (s : State) (f : Pwr → Pwr)

/-- What a lift leaves beside the voltage command. -/
theorem liftCeil_keepsCeilings : KeepsCeilings ((s.setPwr f).showCeil) (s.liftCeil f) := beginRaise_keepsCeilings _ _

theorem liftCeil_pending : (s.liftCeil f).pending = s.pending :=
  (liftCeil_keepsCeilings s f).pending_eq.trans (showCeil_keeps (s.setPwr f)).2.2.2

theorem liftCeil_beat : (s.liftCeil f).beat = s.beat :=
  (liftCeil_keepsCeilings s f).beat_eq.trans (showCeil_keeps (s.setPwr f)).2.2.1

theorem liftCeil_thermCeil : (s.liftCeil f).pwr.thermCeil = (f s.pwr).thermCeil :=
  (liftCeil_keepsCeilings s f).thermCeil_eq.trans (congrArg Pwr.thermCeil (showCeil_keeps (s.setPwr f)).2.1)

theorem liftCeil_currCeil : (s.liftCeil f).pwr.currCeil = (f s.pwr).currCeil :=
  (liftCeil_keepsCeilings s f).currCeil_eq.trans (congrArg Pwr.currCeil (showCeil_keeps (s.setPwr f)).2.1)

theorem liftCeil_thermal : (s.liftCeil f).rd F.pwrFstepCtlThermal =
    if (f s.pwr).thermCeil.isSome || (f s.pwr).currCeil.isSome then 1 else 0 := by
  rw [(liftCeil_keepsCeilings s f).rd_eq, showCeil_thermal, State.setPwr_pwr]

theorem liftCeil_ceil (h : (f s.pwr).ceiling < 4) : (s.liftCeil f).rd F.pwrFstepCtlCeil = (f s.pwr).ceiling := by
  rw [(liftCeil_keepsCeilings s f).rd_eq, showCeil_ceil, State.setPwr_pwr]
  rwa [State.setPwr_pwr]

end

/-- A held ceiling is one of the four steps. -/
theorem ceil_getD_lt {c : Option (Nat × Nat)} (h : ∀ x ∈ c, x.1 < 4) : (c.map (·.1)).getD 0 < 4 := by
  cases c with
  | none => exact Nat.zero_lt_succ 3
  | some x => exact h x rfl

/-- Settles O12: each clause is one branch of the reading, answered by what announcing or lifting a ceiling leaves. -/
theorem thermalAndCurrentLimits : Obligations.ThermalAndCurrentLimits := by
  refine ⟨fun s temps hpor h102 hne hcurr => ?_, fun s temps hpor h97 h102 hnone => ?_,
    fun s temps st b hpor h97 h102 hheld hst hb => ?_, fun s temps hpor h97 => ?_, fun s b hpor hcool hb hheld hcurr => ?_,
    fun s temps hpor h110 => ?_, fun s temps hpor h90 => ?_, fun s m1 mu m10 hpor hover hnone => ?_,
    fun s m1 mu m10 st b hpor hover hheld hst hb => ?_, fun s m1 mu m10 hpor h1 hu h10 hheld htherm => ?_⟩
  · rw [exec_thermalThreshold]
    refine ⟨_, always_eq hpor (junction_hot s _ h102 hne) (announceCeil_pending _ _ _) (announceCeil_beat _ _ _), ?_,
      announceCeil_thermal _ _ _ (.inl rfl), ?_, announceCeil_events _ _ _⟩
    · rw [announceCeil_pwr]
    · have hceil := ceil_getD_lt hcurr
      have h3 : max 3 ((s.pwr.currCeil.map (·.1)).getD 0) = 3 := by omega
      rw [announceCeil_ceil]
      · exact h3
      · exact Nat.lt_of_le_of_lt (Nat.le_of_eq h3) (by decide)
  · rw [exec_thermalThreshold]
    refine ⟨_, always_eq hpor (junction_warm s _ _ h97 h102 (by rw [hnone, lowerCeil_unset])) (announceCeil_pending _ _ _)
      (announceCeil_beat _ _ _), ?_, announceCeil_thermal _ _ _ (.inl rfl), announceCeil_events _ _ _⟩
    rw [announceCeil_pwr]
  · rw [exec_thermalThreshold]
    refine ⟨_, always_eq hpor (junction_warm s _ _ h97 h102 (by rw [hheld, lowerCeil_held hst hb])) (announceCeil_pending _ _ _)
      (announceCeil_beat _ _ _), ?_, announceCeil_events _ _ _⟩
    rw [announceCeil_pwr]
  · rw [exec_thermalThreshold]
    exact always_eq hpor (junction_cool s _ h97) rfl rfl
  · rw [exec_thermalCeilingLift]
    refine ⟨_, always_eq hpor (thermLift_lifts s b hcool hb hheld) (liftCeil_pending _ _) (liftCeil_beat _ _),
      liftCeil_thermCeil _ _, ?_, ?_⟩
    · rw [liftCeil_thermal, Option.isSome_none, Bool.false_or]
    · rw [liftCeil_ceil _ _ (by rw [ceiling_of_thermCeil_none rfl]; exact ceil_getD_lt hcurr), ceiling_of_thermCeil_none rfl]
  · rw [exec_thermalTrip]
    obtain ⟨-, hpwr, hbeat, hpending⟩ := fatal_keeps
      (s.setPwr fun p => { p with temp := hottest temps, thermtrip := true, coolSince := none }) blkPwr (some 20)
    exact ⟨_, always_eq hpor (if_pos h110) hpending hbeat, congrArg Pwr.thermtrip hpwr, fatal_halted _ _ _⟩
  · rw [exec_thermtripRelease]
    exact always_eq hpor (if_pos h90) rfl rfl
  · rw [exec_currentCeiling]
    refine ⟨_, always_eq hpor (current_above s _ _ _ _ hover (by rw [hnone, lowerCeil_unset])) (announceCeil_pending _ _ _)
      (announceCeil_beat _ _ _), ?_, announceCeil_thermal _ _ _ (.inr rfl), announceCeil_events _ _ _⟩
    rw [announceCeil_pwr]
  · rw [exec_currentCeiling]
    refine ⟨_, always_eq hpor (current_above s _ _ _ _ hover (by rw [hheld, lowerCeil_held hst hb])) (announceCeil_pending _ _ _)
      (announceCeil_beat _ _ _), ?_, announceCeil_events _ _ _⟩
    rw [announceCeil_pwr]
  · rw [exec_currentCeiling]
    refine ⟨_, always_eq hpor (current_lifts s _ _ _ h1 hu h10 hheld) (liftCeil_pending _ _) (liftCeil_beat _ _),
      liftCeil_currCeil _ _, ?_, ?_⟩
    · rw [liftCeil_thermal, Option.isSome_none, Bool.or_false]
    · rw [liftCeil_ceil _ _ (by rw [ceiling_of_currCeil_none rfl]; exact ceil_getD_lt htherm), ceiling_of_currCeil_none rfl]

/-! ## The resolution of events (R23, R24, R508) -/

/-- The order of resolution (R23): by stamp, class, block index and event bit. -/
def Event.Precedes (a b : Event) : Prop :=
  a.stamp < b.stamp ∨ (a.stamp = b.stamp ∧ (a.cls < b.cls ∨ (a.cls = b.cls ∧ (a.blk < b.blk ∨
    (a.blk = b.blk ∧ a.bit.getD 64 ≤ b.bit.getD 64)))))

theorem before_iff (a b : Event) : a.before b = true ↔ a.Precedes b := by
  simp [Event.before, Event.Precedes]

theorem precedes_trans {a b c : Event} (hab : a.Precedes b) (hbc : b.Precedes c) : a.Precedes c := by
  unfold Event.Precedes at *
  omega

theorem precedes_total {a b : Event} (h : ¬ a.Precedes b) : b.Precedes a := by
  unfold Event.Precedes at *
  omega

theorem insertEvent_perm (e : Event) (l : List Event) : (insertEvent e l).Perm (e :: l) := by
  induction l with
  | nil => exact .refl _
  | cons x l ih =>
    unfold insertEvent
    split
    · exact (ih.cons x).trans (.swap e x l)
    · exact .refl _

theorem insertEvent_pairwise (e : Event) (l : List Event) (h : l.Pairwise Event.Precedes) :
    (insertEvent e l).Pairwise Event.Precedes := by
  induction l with
  | nil => exact List.pairwise_singleton _ e
  | cons x l ih =>
    obtain ⟨hx, hl⟩ := List.pairwise_cons.1 h
    unfold insertEvent
    split
    · next hxe =>
      refine List.pairwise_cons.2 ⟨fun y hy => ?_, ih hl⟩
      rcases List.mem_cons.1 ((insertEvent_perm e l).mem_iff.1 hy) with rfl | hy
      · exact (before_iff x y).1 hxe
      · exact hx y hy
    · next hxe =>
      have hex : e.Precedes x := precedes_total fun hp => hxe ((before_iff x e).2 hp)
      refine List.pairwise_cons.2 ⟨fun y hy => ?_, h⟩
      rcases List.mem_cons.1 hy with rfl | hy
      · exact hex
      · exact precedes_trans hex (hx y hy)

/-- The events of a list in the order of resolution. -/
def inOrder (l : List Event) : List Event := l.foldl (fun l e => insertEvent e l) []

theorem foldl_insertEvent (l acc : List Event) (h : acc.Pairwise Event.Precedes) :
    (l.foldl (fun l e => insertEvent e l) acc).Perm (l ++ acc) ∧
      (l.foldl (fun l e => insertEvent e l) acc).Pairwise Event.Precedes := by
  induction l generalizing acc with
  | nil => exact ⟨.refl _, h⟩
  | cons e l ih =>
    obtain ⟨hperm, hsorted⟩ := ih (insertEvent e acc) (insertEvent_pairwise e acc h)
    exact ⟨(hperm.trans ((insertEvent_perm e acc).append_left l)).trans List.perm_middle, hsorted⟩

theorem inOrder_perm (l : List Event) : (inOrder l).Perm l :=
  (foldl_insertEvent l [] .nil).1.trans (.of_eq l.append_nil)

theorem inOrder_pairwise (l : List Event) : (inOrder l).Pairwise Event.Precedes := (foldl_insertEvent l [] .nil).2

/-- Is an event delivered: it has no bit, or EVT_EN lets its bit through (R508)? -/
def State.delivers (s : State) (e : Event) : Bool := e.bit.all fun b => tst (s.rd (F.hdrEvtEnEn e.blk)) b

/-- The form in which the processors receive an event. -/
def Event.delivered (e : Event) : Delivered := ⟨e.stamp, e.cls, e.blk, e.bit⟩

theorem bit_eq_one_iff (w i : Nat) : bit w i = 1 ↔ w.testBit i = true := by
  rw [bit, bits_eq, Nat.sub_self, Nat.testBit_eq_decide_div_mod_eq]
  exact decide_eq_true_iff.symm

/-- The register words replaced, and the processors' deliveries continued: all that a resolution may change beside the waiting events. -/
def State.withRegs (s : State) (r : SMap Word) (l : List Delivered) : State := { s with regs := r, cpOut := s.cpOut ++ l }

theorem withRegs_withRegs (s : State) (r r' l l') : (s.withRegs r l).withRegs r' l' = s.withRegs r' (l ++ l') := by
  simp [State.withRegs]

theorem withRegs_self (s : State) : s.withRegs s.regs [] = s := by simp [State.withRegs]

theorem withRegs_rd (s : State) (l : List Delivered) (f : Fld) : (s.withRegs s.regs l).rd f = s.rd f := State.rd_of_regs rfl f

theorem wr_withRegs_rd (s : State) (g : Fld) (v : Nat) (l : List Delivered) (f : Fld) :
    (s.withRegs (s.wr g v).regs l).rd f = (s.wr g v).rd f := State.rd_of_regs rfl f

theorem wr_withRegs_reg (s : State) (g : Fld) (v : Nat) (l : List Delivered) (d : Nat) :
    (s.withRegs (s.wr g v).regs l).reg d = (s.wr g v).reg d := State.reg_of_regs rfl d

theorem wr_deliver (s : State) (g : Fld) (v : Nat) (l : List Delivered) :
    ({ s.wr g v with cpOut := (s.wr g v).cpOut ++ l } : State) = s.withRegs (s.wr g v).regs l := rfl

theorem wr_eq_withRegs (s : State) (g : Fld) (v : Nat) : s.wr g v = s.withRegs (s.wr g v).regs [] := by
  rw [← wr_deliver, List.append_nil]

/-- From `s` to `t` the events of `due` were resolved, in their order: their bits stand in EVT beside those that stood there, and the
processors received those that are delivered. -/
structure Resolved (due : List Event) (s t : State) : Prop where
  frame : t = s.withRegs t.regs ((due.filter s.delivers).map Event.delivered)
  evt : ∀ blk b, b < 64 → (bit (t.rd (F.hdrEvtEvt blk)) b = 1 ↔
    bit (s.rd (F.hdrEvtEvt blk)) b = 1 ∨ ∃ e ∈ due, e.blk = blk ∧ e.bit = some b)
  reg : ∀ d, d % 0x100000 ≠ 0xE10 → t.reg d = s.reg d

theorem resolved_nil (s : State) : Resolved [] s s where
  frame := (withRegs_self s).symm
  evt := by simp
  reg _ _ := rfl

/-- EVT_EN is not written by a resolution, so what is delivered does not depend on what was resolved before. -/
theorem Resolved.delivers_eq {due : List Event} {s t : State} (h : Resolved due s t) : t.delivers = s.delivers := by
  funext e
  have hen : t.rd (F.hdrEvtEnEn e.blk) = s.rd (F.hdrEvtEnEn e.blk) :=
    State.rd_of_reg (h.reg _ (by simp only [F.hdrEvtEnEn]; omega))
  rw [State.delivers, hen, State.delivers]

theorem Resolved.append {l m : List Event} {s t u : State} (h1 : Resolved l s t) (h2 : Resolved m t u) :
    Resolved (l ++ m) s u where
  frame := by
    have hu := h2.frame
    rw [h1.delivers_eq, h1.frame, withRegs_withRegs] at hu
    rwa [List.filter_append, List.map_append]
  evt blk b hb := by
    rw [h2.evt blk b hb, h1.evt blk b hb, or_assoc]
    simp only [List.mem_append, or_and_right, exists_or]
  reg d hd := (h2.reg d hd).trans (h1.reg d hd)

theorem hdrEvtEvt_csa_ne {blk blk' : Nat} (h : blk ≠ blk') : (F.hdrEvtEvt blk).csa ≠ (F.hdrEvtEvt blk').csa := by
  simp only [F.hdrEvtEvt]
  omega

/-- EVT with one bit set (R504). -/
def State.markEvt (s : State) (blk b : Nat) : State := s.wr (F.hdrEvtEvt blk) (s.rd (F.hdrEvtEvt blk) ||| 2 ^ b)

theorem markEvt_evt (s : State) (blk c blk' b : Nat) (hb : b < 64) :
    bit ((s.markEvt blk c).rd (F.hdrEvtEvt blk')) b = 1 ↔ bit (s.rd (F.hdrEvtEvt blk')) b = 1 ∨ (blk = blk' ∧ c = b) := by
  unfold State.markEvt
  by_cases h : blk' = blk
  · subst h
    rw [State.rd_wr_same _ _ _ (Nat.zero_le _) (show 63 < 64 by decide), bit_eq_one_iff, bit_eq_one_iff]
    change Nat.testBit (_ % 2 ^ 64) b = true ↔ _
    rw [Nat.testBit_mod_two_pow, Nat.testBit_or, Nat.testBit_two_pow]
    simp [hb]
  · rw [State.rd_wr_ne _ _ _ _ (hdrEvtEvt_csa_ne h)]
    simp [Ne.symm h]

theorem markEvt_en (s : State) (blk b : Nat) (blk' : Nat) :
    (s.markEvt blk b).rd (F.hdrEvtEnEn blk') = s.rd (F.hdrEvtEnEn blk') :=
  State.rd_wr_ne _ _ _ _ (by simp only [F.hdrEvtEnEn, F.hdrEvtEvt]; omega)

theorem markEvt_reg (s : State) (blk b d : Nat) (h : d % 0x100000 ≠ 0xE10) : (s.markEvt blk b).reg d = s.reg d :=
  State.reg_setReg_ne _ _ _ (by rintro rfl; simp only [F.hdrEvtEvt] at h; omega)

theorem resolve_of_no_bit {s : State} {e : Event} (h : e.bit = none) : s.resolve e = s.withRegs s.regs [e.delivered] := by
  obtain ⟨stamp, cls, blk, bit⟩ := e
  subst h
  rfl

/-- An event with a bit sets it, and is delivered where EVT_EN lets the bit through. -/
theorem resolve_of_bit {s : State} {e : Event} {b : Nat} (h : e.bit = some b) :
    s.resolve e = s.withRegs (s.markEvt e.blk b).regs (([e].filter s.delivers).map Event.delivered) := by
  have hen := markEvt_en s e.blk b e.blk
  have hd : s.delivers e = tst (s.rd (F.hdrEvtEnEn e.blk)) b := by rw [State.delivers, h, Option.all_some]
  unfold State.resolve
  rw [List.filter_cons, List.filter_nil, hd, tst]
  unfold State.markEvt at *
  obtain ⟨stamp, cls, blk, bit⟩ := e
  subst h
  simp only at *
  rw [hen]
  split
  · next hbit =>
    rw [hbit]
    exact wr_deliver _ _ _ _
  · next hbit =>
    rw [beq_false_of_ne hbit]
    exact wr_eq_withRegs _ _ _

/-- The resolution of one event. -/
theorem resolved_resolve (s : State) (e : Event) : Resolved [e] s (s.resolve e) := by
  cases h : e.bit with
  | none =>
    have hd : s.delivers e = true := by rw [State.delivers, h, Option.all_none]
    rw [resolve_of_no_bit h]
    refine ⟨by rw [List.filter_cons, hd]; rfl, fun blk b _ => ?_, fun d _ => State.reg_of_regs rfl d⟩
    rw [withRegs_rd]
    simp [h]
  | some c =>
    rw [resolve_of_bit h, State.markEvt]
    refine ⟨rfl, fun blk b hb => ?_, fun d hd => (wr_withRegs_reg _ _ _ _ d).trans (markEvt_reg s e.blk c d hd)⟩
    rw [wr_withRegs_rd]
    exact (markEvt_evt s e.blk c blk b hb).trans (by simp [h])

/-- The events of a list resolved one after the other. -/
theorem resolved_each (due : List Event) (s : State) : Resolved due s (each due (fun e s => s.resolve e) s) := by
  induction due generalizing s with
  | nil => exact resolved_nil s
  | cons e l ih => exact (resolved_resolve s e).append (ih (s.resolve e))

theorem exec_eventResolution (s : State) : exec .eventResolution s = always s fun s => s.resolveEvents := rfl

/-- The events that wait on after a resolution: those stamped less than two beats ago (R23). -/
def State.dropDue (s : State) : State := { s with events := s.events.filter fun e => decide (s.beat < e.stamp + 2) }

/-- The events due, in the order of resolution. -/
def State.due (s : State) : List Event := inOrder (s.events.filter fun e => decide (e.stamp + 2 ≤ s.beat))

theorem resolveEvents_eq (s : State) : s.resolveEvents = each s.due (fun e s => s.resolve e) s.dropDue := by
  have hlate : (fun e : Event => !decide (e.stamp + 2 ≤ s.beat)) = fun e => decide (s.beat < e.stamp + 2) := by
    funext e
    rw [Bool.eq_iff_iff]
    simp
  unfold State.resolveEvents State.dropDue
  simp only [hlate]
  rfl

/-- Settles O17: the events due are resolved one after the other, and each resolution sets its bit and delivers. -/
theorem eventsResolveInOrder : Obligations.EventsResolveInOrder := by
  intro s hpor
  obtain ⟨hframe, hevt, hreg⟩ := resolved_each s.due s.dropDue
  rw [← resolveEvents_eq] at hframe hevt hreg
  have hdel : (s.due.filter s.dropDue.delivers) = s.due.filter fun e => match e.bit with
      | none => true
      | some b => tst (s.rd (F.hdrEvtEnEn e.blk)) b := by
    refine List.filter_congr fun e _ => ?_
    rw [State.delivers]
    cases e.bit <;> rfl
  rw [hdel] at hframe
  rw [exec_eventResolution]
  have hpending : s.resolveEvents.pending = s.pending := by rw [hframe]; rfl
  have hbeat : s.resolveEvents.beat = s.beat := by rw [hframe]; rfl
  exact ⟨_, s.due, always_eq hpor rfl hpending hbeat, inOrder_perm _, inOrder_pairwise _, hframe, hevt, hreg⟩

end Sys2Proof.Machine
end
